-- ==== Sys2Proof/Word.lean ====
section
/-! DEFINITION. The words of the SL4 (00_scope.md R3): fixed widths as abbreviations of bit vectors. -/

namespace Sys2Proof

/-- A scalar register's 64 bits (R19). -/
abbrev Word := BitVec 64
/-- A byte of any memory. -/
abbrev Byte := BitVec 8
/-- One 48-bit slot of a bundle (R68). -/
abbrev SlotWord := BitVec 48
/-- A bundle's 384 bits (R68). -/
abbrev BundleWord := BitVec 384
/-- The 16,384 bits of an ACS row (R22). -/
abbrev RowBits := BitVec 16384
/-- The 1,024 bits of a mask register or of a lane-flag register (R19, R36). -/
abbrev MaskBits := BitVec 1024

end Sys2Proof
end

