-- ==== Sys2Proof/Syntax.lean ====
section
/-! DEFINITION. The instructions: one constructor per row of the opcode table. A slot operation carries the fields of its
format (04_bundle_encoding.md R79 to R82) at their exact widths, reserved fields left out; an event carries what tells
one occurrence from another. -/

namespace Sys2Proof

/-- The fields of format SR: scalar register (R79). -/
structure SR where
  sub : BitVec 4
  nf : BitVec 1
  d : BitVec 6
  a : BitVec 6
  b : BitVec 6
  c : BitVec 6
  deriving DecidableEq, Repr

/-- The fields of format SI: scalar immediate (R79). -/
structure SI where
  sub : BitVec 4
  d : BitVec 6
  a : BitVec 6
  imm24 : BitVec 24
  deriving DecidableEq, Repr

/-- The fields of format SB: branch (R79). -/
structure SB where
  cond : BitVec 4
  a : BitVec 6
  b : BitVec 6
  off24 : BitVec 24
  deriving DecidableEq, Repr

/-- The fields of format SL: loop and time control (R79). -/
structure SL where
  sub : BitVec 4
  a : BitVec 6
  imm12 : BitVec 12
  off18 : BitVec 18
  deriving DecidableEq, Repr

/-- The fields of format RP: repeat prefix REP (R79). -/
structure RP where
  mask : BitVec 4
  a : BitVec 6
  imm12 : BitVec 12
  sd : BitVec 6
  sa : BitVec 6
  sb : BitVec 6
  deriving DecidableEq, Repr

/-- The fields of format SX: system (R79). -/
structure SX where
  sub : BitVec 4
  d : BitVec 6
  a : BitVec 6
  sysreg : BitVec 12
  imm12 : BitVec 12
  deriving DecidableEq, Repr

/-- The fields of format VR: vector register, and XR of the X class (R80). -/
structure VR where
  m : BitVec 4
  nf : BitVec 1
  rm : BitVec 3
  d : BitVec 9
  a : BitVec 9
  b : BitVec 9
  aux : BitVec 5
  deriving DecidableEq, Repr

/-- The fields of format VI: vector immediate (R80). -/
structure VI where
  m : BitVec 4
  d : BitVec 9
  imm23 : BitVec 23
  deriving DecidableEq, Repr

/-- The fields of format XC: engine command MCALL (R81). -/
structure XC where
  at16 : BitVec 16
  rtn : BitVec 8
  deriving DecidableEq, Repr

/-- The fields of format XD: engine command of the MDRAIN family (R81). -/
structure XD where
  at16 : BitVec 16
  row0 : BitVec 9
  nrow : BitVec 9
  clamp : BitVec 1
  ck : BitVec 1
  mpt : BitVec 3
  deriving DecidableEq, Repr

/-- The fields of format XZ: engine command MZERO (R81). -/
structure XZ where
  at16 : BitVec 16
  row0 : BitVec 9
  nrow : BitVec 9
  deriving DecidableEq, Repr

/-- The fields of format XU: engine commands MUCLD and MBLD (R81). -/
structure XU where
  at16 : BitVec 16
  a : BitVec 6
  b : BitVec 6
  deriving DecidableEq, Repr

/-- The fields of format MA: memory access (R82). -/
structure MA where
  lat : BitVec 3
  d : BitVec 9
  a : BitVec 6
  off21 : BitVec 21
  deriving DecidableEq, Repr

/-- The fields of format MI: memory access with index (R82). -/
structure MI where
  lat : BitVec 3
  d : BitVec 9
  a : BitVec 6
  x : BitVec 9
  off12 : BitVec 12
  deriving DecidableEq, Repr

/-- The fields of format MC: copy (R82). -/
structure MC where
  at14 : BitVec 14
  ch : BitVec 2
  a : BitVec 6
  b : BitVec 6
  l : BitVec 6
  bar : BitVec 6
  deriving DecidableEq, Repr

/-- The fields of format MS: synchronisation and atomics (R82). -/
structure MS where
  lat : BitVec 3
  sz : BitVec 2
  d : BitVec 6
  a : BitVec 6
  b : BitVec 6
  c : BitVec 6
  sub : BitVec 6
  deriving DecidableEq, Repr

/-- The fields of format MH: channel (R82). -/
structure MH where
  lat : BitVec 3
  ch : BitVec 8
  v : BitVec 9
  deriving DecidableEq, Repr

/-- The fields of format MJ: journal (R82). -/
structure MJ where
  kind : BitVec 4
  a : BitVec 6
  b : BitVec 6
  c : BitVec 6
  deriving DecidableEq, Repr

/-- Why a trap is taken (R294, R295): the cause code, the slot it belongs to when one applies (SV, SLOT), whether it is
deferred (DEF), the software trap's code (SWC) and the causing bundle's stream address (FADDR). -/
structure Cause where
  code : Nat
  slot : Option Nat
  deferred : Bool
  swc : Nat
  faddr : Nat
  deriving DecidableEq, Repr

/-- A channel element on its way to a receiver's ring (R317): its sender (1024 x module + core), the receiver's
core and CHT entry, its bytes, and which are poisoned. -/
structure Element where
  source : Nat
  core : Nat
  channel : Nat
  bytes : List Byte
  poison : List Bool
  deriving DecidableEq, Repr

/-- A command packet (R279): the function whose ring holds it, its index in that ring, and its 256 bytes. -/
structure Packet where
  ring : Nat
  index : Nat
  bits : BitVec 2048
  deriving DecidableEq, Repr

/-- A Kwalin flit (R310): header, extension if it has one, payload; and, though the header has no field for them (log 33), its sender (1024 x
module + core, or stack) and the bytes of the element it belongs to, which the receiver knows (R317, R326), and the function of its
issuer (R348). -/
structure Flit where
  header : BitVec 128
  ext : Option (BitVec 128)
  payload : BitVec 2048
  source : Nat
  size : Nat := 0
  fn : Nat := 0
  deriving DecidableEq, Repr

/-- What a timestamped message and the servo it feeds give the TBU (R327 to R329): the source, its hops and θ, the hop's
asymmetry term, the servo's residual, whether this module is the reference, and whether CYC is locked to GTIME. -/
structure TimeMessage where
  source : Nat
  hops : Nat
  ptheta : Nat
  asym : Nat
  resid : Nat
  isReference : Bool
  locked : Bool
  deriving DecidableEq, Repr

/-- An acknowledgement of journal records (R338): the module that sends it, and the number it names, the one it expects next. -/
structure RecordAck where
  sender : Nat
  number : Nat
  deriving DecidableEq, Repr

/-- A journal record (R336): its sequence number, stream, kind, origin, writer module, payload, target and launch. -/
structure RingRecord where
  number : Nat
  stream : Nat
  kind : Nat
  orig : Nat
  writer : Nat
  payload : Word
  target : Word
  launch : Nat
  deriving DecidableEq, Repr

/-- A host-link request (R348): the function of its requester ID, whether it is a configuration request, the address in the
function's device virtual space, the bytes of a write, or the size of a read. -/
structure LinkRequest where
  fn : Nat
  config : Bool
  addr : Nat
  write : Option (List Byte)
  size : Nat
  deriving DecidableEq, Repr

/-- A Lantern image (R373): its measurement and security version, whether each of its two signatures verifies, and whether it
boots healthily. -/
structure FirmwareImage where
  measure : Word
  version : Nat
  edOk : Bool
  mlOk : Bool
  boots : Bool
  deriving DecidableEq, Repr

/-- The protected 8-byte word a soft error strikes (R359): the store (0 ACS, 1 SPD, 2 BOS, 3 SYE SRAM, 4 HBM, 5 dictionary,
6 microprogram store, 7 CHT, 8 PTT), the core or die, the word's index in it, and whether more than one bit flips. -/
structure ErrorTarget where
  store : Nat
  place : Nat
  index : Nat
  double : Bool
  deriving DecidableEq, Repr

/-- One step of the opcode table. -/
inductive Instr where
  /-- BUNDLE_ISSUE (R70): the eight slot operations of one bundle, in slot order. -/
  | bundleIssue (s0 s1 v0 v1 v2 x m0 m1 : Instr)
  /-- NOP (R69). -/
  | nop
  | resultLand (id : Nat)
  | loadDataArrival (id : Nat)
  | loadPromiseMiss (id : Nat)
  | storePerform (id : Nat)
  | lateStoreFault (id : Nat)
  | trapEntry (q : Nat) (cause : Cause)
  | timerInterrupt (q : Nat)
  | latchedLoadFault (id : Nat) (sub : Nat) (addr : Nat)
  | looppRollback (q : Nat)
  | pageHandover (fn : Nat) (va : Nat) (toHost : Bool)
  | engineCommandStart (id : Nat)
  | mxeRoutineStart (id : Nat)
  | mxeRoutineOverrun (id : Nat)
  | engineCommandEnd (id : Nat)
  | tileRowArrival (core : Nat) (handle : Nat) (row : Nat)
  | copyChunkComplete (id : Nat) (crcErrors : Nat)
  | copyComplete (id : Nat)
  | copySuspend (id : Nat) (sub : Nat) (addr : Nat)
  | probeFillComplete (id : Nat)
  | syeRequestArrival (id : Nat)
  | barwaitReport (q : Nat)
  | waitvWake (q : Nat) (poisoned : Bool)
  | twaitRelease (q : Nat)
  | trealignRelease (q : Nat)
  | channelElementArrival (element : Element)
  | chrecvWake (q : Nat)
  | tlbWalkComplete (id : Nat)
  | launchStart (launch : Nat) (core : Nat)
  | taskStart (core : Nat)
  | launchDone (launch : Nat)
  | sliceReset (core : Nat)
  | arbiterIdleGrant (core : Nat)
  | queueSwitchComplete (core : Nat)
  | deadlineFault (core : Nat)
  | deadlineAbort (core : Nat) (queue : Nat)
  | launch (packet : Packet)
  | detlevel (packet : Packet)
  | qset (packet : Packet)
  | quiesce (packet : Packet)
  | quiesceCutComplete (fn : Nat)
  | quiesceTimeout (fn : Nat)
  | restore (packet : Packet)
  | resume (packet : Packet)
  | abort (packet : Packet)
  | tlbInvalidateComplete
  | heartbeatTimeout (stack : Nat)
  | pauseExpiry (port : Nat) (lane : Nat)
  | noRouteTimeout (target : Nat)
  | srdStepEnqueue (id : Nat)
  | srdStepBegin (stack : Nat)
  | srdStepComplete (stack : Nat)
  | collectiveFlitArrival (port : Nat) (flit : Flit)
  | collectiveWaitTimeout (port : Nat) (lane : Nat)
  | journalResendTimeout
  | emissionPerform
  | partnerFailureTimeout
  | spareReseedComplete
  | writerFailureTimeout
  | flrDrainComplete (vf : Nat)
  | flrScrubComplete (vf : Nat)
  | statedRunOverrun (core : Nat)
  | sadd (f : SR)
  | ssub (f : SR)
  | smul (f : SR)
  | smulh (f : SR)
  | smulhu (f : SR)
  | sdiv (f : SR)
  | sdivu (f : SR)
  | srem (f : SR)
  | sremu (f : SR)
  | sand (f : SR)
  | sor (f : SR)
  | sxor (f : SR)
  | sshl (f : SR)
  | sshr (f : SR)
  | ssra (f : SR)
  | saddi (f : SI)
  | sandi (f : SI)
  | sori (f : SI)
  | sxori (f : SI)
  | sshli (f : SI)
  | sshri (f : SI)
  | ssrai (f : SI)
  | sli (f : SI)
  | slih (f : SI)
  | sclz (f : SR)
  | spop (f : SR)
  | smin (f : SR)
  | smax (f : SR)
  | sminu (f : SR)
  | smaxu (f : SR)
  | scmp (f : SR)
  | ssel (f : SR)
  | sextU (f : SR)
  | sextS (f : SR)
  | sins (f : SR)
  | sfadd (f : SR)
  | sfsub (f : SR)
  | sfmul (f : SR)
  | sfma (f : SR)
  | sfcmp (f : SR)
  | sfcvtF32I64 (f : SR)
  | sfcvtF32U64 (f : SR)
  | sfcvtI64F32 (f : SR)
  | sfcvtU64F32 (f : SR)
  | sfcvtF32Bf16 (f : SR)
  | sfcvtF32F16 (f : SR)
  | sfcvtBf16F32 (f : SR)
  | sfcvtF16F32 (f : SR)
  | sfcvtF32Fx32 (f : SR)
  | sfcvtFx32F32 (f : SR)
  | sfmin (f : SR)
  | sfmax (f : SR)
  | br (f : SB)
  | brc (f : SB)
  | bri (f : SB)
  | call (f : SB)
  | ret (f : SB)
  | loop (f : SL)
  | loopp (f : SL)
  | lexit (f : SL)
  | rep (f : RP)
  | spawn (f : SL)
  | yield (f : SL)
  | chk (f : SB)
  | chkm (f : SB)
  | trap (f : SX)
  | rett (f : SX)
  | sysrd (f : SX)
  | syswr (f : SX)
  | setfmt (f : SX)
  | settb (f : SL)
  | twait (f : SL)
  | trealign (f : SL)
  | glchk (f : SX)
  | halt (f : SX)
  | flclr (f : SX)
  | vaddF32 (f : VR)
  | vaddBf16 (f : VR)
  | vaddF16 (f : VR)
  | vsubF32 (f : VR)
  | vsubBf16 (f : VR)
  | vsubF16 (f : VR)
  | vmulF32 (f : VR)
  | vmulBf16 (f : VR)
  | vmulF16 (f : VR)
  | vfmaF32 (f : VR)
  | vfmaBf16 (f : VR)
  | vfmaF16 (f : VR)
  | vfmsF32 (f : VR)
  | vfmsBf16 (f : VR)
  | vfmsF16 (f : VR)
  | vminF32 (f : VR)
  | vminBf16 (f : VR)
  | vminF16 (f : VR)
  | vmaxF32 (f : VR)
  | vmaxBf16 (f : VR)
  | vmaxF16 (f : VR)
  | vabsF32 (f : VR)
  | vabsBf16 (f : VR)
  | vabsF16 (f : VR)
  | vnegF32 (f : VR)
  | vnegBf16 (f : VR)
  | vnegF16 (f : VR)
  | vcmpF32 (f : VR)
  | vcmpBf16 (f : VR)
  | vcmpF16 (f : VR)
  | vclampF32 (f : VR)
  | vclampBf16 (f : VR)
  | vclampF16 (f : VR)
  | vsel (f : VR)
  | viaddI32 (f : VR)
  | viaddI16 (f : VR)
  | visubI32 (f : VR)
  | visubI16 (f : VR)
  | vimulI32 (f : VR)
  | vimulI16 (f : VR)
  | viminI32 (f : VR)
  | viminI16 (f : VR)
  | vimaxI32 (f : VR)
  | vimaxI16 (f : VR)
  | vicmpI32 (f : VR)
  | vicmpI16 (f : VR)
  | vand (f : VR)
  | vor (f : VR)
  | vxor (f : VR)
  | vshl (f : VR)
  | vshr (f : VR)
  | vsra (f : VR)
  | vfxadd (f : VR)
  | vfxsub (f : VR)
  | vqfx (f : VR)
  | vfxf (f : VR)
  | vcvtBf16F32 (f : VR)
  | vcvtF16F32 (f : VR)
  | vcvtF32Bf16 (f : VR)
  | vcvtF32F16 (f : VR)
  | vcvtI32F32 (f : VR)
  | vcvtF32I32 (f : VR)
  | vcvtI16F32 (f : VR)
  | vcvtF32I16 (f : VR)
  | vsplit3 (f : VR)
  | vmov (f : VR)
  | vli (f : VI)
  | vidx (f : VI)
  | vbcastScalar (f : VR)
  | vbcastLane (f : VR)
  | vextr (f : VR)
  | vslide (f : VR)
  | vperm (f : VR)
  | vsumo (f : VR)
  | vsumxXa (f : VR)
  | vsumxF32 (f : VR)
  | vmaxr (f : VR)
  | vminr (f : VR)
  | vstatu (f : VR)
  | vstatw (f : VR)
  | vstatm (f : VR)
  | vstath (f : VR)
  | vstateClr (f : VR)
  | vstateVar (f : VR)
  | vstateSvar (f : VR)
  | vstateRstd (f : VR)
  | vglint (f : VR)
  | vrngBits (f : VR)
  | vrngUnif (f : VR)
  | vamax (f : VR)
  | mand (f : VR)
  | mor (f : VR)
  | mxor (f : VR)
  | mnot (f : VR)
  | mpop (f : VR)
  | mfirst (f : VR)
  | vxadd (f : VR)
  | vxcvtXaF32 (f : VR)
  | vxcvtF32Xa (f : VR)
  | xexp2 (f : VR)
  | xlog2 (f : VR)
  | xrcp (f : VR)
  | xrsqrt (f : VR)
  | xsqrt (f : VR)
  | xtanh (f : VR)
  | xsigm (f : VR)
  | xsin (f : VR)
  | xcos (f : VR)
  | xqbx (f : VR)
  | xdqbx (f : VR)
  | xscale (f : VR)
  | mcall (f : XC)
  | mdrain (f : XD)
  | mdrainAo (f : XD)
  | mdrainAu (f : XD)
  | mdrainN (f : XD)
  | mzero (f : XZ)
  | mpset (f : VR)
  | mucld (f : XU)
  | mbld (f : XU)
  | thset (f : VR)
  | mchks (f : VR)
  | ld8 (f : MA)
  | ld16 (f : MA)
  | ld32 (f : MA)
  | ld64 (f : MA)
  | st8 (f : MA)
  | st16 (f : MA)
  | st32 (f : MA)
  | st64 (f : MA)
  | vld (f : MA)
  | vst (f : MA)
  | vldt (f : MA)
  | vldb (f : MA)
  | vgath (f : MI)
  | vscat (f : MI)
  | probe (f : MA)
  | pref (f : MA)
  | cpygs (f : MC)
  | cpysg (f : MC)
  | cpyss (f : MC)
  | cpyb (f : MC)
  | drainl (f : MS)
  | drainr (f : MS)
  | drainc (f : MS)
  | barinit (f : MS)
  | barinitTree (f : MS)
  | bararv (f : MS)
  | barwait (f : MS)
  | aadd (f : MS)
  | amin (f : MS)
  | amax (f : MS)
  | aand (f : MS)
  | aor (f : MS)
  | axor (f : MS)
  | aswp (f : MS)
  | acas (f : MS)
  | afaddo (f : MS)
  | afaddu (f : MS)
  | axadd (f : MS)
  | astat (f : MS)
  | astatO (f : MS)
  | waitv (f : MS)
  | chsend (f : MH)
  | chrecv (f : MH)
  | srcmdXadd (f : MS)
  | srcmdFaddo (f : MS)
  | srcmdFaddu (f : MS)
  | srcmdMax (f : MS)
  | srcmdMin (f : MS)
  | srcmdStato (f : MS)
  | srcmdStatu (f : MS)
  | srcmdFwd (f : MS)
  | srcmdBx4d (f : MS)
  | jemit (f : MJ)
  | jcmp (f : MJ)
  | jmark (f : MJ)
  | jtrunc (f : MJ)
  | badPacket (packet : Packet)
  | ringEnableWrite (fn : Nat) (value : Word)
  | cmdtailWrite (fn : Nat) (value : Word)
  | cplheadWrite (fn : Nat) (value : Word)
  | registerWrite (offset : Nat) (value : Word)
  | tlbInvalidate (value : Word)
  | jpcomWrite (value : Word) (forwarded : Bool)
  | mcurWrite (value : Word)
  | dutyWrite (value : Word)
  | pwrcapWrite (value : Word)
  | tkoWrite (stack : Nat) (byHost : Bool)
  | rangeMigration (entry : Nat) (newOffset : Nat) (stage : Nat)
  | layerMapOut (stack : Nat) (layer : Nat) (stage : Nat)
  | refreshRateEval (stack : Nat) (temps : List Nat)
  | heartbeat (stack : Nat)
  | retrainRequest (stack : Nat)
  | heatMapPublish
  | sensorSample (sensor : Nat) (reading : Int)
  | powerCapEval (measured : Nat)
  | flitReceive (port : Nat) (flit : Flit) (crcOk : Bool)
  | retryBeat (port : Nat) (lseq : Nat)
  | ackBeat (port : Nat) (lseq : Nat)
  | pauseBeat (port : Nat) (lane : Nat)
  | routeTableWrite (target : Nat) (value : Word)
  | timeSyncMessage (message : TimeMessage)
  | journalRecordReceive (record : RingRecord) (crcOk : Bool)
  | journalAck (ack : RecordAck)
  | writerDownReport
  | vfFlr (vf : Nat)
  | containmentFlr (vf : Nat)
  | moduleReset
  | powerOn
  | coreFatalFault (core : Nat)
  | hostLinkRequest (request : LinkRequest)
  | imageWrite (image : FirmwareImage)
  | attestationRequest (nonce : BitVec 256)
  | softError (target : ErrorTarget)
  | dataRateRetrainComplete (stack : Nat)
  | refreshIntervalBoundary (stack : Nat)
  | mirrorPairingWrite (index : Nat) (value : Word)
  | perstDeassertion
  | powerInterruption
  deriving DecidableEq, Repr

end Sys2Proof
end

