-- ==== Sys2Proof/WellFormed.lean ====
section
/-! DEFINITION. Well-formedness: which slot operations are encodings of the manual. Each operation has a class, an opcode, the
40 bits of its fields (R79 to R82), the mask of the bits its entry names (R85), the value of the bits the entry fixes,
and a check of its codes (R42, R84, R90). -/

namespace Sys2Proof

/-- The low 40 bits of a slot in format SR. -/
def SR.pack (f : SR) : BitVec 40 := (f.sub ++ f.nf ++ 0#11 ++ f.d ++ f.a ++ f.b ++ f.c : BitVec 40)

/-- The fields that the low 40 bits of a slot hold in format SR. -/
def SR.unpack (w : BitVec 40) : SR :=
  ⟨w.extractLsb' 36 4, w.extractLsb' 35 1, w.extractLsb' 18 6, w.extractLsb' 12 6, w.extractLsb' 6 6, w.extractLsb' 0 6⟩

/-- The low 40 bits of a slot in format SI. -/
def SI.pack (f : SI) : BitVec 40 := (f.sub ++ f.d ++ f.a ++ f.imm24 : BitVec 40)

/-- The fields that the low 40 bits of a slot hold in format SI. -/
def SI.unpack (w : BitVec 40) : SI :=
  ⟨w.extractLsb' 36 4, w.extractLsb' 30 6, w.extractLsb' 24 6, w.extractLsb' 0 24⟩

/-- The low 40 bits of a slot in format SB. -/
def SB.pack (f : SB) : BitVec 40 := (f.cond ++ f.a ++ f.b ++ f.off24 : BitVec 40)

/-- The fields that the low 40 bits of a slot hold in format SB. -/
def SB.unpack (w : BitVec 40) : SB :=
  ⟨w.extractLsb' 36 4, w.extractLsb' 30 6, w.extractLsb' 24 6, w.extractLsb' 0 24⟩

/-- The low 40 bits of a slot in format SL. -/
def SL.pack (f : SL) : BitVec 40 := (f.sub ++ f.a ++ f.imm12 ++ f.off18 : BitVec 40)

/-- The fields that the low 40 bits of a slot hold in format SL. -/
def SL.unpack (w : BitVec 40) : SL :=
  ⟨w.extractLsb' 36 4, w.extractLsb' 30 6, w.extractLsb' 18 12, w.extractLsb' 0 18⟩

/-- The low 40 bits of a slot in format RP. -/
def RP.pack (f : RP) : BitVec 40 := (f.mask ++ f.a ++ f.imm12 ++ f.sd ++ f.sa ++ f.sb : BitVec 40)

/-- The fields that the low 40 bits of a slot hold in format RP. -/
def RP.unpack (w : BitVec 40) : RP :=
  ⟨w.extractLsb' 36 4, w.extractLsb' 30 6, w.extractLsb' 18 12, w.extractLsb' 12 6, w.extractLsb' 6 6, w.extractLsb' 0 6⟩

/-- The low 40 bits of a slot in format SX. -/
def SX.pack (f : SX) : BitVec 40 := (f.sub ++ f.d ++ f.a ++ f.sysreg ++ f.imm12 : BitVec 40)

/-- The fields that the low 40 bits of a slot hold in format SX. -/
def SX.unpack (w : BitVec 40) : SX :=
  ⟨w.extractLsb' 36 4, w.extractLsb' 30 6, w.extractLsb' 24 6, w.extractLsb' 12 12, w.extractLsb' 0 12⟩

/-- The low 40 bits of a slot in format VR. -/
def VR.pack (f : VR) : BitVec 40 := (f.m ++ f.nf ++ f.rm ++ f.d ++ f.a ++ f.b ++ f.aux : BitVec 40)

/-- The fields that the low 40 bits of a slot hold in format VR. -/
def VR.unpack (w : BitVec 40) : VR :=
  ⟨w.extractLsb' 36 4, w.extractLsb' 35 1, w.extractLsb' 32 3, w.extractLsb' 23 9, w.extractLsb' 14 9, w.extractLsb' 5 9, w.extractLsb' 0 5⟩

/-- The low 40 bits of a slot in format VI. -/
def VI.pack (f : VI) : BitVec 40 := (f.m ++ 0#4 ++ f.d ++ f.imm23 : BitVec 40)

/-- The fields that the low 40 bits of a slot hold in format VI. -/
def VI.unpack (w : BitVec 40) : VI :=
  ⟨w.extractLsb' 36 4, w.extractLsb' 23 9, w.extractLsb' 0 23⟩

/-- The low 40 bits of a slot in format XC. -/
def XC.pack (f : XC) : BitVec 40 := (f.at16 ++ f.rtn ++ 0#16 : BitVec 40)

/-- The fields that the low 40 bits of a slot hold in format XC. -/
def XC.unpack (w : BitVec 40) : XC :=
  ⟨w.extractLsb' 24 16, w.extractLsb' 16 8⟩

/-- The low 40 bits of a slot in format XD. -/
def XD.pack (f : XD) : BitVec 40 := (f.at16 ++ f.row0 ++ f.nrow ++ f.clamp ++ f.ck ++ 0#1 ++ f.mpt : BitVec 40)

/-- The fields that the low 40 bits of a slot hold in format XD. -/
def XD.unpack (w : BitVec 40) : XD :=
  ⟨w.extractLsb' 24 16, w.extractLsb' 15 9, w.extractLsb' 6 9, w.extractLsb' 5 1, w.extractLsb' 4 1, w.extractLsb' 0 3⟩

/-- The low 40 bits of a slot in format XZ. -/
def XZ.pack (f : XZ) : BitVec 40 := (f.at16 ++ f.row0 ++ f.nrow ++ 0#6 : BitVec 40)

/-- The fields that the low 40 bits of a slot hold in format XZ. -/
def XZ.unpack (w : BitVec 40) : XZ :=
  ⟨w.extractLsb' 24 16, w.extractLsb' 15 9, w.extractLsb' 6 9⟩

/-- The low 40 bits of a slot in format XU. -/
def XU.pack (f : XU) : BitVec 40 := (f.at16 ++ f.a ++ f.b ++ 0#12 : BitVec 40)

/-- The fields that the low 40 bits of a slot hold in format XU. -/
def XU.unpack (w : BitVec 40) : XU :=
  ⟨w.extractLsb' 24 16, w.extractLsb' 18 6, w.extractLsb' 12 6⟩

/-- The low 40 bits of a slot in format MA. -/
def MA.pack (f : MA) : BitVec 40 := (f.lat ++ 0#1 ++ f.d ++ f.a ++ f.off21 : BitVec 40)

/-- The fields that the low 40 bits of a slot hold in format MA. -/
def MA.unpack (w : BitVec 40) : MA :=
  ⟨w.extractLsb' 37 3, w.extractLsb' 27 9, w.extractLsb' 21 6, w.extractLsb' 0 21⟩

/-- The low 40 bits of a slot in format MI. -/
def MI.pack (f : MI) : BitVec 40 := (f.lat ++ 0#1 ++ f.d ++ f.a ++ f.x ++ f.off12 : BitVec 40)

/-- The fields that the low 40 bits of a slot hold in format MI. -/
def MI.unpack (w : BitVec 40) : MI :=
  ⟨w.extractLsb' 37 3, w.extractLsb' 27 9, w.extractLsb' 21 6, w.extractLsb' 12 9, w.extractLsb' 0 12⟩

/-- The low 40 bits of a slot in format MC. -/
def MC.pack (f : MC) : BitVec 40 := (f.at14 ++ f.ch ++ f.a ++ f.b ++ f.l ++ f.bar : BitVec 40)

/-- The fields that the low 40 bits of a slot hold in format MC. -/
def MC.unpack (w : BitVec 40) : MC :=
  ⟨w.extractLsb' 26 14, w.extractLsb' 24 2, w.extractLsb' 18 6, w.extractLsb' 12 6, w.extractLsb' 6 6, w.extractLsb' 0 6⟩

/-- The low 40 bits of a slot in format MS. -/
def MS.pack (f : MS) : BitVec 40 := (f.lat ++ f.sz ++ 0#5 ++ f.d ++ f.a ++ f.b ++ f.c ++ f.sub : BitVec 40)

/-- The fields that the low 40 bits of a slot hold in format MS. -/
def MS.unpack (w : BitVec 40) : MS :=
  ⟨w.extractLsb' 37 3, w.extractLsb' 35 2, w.extractLsb' 24 6, w.extractLsb' 18 6, w.extractLsb' 12 6, w.extractLsb' 6 6, w.extractLsb' 0 6⟩

/-- The low 40 bits of a slot in format MH. -/
def MH.pack (f : MH) : BitVec 40 := (f.lat ++ 0#1 ++ f.ch ++ f.v ++ 0#19 : BitVec 40)

/-- The fields that the low 40 bits of a slot hold in format MH. -/
def MH.unpack (w : BitVec 40) : MH :=
  ⟨w.extractLsb' 37 3, w.extractLsb' 28 8, w.extractLsb' 19 9⟩

/-- The low 40 bits of a slot in format MJ. -/
def MJ.pack (f : MJ) : BitVec 40 := (f.kind ++ f.a ++ f.b ++ f.c ++ 0#18 : BitVec 40)

/-- The fields that the low 40 bits of a slot hold in format MJ. -/
def MJ.unpack (w : BitVec 40) : MJ :=
  ⟨w.extractLsb' 36 4, w.extractLsb' 30 6, w.extractLsb' 24 6, w.extractLsb' 18 6⟩

/-- The slot classes (R69). -/
inductive SlotClass where
  | s | v | x | m
  deriving DecidableEq, Repr

/-- How an operation is encoded: class, opcode, field bits, the bits its entry names, the value of the bits it fixes, and
whether its codes are legal. -/
structure Encoding where
  cls : SlotClass
  op : BitVec 8
  bits : BitVec 40
  used : BitVec 40
  fixed : BitVec 40
  codes : Bool

/-- The encoding of a slot operation (R86 to R89); none for NOP, a bundle and the events, which are no slot encodings of
one class. Field a of LOOP and REP counts as used, and so as not reserved, whatever imm12 is (log 92). -/
def Instr.encoding : Instr → Option Encoding
  | .bundleIssue .. => none
  | .nop => none
  | .sadd f => some ⟨.s, 0x01, f.pack, 0xFFFFC0, 0x0, true⟩
  | .ssub f => some ⟨.s, 0x02, f.pack, 0xFFFFC0, 0x0, true⟩
  | .smul f => some ⟨.s, 0x03, f.pack, 0xFFFFC0, 0x0, true⟩
  | .smulh f => some ⟨.s, 0x04, f.pack, 0xFFFFC0, 0x0, true⟩
  | .smulhu f => some ⟨.s, 0x05, f.pack, 0xFFFFC0, 0x0, true⟩
  | .sdiv f => some ⟨.s, 0x06, f.pack, 0x800FFFFC0, 0x0, true⟩
  | .sdivu f => some ⟨.s, 0x07, f.pack, 0x800FFFFC0, 0x0, true⟩
  | .srem f => some ⟨.s, 0x08, f.pack, 0x800FFFFC0, 0x0, true⟩
  | .sremu f => some ⟨.s, 0x09, f.pack, 0x800FFFFC0, 0x0, true⟩
  | .sand f => some ⟨.s, 0x0A, f.pack, 0xFFFFC0, 0x0, true⟩
  | .sor f => some ⟨.s, 0x0B, f.pack, 0xFFFFC0, 0x0, true⟩
  | .sxor f => some ⟨.s, 0x0C, f.pack, 0xFFFFC0, 0x0, true⟩
  | .sshl f => some ⟨.s, 0x0D, f.pack, 0xFFFFC0, 0x0, true⟩
  | .sshr f => some ⟨.s, 0x0E, f.pack, 0xFFFFC0, 0x0, true⟩
  | .ssra f => some ⟨.s, 0x0F, f.pack, 0xFFFFC0, 0x0, true⟩
  | .saddi f => some ⟨.s, 0x10, f.pack, 0xFFFFFFFFF, 0x0, true⟩
  | .sandi f => some ⟨.s, 0x11, f.pack, 0xFFFFFFFFF, 0x0, true⟩
  | .sori f => some ⟨.s, 0x12, f.pack, 0xFFFFFFFFF, 0x0, true⟩
  | .sxori f => some ⟨.s, 0x13, f.pack, 0xFFFFFFFFF, 0x0, true⟩
  | .sshli f => some ⟨.s, 0x14, f.pack, 0xFFF00003F, 0x0, true⟩
  | .sshri f => some ⟨.s, 0x15, f.pack, 0xFFF00003F, 0x0, true⟩
  | .ssrai f => some ⟨.s, 0x16, f.pack, 0xFFF00003F, 0x0, true⟩
  | .sli f => some ⟨.s, 0x17, f.pack, 0xFC0FFFFFF, 0x0, true⟩
  | .slih f => some ⟨.s, 0x18, f.pack, 0x3FFF00FFFF, 0x0, true⟩
  | .sclz f => some ⟨.s, 0x19, f.pack, 0xFFF000, 0x0, true⟩
  | .spop f => some ⟨.s, 0x1A, f.pack, 0xFFF000, 0x0, true⟩
  | .smin f => some ⟨.s, 0x1B, f.pack, 0xFFFFC0, 0x0, true⟩
  | .smax f => some ⟨.s, 0x1C, f.pack, 0xFFFFC0, 0x0, true⟩
  | .sminu f => some ⟨.s, 0x1D, f.pack, 0xFFFFC0, 0x0, true⟩
  | .smaxu f => some ⟨.s, 0x1E, f.pack, 0xFFFFC0, 0x0, true⟩
  | .scmp f => some ⟨.s, 0x1F, f.pack, 0xF000FFFFC0, 0x0, f.sub.toNat < 10⟩
  | .ssel f => some ⟨.s, 0x20, f.pack, 0xFFFFFF, 0x0, true⟩
  | .sextU f => some ⟨.s, 0x29, f.pack, 0xFFFFFF, 0x0, true⟩
  | .sextS f => some ⟨.s, 0x29, f.pack, 0xFFFFFF, 0x1000000000, true⟩
  | .sins f => some ⟨.s, 0x2A, f.pack, 0xFFFFFF, 0x0, true⟩
  | .sfadd f => some ⟨.s, 0x21, f.pack, 0x800FFFFC0, 0x0, true⟩
  | .sfsub f => some ⟨.s, 0x22, f.pack, 0x800FFFFC0, 0x0, true⟩
  | .sfmul f => some ⟨.s, 0x23, f.pack, 0x800FFFFC0, 0x0, true⟩
  | .sfma f => some ⟨.s, 0x24, f.pack, 0x800FFFFFF, 0x0, true⟩
  | .sfcmp f => some ⟨.s, 0x25, f.pack, 0xF800FFFFC0, 0x0, (f.sub.toNat < 6 || f.sub.toNat = 10 || f.sub.toNat = 11)⟩
  | .sfcvtF32I64 f => some ⟨.s, 0x26, f.pack, 0x800FFF007, 0x0, f.c.toNat < 6⟩
  | .sfcvtF32U64 f => some ⟨.s, 0x26, f.pack, 0x800FFF007, 0x1000000000, f.c.toNat < 6⟩
  | .sfcvtI64F32 f => some ⟨.s, 0x26, f.pack, 0x800FFF007, 0x2000000000, f.c.toNat < 6⟩
  | .sfcvtU64F32 f => some ⟨.s, 0x26, f.pack, 0x800FFF007, 0x3000000000, f.c.toNat < 6⟩
  | .sfcvtF32Bf16 f => some ⟨.s, 0x26, f.pack, 0x800FFF007, 0x4000000000, f.c.toNat < 6⟩
  | .sfcvtF32F16 f => some ⟨.s, 0x26, f.pack, 0x800FFF007, 0x5000000000, f.c.toNat < 6⟩
  | .sfcvtBf16F32 f => some ⟨.s, 0x26, f.pack, 0x800FFF000, 0x6000000000, true⟩
  | .sfcvtF16F32 f => some ⟨.s, 0x26, f.pack, 0x800FFF000, 0x7000000000, true⟩
  | .sfcvtF32Fx32 f => some ⟨.s, 0x26, f.pack, 0x800FFF000, 0x8000000000, true⟩
  | .sfcvtFx32F32 f => some ⟨.s, 0x26, f.pack, 0x800FFF007, 0x9000000000, f.c.toNat < 6⟩
  | .sfmin f => some ⟨.s, 0x27, f.pack, 0x800FFFFC0, 0x0, true⟩
  | .sfmax f => some ⟨.s, 0x28, f.pack, 0x800FFFFC0, 0x0, true⟩
  | .br f => some ⟨.s, 0x30, f.pack, 0xFFFFFF, 0x0, true⟩
  | .brc f => some ⟨.s, 0x31, f.pack, 0xFFFFFFFFFF, 0x0, f.cond.toNat < 10⟩
  | .bri f => some ⟨.s, 0x32, f.pack, 0xFC0000000, 0x0, true⟩
  | .call f => some ⟨.s, 0x33, f.pack, 0xFFFFFF, 0x0, true⟩
  | .ret f => some ⟨.s, 0x34, f.pack, 0x0, 0x0, true⟩
  | .loop f => some ⟨.s, 0x35, f.pack, 0xFFFFFFFFF, 0x0, !(f.imm12 = 0xFFF && f.a = 0)⟩
  | .loopp f => some ⟨.s, 0x36, f.pack, 0x7FFFFFFFFF, 0x0, f.a != 0⟩
  | .lexit f => some ⟨.s, 0x37, f.pack, 0xFC01FFFFF, 0x0, true⟩
  | .rep f => some ⟨.s, 0x38, f.pack, 0xFFFFFFFFFF, 0x0, (f.mask != 0 && !(f.imm12 = 0xFFF && f.a = 0))⟩
  | .spawn f => some ⟨.s, 0x39, f.pack, 0x3FC03FFFFF, 0x0, true⟩
  | .yield f => some ⟨.s, 0x3A, f.pack, 0xF03FFC0000, 0x0, true⟩
  | .chk f => some ⟨.s, 0x3B, f.pack, 0xFFC0FFFFFF, 0x0, (f.cond = 0 || (f.cond = 1 && f.a.toNat < 16))⟩
  | .chkm f => some ⟨.s, 0x3C, f.pack, 0xFFC7FFFFFF, 0x0, true⟩
  | .trap f => some ⟨.s, 0x3D, f.pack, 0xFFF, 0x0, true⟩
  | .rett f => some ⟨.s, 0x3E, f.pack, 0x0, 0x0, true⟩
  | .sysrd f => some ⟨.s, 0x3F, f.pack, 0xFC0FFF000, 0x0, true⟩
  | .syswr f => some ⟨.s, 0x40, f.pack, 0x3FFFF000, 0x0, true⟩
  | .setfmt f => some ⟨.s, 0x41, f.pack, 0x3F000000, 0x0, true⟩
  | .settb f => some ⟨.s, 0x42, f.pack, 0xFFFFC0000, 0x0, true⟩
  | .twait f => some ⟨.s, 0x43, f.pack, 0xFC0000000, 0x0, true⟩
  | .trealign f => some ⟨.s, 0x44, f.pack, 0x7C0000, 0x0, true⟩
  | .glchk f => some ⟨.s, 0x45, f.pack, 0x3FFFF000, 0x0, (0x080 ≤ f.sysreg.toNat && f.sysreg.toNat ≤ 0x083)⟩
  | .halt f => some ⟨.s, 0x46, f.pack, 0x0, 0x0, true⟩
  | .flclr f => some ⟨.s, 0x47, f.pack, 0x0, 0x0, true⟩
  | .vaddF32 f => some ⟨.v, 0x01, f.pack, 0xFFFFFFFFE0, 0x0, f.rm.toNat < 6⟩
  | .vaddBf16 f => some ⟨.v, 0x02, f.pack, 0xFFFFFFFFE0, 0x0, f.rm.toNat < 6⟩
  | .vaddF16 f => some ⟨.v, 0x03, f.pack, 0xFFFFFFFFE0, 0x0, f.rm.toNat < 6⟩
  | .vsubF32 f => some ⟨.v, 0x04, f.pack, 0xFFFFFFFFE0, 0x0, f.rm.toNat < 6⟩
  | .vsubBf16 f => some ⟨.v, 0x05, f.pack, 0xFFFFFFFFE0, 0x0, f.rm.toNat < 6⟩
  | .vsubF16 f => some ⟨.v, 0x06, f.pack, 0xFFFFFFFFE0, 0x0, f.rm.toNat < 6⟩
  | .vmulF32 f => some ⟨.v, 0x07, f.pack, 0xFFFFFFFFE0, 0x0, f.rm.toNat < 6⟩
  | .vmulBf16 f => some ⟨.v, 0x08, f.pack, 0xFFFFFFFFE0, 0x0, f.rm.toNat < 6⟩
  | .vmulF16 f => some ⟨.v, 0x09, f.pack, 0xFFFFFFFFE0, 0x0, f.rm.toNat < 6⟩
  | .vfmaF32 f => some ⟨.v, 0x0A, f.pack, 0xFFFFFFFFE0, 0x0, f.rm.toNat < 6⟩
  | .vfmaBf16 f => some ⟨.v, 0x0B, f.pack, 0xFFFFFFFFE0, 0x0, f.rm.toNat < 6⟩
  | .vfmaF16 f => some ⟨.v, 0x0C, f.pack, 0xFFFFFFFFE0, 0x0, f.rm.toNat < 6⟩
  | .vfmsF32 f => some ⟨.v, 0x0D, f.pack, 0xFFFFFFFFE0, 0x0, f.rm.toNat < 6⟩
  | .vfmsBf16 f => some ⟨.v, 0x0E, f.pack, 0xFFFFFFFFE0, 0x0, f.rm.toNat < 6⟩
  | .vfmsF16 f => some ⟨.v, 0x0F, f.pack, 0xFFFFFFFFE0, 0x0, f.rm.toNat < 6⟩
  | .vminF32 f => some ⟨.v, 0x10, f.pack, 0xF8FFFFFFE0, 0x0, true⟩
  | .vminBf16 f => some ⟨.v, 0x11, f.pack, 0xF8FFFFFFE0, 0x0, true⟩
  | .vminF16 f => some ⟨.v, 0x12, f.pack, 0xF8FFFFFFE0, 0x0, true⟩
  | .vmaxF32 f => some ⟨.v, 0x13, f.pack, 0xF8FFFFFFE0, 0x0, true⟩
  | .vmaxBf16 f => some ⟨.v, 0x14, f.pack, 0xF8FFFFFFE0, 0x0, true⟩
  | .vmaxF16 f => some ⟨.v, 0x15, f.pack, 0xF8FFFFFFE0, 0x0, true⟩
  | .vabsF32 f => some ⟨.v, 0x16, f.pack, 0xF0FFFFC000, 0x0, true⟩
  | .vabsBf16 f => some ⟨.v, 0x17, f.pack, 0xF0FFFFC000, 0x0, true⟩
  | .vabsF16 f => some ⟨.v, 0x18, f.pack, 0xF0FFFFC000, 0x0, true⟩
  | .vnegF32 f => some ⟨.v, 0x19, f.pack, 0xF0FFFFC000, 0x0, true⟩
  | .vnegBf16 f => some ⟨.v, 0x1A, f.pack, 0xF0FFFFC000, 0x0, true⟩
  | .vnegF16 f => some ⟨.v, 0x1B, f.pack, 0xF0FFFFC000, 0x0, true⟩
  | .vcmpF32 f => some ⟨.v, 0x1C, f.pack, 0xF807FFFFEF, 0x0, (f.aux.toNat < 6 || f.aux.toNat = 10 || f.aux.toNat = 11)⟩
  | .vcmpBf16 f => some ⟨.v, 0x1D, f.pack, 0xF807FFFFEF, 0x0, (f.aux.toNat < 6 || f.aux.toNat = 10 || f.aux.toNat = 11)⟩
  | .vcmpF16 f => some ⟨.v, 0x1E, f.pack, 0xF807FFFFEF, 0x0, (f.aux.toNat < 6 || f.aux.toNat = 10 || f.aux.toNat = 11)⟩
  | .vclampF32 f => some ⟨.v, 0x1F, f.pack, 0xF8FFFFFFE0, 0x0, true⟩
  | .vclampBf16 f => some ⟨.v, 0x20, f.pack, 0xF8FFFFFFE0, 0x0, true⟩
  | .vclampF16 f => some ⟨.v, 0x21, f.pack, 0xF8FFFFFFE0, 0x0, true⟩
  | .vsel f => some ⟨.v, 0x22, f.pack, 0xF0FFFFFFEF, 0x0, true⟩
  | .viaddI32 f => some ⟨.v, 0x23, f.pack, 0xF0FFFFFFE0, 0x0, true⟩
  | .viaddI16 f => some ⟨.v, 0x24, f.pack, 0xF0FFFFFFE0, 0x0, true⟩
  | .visubI32 f => some ⟨.v, 0x25, f.pack, 0xF0FFFFFFE0, 0x0, true⟩
  | .visubI16 f => some ⟨.v, 0x26, f.pack, 0xF0FFFFFFE0, 0x0, true⟩
  | .vimulI32 f => some ⟨.v, 0x27, f.pack, 0xF0FFFFFFE0, 0x0, true⟩
  | .vimulI16 f => some ⟨.v, 0x28, f.pack, 0xF0FFFFFFE0, 0x0, true⟩
  | .viminI32 f => some ⟨.v, 0x29, f.pack, 0xF0FFFFFFE0, 0x0, true⟩
  | .viminI16 f => some ⟨.v, 0x2A, f.pack, 0xF0FFFFFFE0, 0x0, true⟩
  | .vimaxI32 f => some ⟨.v, 0x2B, f.pack, 0xF0FFFFFFE0, 0x0, true⟩
  | .vimaxI16 f => some ⟨.v, 0x2C, f.pack, 0xF0FFFFFFE0, 0x0, true⟩
  | .vicmpI32 f => some ⟨.v, 0x2D, f.pack, 0xF007FFFFEF, 0x0, f.aux.toNat < 10⟩
  | .vicmpI16 f => some ⟨.v, 0x2E, f.pack, 0xF007FFFFEF, 0x0, f.aux.toNat < 10⟩
  | .vand f => some ⟨.v, 0x2F, f.pack, 0xF0FFFFFFE0, 0x0, true⟩
  | .vor f => some ⟨.v, 0x30, f.pack, 0xF0FFFFFFE0, 0x0, true⟩
  | .vxor f => some ⟨.v, 0x31, f.pack, 0xF0FFFFFFE0, 0x0, true⟩
  | .vshl f => some ⟨.v, 0x32, f.pack, 0xF0FFFFFFE0, 0x0, true⟩
  | .vshr f => some ⟨.v, 0x33, f.pack, 0xF0FFFFFFE0, 0x0, true⟩
  | .vsra f => some ⟨.v, 0x34, f.pack, 0xF0FFFFFFE0, 0x0, true⟩
  | .vfxadd f => some ⟨.v, 0x35, f.pack, 0xF8FFFFFFE0, 0x0, true⟩
  | .vfxsub f => some ⟨.v, 0x36, f.pack, 0xF8FFFFFFE0, 0x0, true⟩
  | .vqfx f => some ⟨.v, 0x37, f.pack, 0xF8FFFFC000, 0x0, true⟩
  | .vfxf f => some ⟨.v, 0x38, f.pack, 0xFFFFFFC000, 0x0, f.rm.toNat < 6⟩
  | .vcvtBf16F32 f => some ⟨.v, 0x39, f.pack, 0xFFFFFFC010, 0x0, f.rm.toNat < 6⟩
  | .vcvtF16F32 f => some ⟨.v, 0x39, f.pack, 0xFFFFFFC010, 0x1, f.rm.toNat < 6⟩
  | .vcvtF32Bf16 f => some ⟨.v, 0x39, f.pack, 0xF8FFFFC010, 0x2, true⟩
  | .vcvtF32F16 f => some ⟨.v, 0x39, f.pack, 0xF8FFFFC010, 0x3, true⟩
  | .vcvtI32F32 f => some ⟨.v, 0x39, f.pack, 0xFFFFFFC000, 0x4, f.rm.toNat < 6⟩
  | .vcvtF32I32 f => some ⟨.v, 0x39, f.pack, 0xFFFFFFC000, 0x5, f.rm.toNat < 6⟩
  | .vcvtI16F32 f => some ⟨.v, 0x39, f.pack, 0xFFFFFFC010, 0x6, f.rm.toNat < 6⟩
  | .vcvtF32I16 f => some ⟨.v, 0x39, f.pack, 0xF8FFFFC010, 0x7, true⟩
  | .vsplit3 f => some ⟨.v, 0x3A, f.pack, 0xF8FFFFC010, 0x0, true⟩
  | .vmov f => some ⟨.v, 0x3B, f.pack, 0xF0FFFFC000, 0x0, true⟩
  | .vli f => some ⟨.v, 0x3C, f.pack, 0xF0FFFFFFFF, 0x0, true⟩
  | .vidx f => some ⟨.v, 0x41, f.pack, 0xF0FFFFFFFF, 0x0, true⟩
  | .vbcastScalar f => some ⟨.v, 0x3D, f.pack, 0xF0FF8FC000, 0x0, true⟩
  | .vbcastLane f => some ⟨.v, 0x3D, f.pack, 0xF0FFFFC7E0, 0x1, true⟩
  | .vextr f => some ⟨.v, 0x3E, f.pack, 0x1FFFC7E1, 0x0, true⟩
  | .vslide f => some ⟨.v, 0x3F, f.pack, 0xF0FFFFC7E0, 0x0, true⟩
  | .vperm f => some ⟨.v, 0x40, f.pack, 0xF0FFFFFFE0, 0x0, true⟩
  | .vsumo f => some ⟨.v, 0x42, f.pack, 0xFFFFFFC000, 0x0, f.rm.toNat < 6⟩
  | .vsumxXa f => some ⟨.v, 0x43, f.pack, 0xFFFFFFC000, 0x0, f.rm.toNat < 6⟩
  | .vsumxF32 f => some ⟨.v, 0x43, f.pack, 0xFFFFFFC000, 0x1, f.rm.toNat < 6⟩
  | .vmaxr f => some ⟨.v, 0x44, f.pack, 0xF8FFFFC007, 0x0, true⟩
  | .vminr f => some ⟨.v, 0x45, f.pack, 0xF8FFFFC007, 0x0, true⟩
  | .vstatu f => some ⟨.v, 0x46, f.pack, 0xF8FFFFC000, 0x0, true⟩
  | .vstatw f => some ⟨.v, 0x47, f.pack, 0xF8FFFFFFE0, 0x0, true⟩
  | .vstatm f => some ⟨.v, 0x48, f.pack, 0xF8FFFFFFE0, 0x0, true⟩
  | .vstath f => some ⟨.v, 0x49, f.pack, 0xF8FFFFC000, 0x0, true⟩
  | .vstateClr f => some ⟨.v, 0x4A, f.pack, 0xF8FF800000, 0x0, true⟩
  | .vstateVar f => some ⟨.v, 0x4A, f.pack, 0xF8FFFFC000, 0x1, true⟩
  | .vstateSvar f => some ⟨.v, 0x4A, f.pack, 0xF8FFFFC000, 0x2, true⟩
  | .vstateRstd f => some ⟨.v, 0x4A, f.pack, 0xF8FFFFC000, 0x3, true⟩
  | .vglint f => some ⟨.v, 0x4B, f.pack, 0xF001FFC000, 0x0, true⟩
  | .vrngBits f => some ⟨.v, 0x4C, f.pack, 0xF0FF8FC7E0, 0x0, true⟩
  | .vrngUnif f => some ⟨.v, 0x4C, f.pack, 0xF0FF8FC7E0, 0x1, true⟩
  | .vamax f => some ⟨.v, 0x4D, f.pack, 0xF8007FC7E0, 0x0, true⟩
  | .mand f => some ⟨.v, 0x4E, f.pack, 0xF00783C1E0, 0x0, true⟩
  | .mor f => some ⟨.v, 0x4F, f.pack, 0xF00783C1E0, 0x0, true⟩
  | .mxor f => some ⟨.v, 0x50, f.pack, 0xF00783C1E0, 0x0, true⟩
  | .mnot f => some ⟨.v, 0x51, f.pack, 0xF00783C000, 0x0, true⟩
  | .mpop f => some ⟨.v, 0x52, f.pack, 0xF01F83C000, 0x0, true⟩
  | .mfirst f => some ⟨.v, 0x53, f.pack, 0xF01F83C000, 0x0, true⟩
  | .vxadd f => some ⟨.v, 0x54, f.pack, 0xF0FFFFFFE0, 0x0, true⟩
  | .vxcvtXaF32 f => some ⟨.v, 0x55, f.pack, 0xF8FFFFC006, 0x0, true⟩
  | .vxcvtF32Xa f => some ⟨.v, 0x55, f.pack, 0xFFFFFFC006, 0x1, f.rm.toNat < 6⟩
  | .xexp2 f => some ⟨.x, 0x01, f.pack, 0xFFFFFFC000, 0x0, f.rm.toNat < 6⟩
  | .xlog2 f => some ⟨.x, 0x02, f.pack, 0xFFFFFFC000, 0x0, f.rm.toNat < 6⟩
  | .xrcp f => some ⟨.x, 0x03, f.pack, 0xFFFFFFC000, 0x0, f.rm.toNat < 6⟩
  | .xrsqrt f => some ⟨.x, 0x04, f.pack, 0xFFFFFFC000, 0x0, f.rm.toNat < 6⟩
  | .xsqrt f => some ⟨.x, 0x05, f.pack, 0xFFFFFFC000, 0x0, f.rm.toNat < 6⟩
  | .xtanh f => some ⟨.x, 0x06, f.pack, 0xFFFFFFC000, 0x0, f.rm.toNat < 6⟩
  | .xsigm f => some ⟨.x, 0x07, f.pack, 0xFFFFFFC000, 0x0, f.rm.toNat < 6⟩
  | .xsin f => some ⟨.x, 0x08, f.pack, 0xFFFFFFC000, 0x0, f.rm.toNat < 6⟩
  | .xcos f => some ⟨.x, 0x09, f.pack, 0xFFFFFFC000, 0x0, f.rm.toNat < 6⟩
  | .xqbx f => some ⟨.x, 0x0A, f.pack, 0xF8FFFFC7E0, 0x0, true⟩
  | .xdqbx f => some ⟨.x, 0x0B, f.pack, 0xFFFFFFC7E0, 0x0, f.rm.toNat < 6⟩
  | .xscale f => some ⟨.x, 0x0C, f.pack, 0x1F8FC000, 0x0, true⟩
  | .mcall f => some ⟨.x, 0x10, f.pack, 0xFFFFFF0000, 0x0, true⟩
  | .mdrain f => some ⟨.x, 0x11, f.pack, 0xFFFFFFFFF7, 0x0, true⟩
  | .mdrainAo f => some ⟨.x, 0x12, f.pack, 0xFFFFFFFFF7, 0x0, true⟩
  | .mdrainAu f => some ⟨.x, 0x13, f.pack, 0xFFFFFFFFF7, 0x0, true⟩
  | .mdrainN f => some ⟨.x, 0x14, f.pack, 0xFFFFFFFFF7, 0x0, true⟩
  | .mzero f => some ⟨.x, 0x15, f.pack, 0xFFFFFFFFC0, 0x0, true⟩
  | .mpset f => some ⟨.x, 0x16, f.pack, 0x38FC000, 0x0, true⟩
  | .mucld f => some ⟨.x, 0x17, f.pack, 0xFFFFFFF000, 0x0, true⟩
  | .mbld f => some ⟨.x, 0x18, f.pack, 0xFFFFFFF000, 0x0, true⟩
  | .thset f => some ⟨.x, 0x19, f.pack, 0x1F8FC7E0, 0x0, true⟩
  | .mchks f => some ⟨.x, 0x1A, f.pack, 0x1F800000, 0x0, true⟩
  | .ld8 f => some ⟨.m, 0x01, f.pack, 0xE1FFFFFFFF, 0x0, true⟩
  | .ld16 f => some ⟨.m, 0x02, f.pack, 0xE1FFFFFFFF, 0x0, true⟩
  | .ld32 f => some ⟨.m, 0x03, f.pack, 0xE1FFFFFFFF, 0x0, true⟩
  | .ld64 f => some ⟨.m, 0x04, f.pack, 0xE1FFFFFFFF, 0x0, true⟩
  | .st8 f => some ⟨.m, 0x05, f.pack, 0x1FFFFFFFF, 0x0, true⟩
  | .st16 f => some ⟨.m, 0x06, f.pack, 0x1FFFFFFFF, 0x0, true⟩
  | .st32 f => some ⟨.m, 0x07, f.pack, 0x1FFFFFFFF, 0x0, true⟩
  | .st64 f => some ⟨.m, 0x08, f.pack, 0x1FFFFFFFF, 0x0, true⟩
  | .vld f => some ⟨.m, 0x09, f.pack, 0xEFFFFFFFFF, 0x0, true⟩
  | .vst f => some ⟨.m, 0x0A, f.pack, 0xFFFFFFFFF, 0x0, true⟩
  | .vldt f => some ⟨.m, 0x0B, f.pack, 0xEFFFFFFFFF, 0x0, true⟩
  | .vldb f => some ⟨.m, 0x0C, f.pack, 0xEFFFFFFFFF, 0x0, true⟩
  | .vgath f => some ⟨.m, 0x0D, f.pack, 0xEFFFFFFFFF, 0x0, true⟩
  | .vscat f => some ⟨.m, 0x0E, f.pack, 0xFFFFFFFFF, 0x0, true⟩
  | .probe f => some ⟨.m, 0x0F, f.pack, 0xE1FFFFFFFF, 0x0, true⟩
  | .pref f => some ⟨.m, 0x10, f.pack, 0x7FFFFFF, 0x0, true⟩
  | .cpygs f => some ⟨.m, 0x11, f.pack, 0xFFFFFFFFFF, 0x0, true⟩
  | .cpysg f => some ⟨.m, 0x12, f.pack, 0xFFFFFFFFFF, 0x0, true⟩
  | .cpyss f => some ⟨.m, 0x13, f.pack, 0xFFFFFFFFFF, 0x0, true⟩
  | .cpyb f => some ⟨.m, 0x14, f.pack, 0xFFFFFFFFFF, 0x0, true⟩
  | .drainl f => some ⟨.m, 0x15, f.pack, 0x0, 0x0, true⟩
  | .drainr f => some ⟨.m, 0x16, f.pack, 0x3F, 0x0, f.sub.toNat < 5⟩
  | .drainc f => some ⟨.m, 0x17, f.pack, 0x3F, 0x0, f.sub.toNat < 4⟩
  | .barinit f => some ⟨.m, 0x18, f.pack, 0xFFF000, 0x0, true⟩
  | .barinitTree f => some ⟨.m, 0x18, f.pack, 0xFFF000, 0x1, true⟩
  | .bararv f => some ⟨.m, 0x19, f.pack, 0xFFF000, 0x0, true⟩
  | .barwait f => some ⟨.m, 0x1A, f.pack, 0xFFF000, 0x0, true⟩
  | .aadd f => some ⟨.m, 0x1B, f.pack, 0xF83FFFF000, 0x0, f.sz.toNat < 2⟩
  | .amin f => some ⟨.m, 0x1C, f.pack, 0xF83FFFF001, 0x0, f.sz.toNat < 2⟩
  | .amax f => some ⟨.m, 0x1D, f.pack, 0xF83FFFF001, 0x0, f.sz.toNat < 2⟩
  | .aand f => some ⟨.m, 0x1E, f.pack, 0xF83FFFF000, 0x0, f.sz.toNat < 2⟩
  | .aor f => some ⟨.m, 0x1F, f.pack, 0xF83FFFF000, 0x0, f.sz.toNat < 2⟩
  | .axor f => some ⟨.m, 0x20, f.pack, 0xF83FFFF000, 0x0, f.sz.toNat < 2⟩
  | .aswp f => some ⟨.m, 0x21, f.pack, 0xF83FFFF000, 0x0, f.sz.toNat < 2⟩
  | .acas f => some ⟨.m, 0x22, f.pack, 0xF83FFFFFC0, 0x0, f.sz.toNat < 2⟩
  | .afaddo f => some ⟨.m, 0x23, f.pack, 0xE03FFFF000, 0x0, true⟩
  | .afaddu f => some ⟨.m, 0x24, f.pack, 0xE03FFFF000, 0x0, true⟩
  | .axadd f => some ⟨.m, 0x25, f.pack, 0xE03FFFFFC3, 0x1000000000, true⟩
  | .astat f => some ⟨.m, 0x2E, f.pack, 0xE03FFFFFC0, 0x1000000000, true⟩
  | .astatO f => some ⟨.m, 0x2E, f.pack, 0xE03FFFFFC0, 0x1000000001, true⟩
  | .waitv f => some ⟨.m, 0x26, f.pack, 0x1800FFF00F, 0x0, (f.sz.toNat < 2 && f.sub.toNat < 10)⟩
  | .chsend f => some ⟨.m, 0x27, f.pack, 0xFFFF80000, 0x0, true⟩
  | .chrecv f => some ⟨.m, 0x28, f.pack, 0xEFFFF80000, 0x0, true⟩
  | .srcmdXadd f => some ⟨.m, 0x29, f.pack, 0xFFFFC0, 0x0, true⟩
  | .srcmdFaddo f => some ⟨.m, 0x29, f.pack, 0xFFFFC0, 0x1, true⟩
  | .srcmdFaddu f => some ⟨.m, 0x29, f.pack, 0xFFFFC0, 0x2, true⟩
  | .srcmdMax f => some ⟨.m, 0x29, f.pack, 0xFFFFC0, 0x3, true⟩
  | .srcmdMin f => some ⟨.m, 0x29, f.pack, 0xFFFFC0, 0x4, true⟩
  | .srcmdStato f => some ⟨.m, 0x29, f.pack, 0xFFFFC0, 0x5, true⟩
  | .srcmdStatu f => some ⟨.m, 0x29, f.pack, 0xFFFFC0, 0x6, true⟩
  | .srcmdFwd f => some ⟨.m, 0x29, f.pack, 0xFFFFC0, 0x7, true⟩
  | .srcmdBx4d f => some ⟨.m, 0x29, f.pack, 0xFFFFC0, 0x8, true⟩
  | .jemit f => some ⟨.m, 0x2A, f.pack, 0xFFFFFC0000, 0x0, f.kind.toNat < 3⟩
  | .jcmp f => some ⟨.m, 0x2B, f.pack, 0xFFFFFC0000, 0x0, f.kind.toNat < 4⟩
  | .jmark f => some ⟨.m, 0x2C, f.pack, 0xFFF000000, 0x3000000000, true⟩
  | .jtrunc f => some ⟨.m, 0x2D, f.pack, 0xFC0000000, 0x0, true⟩
  | .resultLand .. => none
  | .loadDataArrival .. => none
  | .loadPromiseMiss .. => none
  | .storePerform .. => none
  | .lateStoreFault .. => none
  | .trapEntry .. => none
  | .timerInterrupt .. => none
  | .latchedLoadFault .. => none
  | .looppRollback .. => none
  | .engineCommandStart .. => none
  | .mxeRoutineStart .. => none
  | .mxeRoutineOverrun .. => none
  | .engineCommandEnd .. => none
  | .tileRowArrival .. => none
  | .copyChunkComplete .. => none
  | .copyComplete .. => none
  | .copySuspend .. => none
  | .probeFillComplete .. => none
  | .syeRequestArrival .. => none
  | .barwaitReport .. => none
  | .waitvWake .. => none
  | .twaitRelease .. => none
  | .trealignRelease .. => none
  | .channelElementArrival .. => none
  | .chrecvWake .. => none
  | .tlbWalkComplete .. => none
  | .launchStart .. => none
  | .taskStart .. => none
  | .launchDone .. => none
  | .sliceReset .. => none
  | .arbiterIdleGrant .. => none
  | .queueSwitchComplete .. => none
  | .deadlineFault .. => none
  | .deadlineAbort .. => none
  | .launch .. => none
  | .detlevel .. => none
  | .qset .. => none
  | .quiesce .. => none
  | .quiesceCutComplete .. => none
  | .quiesceTimeout .. => none
  | .restore .. => none
  | .resume .. => none
  | .abort .. => none
  | .badPacket .. => none
  | .ringEnableWrite .. => none
  | .cmdtailWrite .. => none
  | .cplheadWrite .. => none
  | .registerWrite .. => none
  | .tlbInvalidate .. => none
  | .tlbInvalidateComplete => none
  | .jpcomWrite .. => none
  | .mcurWrite .. => none
  | .dutyWrite .. => none
  | .pwrcapWrite .. => none
  | .tkoWrite .. => none
  | .pageHandover .. => none
  | .rangeMigration .. => none
  | .layerMapOut .. => none
  | .refreshRateEval .. => none
  | .heartbeat .. => none
  | .heartbeatTimeout .. => none
  | .retrainRequest .. => none
  | .heatMapPublish => none
  | .sensorSample .. => none
  | .powerCapEval .. => none
  | .flitReceive .. => none
  | .retryBeat .. => none
  | .ackBeat .. => none
  | .pauseBeat .. => none
  | .pauseExpiry .. => none
  | .routeTableWrite .. => none
  | .noRouteTimeout .. => none
  | .timeSyncMessage .. => none
  | .srdStepEnqueue .. => none
  | .srdStepBegin .. => none
  | .srdStepComplete .. => none
  | .collectiveFlitArrival .. => none
  | .collectiveWaitTimeout .. => none
  | .journalRecordReceive .. => none
  | .journalAck .. => none
  | .journalResendTimeout => none
  | .emissionPerform => none
  | .partnerFailureTimeout => none
  | .spareReseedComplete => none
  | .writerFailureTimeout => none
  | .writerDownReport => none
  | .vfFlr .. => none
  | .flrDrainComplete .. => none
  | .flrScrubComplete .. => none
  | .containmentFlr .. => none
  | .moduleReset => none
  | .powerOn => none
  | .coreFatalFault .. => none
  | .hostLinkRequest .. => none
  | .imageWrite .. => none
  | .attestationRequest .. => none
  | .softError .. => none
  | .statedRunOverrun .. => none
  | .dataRateRetrainComplete .. => none
  | .refreshIntervalBoundary .. => none
  | .mirrorPairingWrite .. => none
  | .perstDeassertion => none
  | .powerInterruption => none

/-- A slot operation is well formed when every bit outside the fields its entry names has the value the entry fixes, zero for
a reserved bit (R85), and its codes are legal (R90). -/
def Instr.wfSlot (i : Instr) (c : SlotClass) : Bool :=
  match i with
  | .nop => true
  | i =>
    match i.encoding with
    | some e => e.cls = c && (e.bits &&& ~~~e.used) = e.fixed && e.codes
    | none => false

/-- The branch-class opcodes of R89. -/
def Instr.isBranch : Instr → Bool
  | .br _ | .brc _ | .bri _ | .call _ | .ret _ | .loop _ | .loopp _ | .lexit _ | .chk _ | .chkm _ | .trap _ | .rett _ => true
  | _ => false

/-- PROBE (R89). -/
def Instr.isProbe : Instr → Bool
  | .probe _ => true
  | _ => false

/-- S-class opcodes 0x30 to 0x47 are legal in S1 only (R69). -/
def Instr.s1Only (i : Instr) : Bool :=
  match i.encoding with
  | some e => e.cls = .s && 0x30 ≤ e.op.toNat && e.op.toNat ≤ 0x47
  | none => false

/-- A well-formed instruction: a well-formed slot operation, an event, or a bundle of eight well-formed slot operations in
the slots of their classes (R68, R69, R89). -/
def Instr.wf : Instr → Bool
  | .bundleIssue s0 s1 v0 v1 v2 x m0 m1 =>
    s0.wfSlot .s && s1.wfSlot .s && v0.wfSlot .v && v1.wfSlot .v && v2.wfSlot .v && x.wfSlot .x && m0.wfSlot .m &&
    m1.wfSlot .m && !s0.s1Only && !((m0.isProbe || m1.isProbe) && s1.isBranch) && !(m0.isProbe && m1.isProbe)
  | i =>
    match i.encoding with
    | some e => i.wfSlot e.cls
    | none => true

end Sys2Proof
end

