-- ==== Sys2Proof/Decode.lean ====
section
/-! DEFINITION. Decoding bundles (04_bundle_encoding.md R68, R69, R85 to R91) and, after it, encoding them. The decoder is
noncomputable only because Lean's code generator has room for 245 constructors; the kernel evaluates it. -/

namespace Sys2Proof

/-- Why a slot is not an instruction (R90). -/
inductive SlotFault where
  | undefinedOpcode | illegalSlot | illegalEncoding
  deriving DecidableEq, Repr

/-- The operations that share an opcode of the S class (R86), as read from the low 40 bits of a slot; none for an unassigned opcode. -/
noncomputable def candidatesS (op : Nat) (w : BitVec 40) : List Instr :=
  match op with
  | 0x00 => if w = 0 then [.nop] else []
  | 0x01 => [.sadd (.unpack w)]
  | 0x02 => [.ssub (.unpack w)]
  | 0x03 => [.smul (.unpack w)]
  | 0x04 => [.smulh (.unpack w)]
  | 0x05 => [.smulhu (.unpack w)]
  | 0x06 => [.sdiv (.unpack w)]
  | 0x07 => [.sdivu (.unpack w)]
  | 0x08 => [.srem (.unpack w)]
  | 0x09 => [.sremu (.unpack w)]
  | 0x0A => [.sand (.unpack w)]
  | 0x0B => [.sor (.unpack w)]
  | 0x0C => [.sxor (.unpack w)]
  | 0x0D => [.sshl (.unpack w)]
  | 0x0E => [.sshr (.unpack w)]
  | 0x0F => [.ssra (.unpack w)]
  | 0x10 => [.saddi (.unpack w)]
  | 0x11 => [.sandi (.unpack w)]
  | 0x12 => [.sori (.unpack w)]
  | 0x13 => [.sxori (.unpack w)]
  | 0x14 => [.sshli (.unpack w)]
  | 0x15 => [.sshri (.unpack w)]
  | 0x16 => [.ssrai (.unpack w)]
  | 0x17 => [.sli (.unpack w)]
  | 0x18 => [.slih (.unpack w)]
  | 0x19 => [.sclz (.unpack w)]
  | 0x1A => [.spop (.unpack w)]
  | 0x1B => [.smin (.unpack w)]
  | 0x1C => [.smax (.unpack w)]
  | 0x1D => [.sminu (.unpack w)]
  | 0x1E => [.smaxu (.unpack w)]
  | 0x1F => [.scmp (.unpack w)]
  | 0x20 => [.ssel (.unpack w)]
  | 0x21 => [.sfadd (.unpack w)]
  | 0x22 => [.sfsub (.unpack w)]
  | 0x23 => [.sfmul (.unpack w)]
  | 0x24 => [.sfma (.unpack w)]
  | 0x25 => [.sfcmp (.unpack w)]
  | 0x26 => [.sfcvtF32I64 (.unpack w), .sfcvtF32U64 (.unpack w), .sfcvtI64F32 (.unpack w), .sfcvtU64F32 (.unpack w), .sfcvtF32Bf16 (.unpack w), .sfcvtF32F16 (.unpack w), .sfcvtBf16F32 (.unpack w), .sfcvtF16F32 (.unpack w), .sfcvtF32Fx32 (.unpack w), .sfcvtFx32F32 (.unpack w)]
  | 0x27 => [.sfmin (.unpack w)]
  | 0x28 => [.sfmax (.unpack w)]
  | 0x29 => [.sextU (.unpack w), .sextS (.unpack w)]
  | 0x2A => [.sins (.unpack w)]
  | 0x30 => [.br (.unpack w)]
  | 0x31 => [.brc (.unpack w)]
  | 0x32 => [.bri (.unpack w)]
  | 0x33 => [.call (.unpack w)]
  | 0x34 => [.ret (.unpack w)]
  | 0x35 => [.loop (.unpack w)]
  | 0x36 => [.loopp (.unpack w)]
  | 0x37 => [.lexit (.unpack w)]
  | 0x38 => [.rep (.unpack w)]
  | 0x39 => [.spawn (.unpack w)]
  | 0x3A => [.yield (.unpack w)]
  | 0x3B => [.chk (.unpack w)]
  | 0x3C => [.chkm (.unpack w)]
  | 0x3D => [.trap (.unpack w)]
  | 0x3E => [.rett (.unpack w)]
  | 0x3F => [.sysrd (.unpack w)]
  | 0x40 => [.syswr (.unpack w)]
  | 0x41 => [.setfmt (.unpack w)]
  | 0x42 => [.settb (.unpack w)]
  | 0x43 => [.twait (.unpack w)]
  | 0x44 => [.trealign (.unpack w)]
  | 0x45 => [.glchk (.unpack w)]
  | 0x46 => [.halt (.unpack w)]
  | 0x47 => [.flclr (.unpack w)]
  | _ => []

/-- The assigned opcodes of the S class (R86). -/
def assignedS (op : Nat) : Bool :=
  op = 0 || (0x01 ≤ op && op ≤ 0x2A) || (0x30 ≤ op && op ≤ 0x47)

/-- The operations that share an opcode of the V class (R87), as read from the low 40 bits of a slot; none for an unassigned opcode. -/
noncomputable def candidatesV (op : Nat) (w : BitVec 40) : List Instr :=
  match op with
  | 0x00 => if w = 0 then [.nop] else []
  | 0x01 => [.vaddF32 (.unpack w)]
  | 0x02 => [.vaddBf16 (.unpack w)]
  | 0x03 => [.vaddF16 (.unpack w)]
  | 0x04 => [.vsubF32 (.unpack w)]
  | 0x05 => [.vsubBf16 (.unpack w)]
  | 0x06 => [.vsubF16 (.unpack w)]
  | 0x07 => [.vmulF32 (.unpack w)]
  | 0x08 => [.vmulBf16 (.unpack w)]
  | 0x09 => [.vmulF16 (.unpack w)]
  | 0x0A => [.vfmaF32 (.unpack w)]
  | 0x0B => [.vfmaBf16 (.unpack w)]
  | 0x0C => [.vfmaF16 (.unpack w)]
  | 0x0D => [.vfmsF32 (.unpack w)]
  | 0x0E => [.vfmsBf16 (.unpack w)]
  | 0x0F => [.vfmsF16 (.unpack w)]
  | 0x10 => [.vminF32 (.unpack w)]
  | 0x11 => [.vminBf16 (.unpack w)]
  | 0x12 => [.vminF16 (.unpack w)]
  | 0x13 => [.vmaxF32 (.unpack w)]
  | 0x14 => [.vmaxBf16 (.unpack w)]
  | 0x15 => [.vmaxF16 (.unpack w)]
  | 0x16 => [.vabsF32 (.unpack w)]
  | 0x17 => [.vabsBf16 (.unpack w)]
  | 0x18 => [.vabsF16 (.unpack w)]
  | 0x19 => [.vnegF32 (.unpack w)]
  | 0x1A => [.vnegBf16 (.unpack w)]
  | 0x1B => [.vnegF16 (.unpack w)]
  | 0x1C => [.vcmpF32 (.unpack w)]
  | 0x1D => [.vcmpBf16 (.unpack w)]
  | 0x1E => [.vcmpF16 (.unpack w)]
  | 0x1F => [.vclampF32 (.unpack w)]
  | 0x20 => [.vclampBf16 (.unpack w)]
  | 0x21 => [.vclampF16 (.unpack w)]
  | 0x22 => [.vsel (.unpack w)]
  | 0x23 => [.viaddI32 (.unpack w)]
  | 0x24 => [.viaddI16 (.unpack w)]
  | 0x25 => [.visubI32 (.unpack w)]
  | 0x26 => [.visubI16 (.unpack w)]
  | 0x27 => [.vimulI32 (.unpack w)]
  | 0x28 => [.vimulI16 (.unpack w)]
  | 0x29 => [.viminI32 (.unpack w)]
  | 0x2A => [.viminI16 (.unpack w)]
  | 0x2B => [.vimaxI32 (.unpack w)]
  | 0x2C => [.vimaxI16 (.unpack w)]
  | 0x2D => [.vicmpI32 (.unpack w)]
  | 0x2E => [.vicmpI16 (.unpack w)]
  | 0x2F => [.vand (.unpack w)]
  | 0x30 => [.vor (.unpack w)]
  | 0x31 => [.vxor (.unpack w)]
  | 0x32 => [.vshl (.unpack w)]
  | 0x33 => [.vshr (.unpack w)]
  | 0x34 => [.vsra (.unpack w)]
  | 0x35 => [.vfxadd (.unpack w)]
  | 0x36 => [.vfxsub (.unpack w)]
  | 0x37 => [.vqfx (.unpack w)]
  | 0x38 => [.vfxf (.unpack w)]
  | 0x39 => [.vcvtBf16F32 (.unpack w), .vcvtF16F32 (.unpack w), .vcvtF32Bf16 (.unpack w), .vcvtF32F16 (.unpack w), .vcvtI32F32 (.unpack w), .vcvtF32I32 (.unpack w), .vcvtI16F32 (.unpack w), .vcvtF32I16 (.unpack w)]
  | 0x3A => [.vsplit3 (.unpack w)]
  | 0x3B => [.vmov (.unpack w)]
  | 0x3C => [.vli (.unpack w)]
  | 0x3D => [.vbcastScalar (.unpack w), .vbcastLane (.unpack w)]
  | 0x3E => [.vextr (.unpack w)]
  | 0x3F => [.vslide (.unpack w)]
  | 0x40 => [.vperm (.unpack w)]
  | 0x41 => [.vidx (.unpack w)]
  | 0x42 => [.vsumo (.unpack w)]
  | 0x43 => [.vsumxXa (.unpack w), .vsumxF32 (.unpack w)]
  | 0x44 => [.vmaxr (.unpack w)]
  | 0x45 => [.vminr (.unpack w)]
  | 0x46 => [.vstatu (.unpack w)]
  | 0x47 => [.vstatw (.unpack w)]
  | 0x48 => [.vstatm (.unpack w)]
  | 0x49 => [.vstath (.unpack w)]
  | 0x4A => [.vstateClr (.unpack w), .vstateVar (.unpack w), .vstateSvar (.unpack w), .vstateRstd (.unpack w)]
  | 0x4B => [.vglint (.unpack w)]
  | 0x4C => [.vrngBits (.unpack w), .vrngUnif (.unpack w)]
  | 0x4D => [.vamax (.unpack w)]
  | 0x4E => [.mand (.unpack w)]
  | 0x4F => [.mor (.unpack w)]
  | 0x50 => [.mxor (.unpack w)]
  | 0x51 => [.mnot (.unpack w)]
  | 0x52 => [.mpop (.unpack w)]
  | 0x53 => [.mfirst (.unpack w)]
  | 0x54 => [.vxadd (.unpack w)]
  | 0x55 => [.vxcvtXaF32 (.unpack w), .vxcvtF32Xa (.unpack w)]
  | _ => []

/-- The assigned opcodes of the V class (R87). -/
def assignedV (op : Nat) : Bool :=
  op = 0 || (0x01 ≤ op && op ≤ 0x55)

/-- The operations that share an opcode of the X class (R88), as read from the low 40 bits of a slot; none for an unassigned opcode. -/
noncomputable def candidatesX (op : Nat) (w : BitVec 40) : List Instr :=
  match op with
  | 0x00 => if w = 0 then [.nop] else []
  | 0x01 => [.xexp2 (.unpack w)]
  | 0x02 => [.xlog2 (.unpack w)]
  | 0x03 => [.xrcp (.unpack w)]
  | 0x04 => [.xrsqrt (.unpack w)]
  | 0x05 => [.xsqrt (.unpack w)]
  | 0x06 => [.xtanh (.unpack w)]
  | 0x07 => [.xsigm (.unpack w)]
  | 0x08 => [.xsin (.unpack w)]
  | 0x09 => [.xcos (.unpack w)]
  | 0x0A => [.xqbx (.unpack w)]
  | 0x0B => [.xdqbx (.unpack w)]
  | 0x0C => [.xscale (.unpack w)]
  | 0x10 => [.mcall (.unpack w)]
  | 0x11 => [.mdrain (.unpack w)]
  | 0x12 => [.mdrainAo (.unpack w)]
  | 0x13 => [.mdrainAu (.unpack w)]
  | 0x14 => [.mdrainN (.unpack w)]
  | 0x15 => [.mzero (.unpack w)]
  | 0x16 => [.mpset (.unpack w)]
  | 0x17 => [.mucld (.unpack w)]
  | 0x18 => [.mbld (.unpack w)]
  | 0x19 => [.thset (.unpack w)]
  | 0x1A => [.mchks (.unpack w)]
  | _ => []

/-- The assigned opcodes of the X class (R88). -/
def assignedX (op : Nat) : Bool :=
  op = 0 || (0x01 ≤ op && op ≤ 0x0C) || (0x10 ≤ op && op ≤ 0x1A)

/-- The operations that share an opcode of the M class (R89), as read from the low 40 bits of a slot; none for an unassigned opcode. -/
noncomputable def candidatesM (op : Nat) (w : BitVec 40) : List Instr :=
  match op with
  | 0x00 => if w = 0 then [.nop] else []
  | 0x01 => [.ld8 (.unpack w)]
  | 0x02 => [.ld16 (.unpack w)]
  | 0x03 => [.ld32 (.unpack w)]
  | 0x04 => [.ld64 (.unpack w)]
  | 0x05 => [.st8 (.unpack w)]
  | 0x06 => [.st16 (.unpack w)]
  | 0x07 => [.st32 (.unpack w)]
  | 0x08 => [.st64 (.unpack w)]
  | 0x09 => [.vld (.unpack w)]
  | 0x0A => [.vst (.unpack w)]
  | 0x0B => [.vldt (.unpack w)]
  | 0x0C => [.vldb (.unpack w)]
  | 0x0D => [.vgath (.unpack w)]
  | 0x0E => [.vscat (.unpack w)]
  | 0x0F => [.probe (.unpack w)]
  | 0x10 => [.pref (.unpack w)]
  | 0x11 => [.cpygs (.unpack w)]
  | 0x12 => [.cpysg (.unpack w)]
  | 0x13 => [.cpyss (.unpack w)]
  | 0x14 => [.cpyb (.unpack w)]
  | 0x15 => [.drainl (.unpack w)]
  | 0x16 => [.drainr (.unpack w)]
  | 0x17 => [.drainc (.unpack w)]
  | 0x18 => [.barinit (.unpack w), .barinitTree (.unpack w)]
  | 0x19 => [.bararv (.unpack w)]
  | 0x1A => [.barwait (.unpack w)]
  | 0x1B => [.aadd (.unpack w)]
  | 0x1C => [.amin (.unpack w)]
  | 0x1D => [.amax (.unpack w)]
  | 0x1E => [.aand (.unpack w)]
  | 0x1F => [.aor (.unpack w)]
  | 0x20 => [.axor (.unpack w)]
  | 0x21 => [.aswp (.unpack w)]
  | 0x22 => [.acas (.unpack w)]
  | 0x23 => [.afaddo (.unpack w)]
  | 0x24 => [.afaddu (.unpack w)]
  | 0x25 => [.axadd (.unpack w)]
  | 0x26 => [.waitv (.unpack w)]
  | 0x27 => [.chsend (.unpack w)]
  | 0x28 => [.chrecv (.unpack w)]
  | 0x29 => [.srcmdXadd (.unpack w), .srcmdFaddo (.unpack w), .srcmdFaddu (.unpack w), .srcmdMax (.unpack w), .srcmdMin (.unpack w), .srcmdStato (.unpack w), .srcmdStatu (.unpack w), .srcmdFwd (.unpack w), .srcmdBx4d (.unpack w)]
  | 0x2A => [.jemit (.unpack w)]
  | 0x2B => [.jcmp (.unpack w)]
  | 0x2C => [.jmark (.unpack w)]
  | 0x2D => [.jtrunc (.unpack w)]
  | 0x2E => [.astat (.unpack w), .astatO (.unpack w)]
  | _ => []

/-- The assigned opcodes of the M class (R89). -/
def assignedM (op : Nat) : Bool :=
  op = 0 || (0x01 ≤ op && op ≤ 0x2E)

/-- The operations that share an opcode of a class. -/
noncomputable def candidates (c : SlotClass) (op : Nat) (w : BitVec 40) : List Instr :=
  match c with
  | .s => candidatesS op w
  | .v => candidatesV op w
  | .x => candidatesX op w
  | .m => candidatesM op w

/-- The assigned opcodes of a class. -/
def assigned (c : SlotClass) (op : Nat) : Bool :=
  match c with
  | .s => assignedS op
  | .v => assignedV op
  | .x => assignedX op
  | .m => assignedM op

/-- Whether the low 40 bits of a slot are those of an instruction, bits between its fields included (R85). -/
def Instr.holds (i : Instr) (w : BitVec 40) : Bool := match i.encoding with | some e => e.bits = w | none => w = 0

/-- The instruction a slot of class c holds (R69, R85, R90): bits [47:40] are the opcode. -/
noncomputable def decodeSlot (c : SlotClass) (w : SlotWord) : Except SlotFault Instr :=
  let op := (w.extractLsb' 40 8).toNat
  if assigned c op then
    match (candidates c op (w.extractLsb' 0 40)).find? (fun i => i.wfSlot c && i.holds (w.extractLsb' 0 40)) with
    | some i => .ok i
    | none => .error .illegalEncoding
  else .error .undefinedOpcode

/-- The class of slot n (R68): S0, S1, V0, V1, V2, X, M0, M1. -/
def slotClass (n : Nat) : SlotClass :=
  if n < 2 then .s else if n < 5 then .v else if n = 5 then .x else .m

/-- Slot n of a bundle: S0 is bits [383:336], M1 bits [47:0] (R68). -/
def slotWord (b : BundleWord) (n : Nat) : SlotWord := b.extractLsb' (48 * (7 - n)) 48

/-- The opcode in slot n of a bundle (R68). -/
def slotOpcode (b : BundleWord) (n : Nat) : Nat := ((slotWord b n).extractLsb' 40 8).toNat

/-- Whether slot n of a bundle is an illegal slot by its opcode, whatever its other bits hold (R89, R91): an opcode of S1 only in S0, PROBE
beside a branch-class opcode in S1, PROBE in both M slots, which belongs to M0. -/
def slotIllegal (b : BundleWord) (branch : Bool) (n : Nat) : Bool :=
  let probe := fun k => slotOpcode b k = 0x0F
  (n = 0 && 0x30 ≤ slotOpcode b 0 && slotOpcode b 0 ≤ 0x47) || (6 ≤ n && probe n && branch) || (n = 6 && probe 6 && probe 7)

/-- What is wrong with one slot of a bundle by R90, given the eight decoded slots, in the order of R91: an undefined opcode, an illegal
slot, an illegal encoding. -/
def slotFault (b : BundleWord) (ds : Nat → Except SlotFault Instr) (n : Nat) : Option SlotFault :=
  let branch := match ds 1 with | .ok i => i.isBranch | .error _ => false
  match ds n with
  | .error .undefinedOpcode => some .undefinedOpcode
  | r => if slotIllegal b branch n then some .illegalSlot else match r with | .error e => some e | .ok _ => none

/-- The first decode fault of a bundle: the lowest slot, and its highest-ranked fault (R91). -/
def firstSlotFault (b : BundleWord) (ds : Nat → Except SlotFault Instr) : Option (Nat × SlotFault) :=
  (List.range 8).findSome? fun n => (slotFault b ds n).map (fun e => (n, e))

/-- A bundle's instruction, or its first decode fault and the slot it belongs to (R90, R91). -/
noncomputable def decodeBundle (b : BundleWord) : Except (Nat × SlotFault) Instr :=
  let ds := fun n => decodeSlot (slotClass n) (slotWord b n)
  match firstSlotFault b ds with
  | some e => .error e
  | none =>
    match ds 0, ds 1, ds 2, ds 3, ds 4, ds 5, ds 6, ds 7 with
    | .ok s0, .ok s1, .ok v0, .ok v1, .ok v2, .ok x, .ok m0, .ok m1 => .ok (.bundleIssue s0 s1 v0 v1 v2 x m0 m1)
    | _, _, _, _, _, _, _, _ => .error (0, .illegalEncoding)

/-- The slot word of a slot operation: the opcode in bits [47:40] and its fields below (R68); zero for NOP. -/
def encodeSlot (i : Instr) : SlotWord :=
  match i.encoding with
  | some e => e.op ++ e.bits
  | none => 0

/-- The bundle word of a bundle (R68); zero for anything else. -/
def encode : Instr → BundleWord
  | .bundleIssue s0 s1 v0 v1 v2 x m0 m1 =>
    encodeSlot s0 ++ encodeSlot s1 ++ encodeSlot v0 ++ encodeSlot v1 ++ encodeSlot v2 ++ encodeSlot x ++ encodeSlot m0 ++
      encodeSlot m1
  | _ => 0

/-- The instruction the decoder reads from a bundle whose bits are w; bits at and above nbits are zero. The table gives its
rows no bits, so every word it can ask about is the bundle of NOPs (R69). -/
noncomputable def decodeTableWord (nbits w : Nat) : Option Instr :=
  match decodeBundle (BitVec.ofNat 384 (w % 2 ^ nbits)) with
  | .ok i => some i
  | .error _ => none

end Sys2Proof
end

