-- ==== Sys2Proof/Config.lean ====
section
/-! DEFINITION. What one implementation fixes, and the free values: the choices the manual lists as allowed outcomes
without saying which one happens. The free values have no body, so no proof can rest on a value of theirs (log 2). -/

namespace Sys2Proof.Config

/-- A free number: the n-th open choice of a run (a cycle inside a bound, one of several allowed outcomes). Log 2. -/
opaque freeNat : Nat → Nat

/-- A free lane set: the n-th open per-lane choice of a run (R27, R28). Log 2. -/
opaque freeMask : Nat → BitVec 1024

/-- A free word: the n-th open value that the manual does not state (an attestation signature, R374; the maximum of a NaN ring entry,
R55). Logs 16 and 22. -/
opaque freeWord : Nat → BitVec 64

/-- Logical cores per die (R14). -/
def coresPerDie : Nat := 256
/-- Dies per module (R14). -/
def dies : Nat := 4
/-- Cores of the module. -/
def cores : Nat := 1024
/-- Bytes of one scratchpad: 4 MiB (R233). -/
def spdBytes : Nat := 0x400000
/-- First offset of the scratchpad's system area (R233). -/
def systemArea : Nat := 0x3E0000
/-- First offset of the channel rings (R233). -/
def ringArea : Nat := 0x3F0000
/-- Bytes of one BOS: 512 slices of 4 KiB (R234). -/
def bosBytes : Nat := 0x200000
/-- Bytes of device memory: 768 GiB (R247). -/
def hbmBytes : Nat := 768 * 2 ^ 30
/-- Bytes of a layer region: 12 GiB (R247). -/
def regionBytes : Nat := 12 * 2 ^ 30
/-- Results in flight a sequencer may have (R18). -/
def inFlightLimit : Nat := 64
/-- Entries of a loop stack (R38). -/
def loopDepth : Nat := 6
/-- Default slice length in cycles (R380). -/
def defaultSlice : Nat := 1000000
/-- Grace after a deadline, in owned cycles (R291). -/
def graceCycles : Nat := 4096
/-- The launch value of FMT (R29). -/
def fmtReset : Word := 0x8
/-- The multiplier of the glint and of the generator (R175, R177). -/
def golden : Word := 0x9E3779B97F4A7C15
/-- Issue delay of a trap's handler (R276). -/
def trapDelay : Nat := 16
/-- Latest arrival of a request at the SYE (R228). -/
def syeDelay : Nat := 32
/-- SYE SRAM bytes per die (R237). -/
def syeSram : Nat := 8 * 2 ^ 20
/-- Granule bytes (R349). -/
def granule : Nat := 2 ^ 20

end Sys2Proof.Config
end

