-- ==== Sys2Proof/Machine/Map.lean ====
section
/-! DEFINITION. Sparse maps in one canonical form: the keys rise strictly and no entry holds what an unlisted key reads as.
Every register file and memory of the state is one. -/

namespace Sys2Proof.Machine

/-- A list of key and value pairs. -/
abbrev SMap (α : Type) := List (Nat × α)

namespace SMap

/-- The value at key a; d where none is listed. -/
def get {α : Type} (d : α) : SMap α → Nat → α
  | [], _ => d
  | (k, v) :: m, a => if a = k then v else get d m a

/-- The map with v at key a; writing d removes the entry. -/
def set {α : Type} [DecidableEq α] (d : α) : SMap α → Nat → α → SMap α
  | [], a, v => if v = d then [] else [(a, v)]
  | (k, w) :: m, a, v =>
    if a < k then (if v = d then (k, w) :: m else (a, v) :: (k, w) :: m)
    else if a = k then (if v = d then m else (a, v) :: m)
    else (k, w) :: set d m a v

/-- The canonical form: rising keys above lo, no entry equal to d. -/
def wfFrom {α : Type} [DecidableEq α] (d : α) : Nat → SMap α → Bool
  | _, [] => true
  | lo, (k, v) :: m => lo ≤ k && v ≠ d && wfFrom d (k + 1) m

/-- The canonical form of a map whose unlisted keys read as d. -/
def wf {α : Type} [DecidableEq α] (d : α) (m : SMap α) : Bool := wfFrom d 0 m

/-- The map without the keys of [a, a + n). -/
def clear {α : Type} (m : SMap α) (a n : Nat) : SMap α := m.filter (fun e => e.1 < a || a + n ≤ e.1)

/-- The map with each entry of a list put in. -/
def putAll {α : Type} [DecidableEq α] (d : α) (m : SMap α) (l : List (Nat × α)) : SMap α := l.foldl (fun m e => set d m e.1 e.2) m

end SMap

/-- Byte memory: pairs of address and byte, an unlisted address reading as zero (log 1). -/
abbrev Memory := List Host.Cell

namespace Memory

/-- One byte; an unlisted address reads as zero (log 1). -/
def read (m : Memory) (a : Nat) : Byte := SMap.get 0 m a

/-- n bytes from address a upward. -/
def readBytes (m : Memory) (a : Nat) : Nat → List Byte
  | 0 => []
  | n + 1 => read m a :: readBytes m (a + 1) n

/-- The entries that a list of bytes from address a makes. -/
def cells (a : Nat) : List Byte → Memory
  | [] => []
  | b :: bs => if b = 0 then cells (a + 1) bs else (a, b) :: cells (a + 1) bs

/-- The memory with the bytes from address a upward; zero bytes leave no entry. -/
def write (m : Memory) (a : Nat) (bs : List Byte) : Memory :=
  m.filter (fun e => e.1 < a) ++ cells a bs ++ m.filter (fun e => a + bs.length ≤ e.1)

/-- The canonical form (no zero byte is listed, addresses rise strictly). -/
def wf (m : Memory) : Bool := SMap.wf 0 m

end Memory

/-- The little-endian value of a list of bytes (R3). -/
def leValue : List Byte → Nat
  | [] => 0
  | b :: bs => b.toNat + 256 * leValue bs

/-- The n little-endian bytes of a value (R3). -/
def leBytes : Nat → Nat → List Byte
  | 0, _ => []
  | n + 1, v => BitVec.ofNat 8 v :: leBytes n (v / 256)

end Sys2Proof.Machine
end

