-- ==== Sys2Proof/Machine/Records.lean ====
section
/-! DEFINITION. The records the state is made of: results in flight, sequencers, cores, accesses, engine commands. -/

namespace Sys2Proof.Machine

/-- A 64-bit register with its poison bit (R24). -/
structure SReg where
  val : Word := 0
  poison : Bool := false
  deriving DecidableEq, Repr

/-- A mask register with its poison bit (R24). -/
structure MReg where
  val : MaskBits := 0
  poison : Bool := false
  deriving DecidableEq, Repr

/-- An ACS row: 16,384 bits, a poison bit for each 32-bit word, two mark bits for each XA128 lane (R22, R23); and which of its 8-byte
units hold one flipped bit that no read has corrected yet (R359; log 57). -/
structure Row where
  data : RowBits := 0
  poison : BitVec 512 := 0
  mark : BitVec 256 := 0
  flip : BitVec 256 := 0
  deriving DecidableEq, Repr

/-- The mark that memory keeps with an 8-byte unit (R211, R235, R254): clear; poison that a store or an engine wrote there; an error that
could not be corrected; and, not yet met by a read, one flipped bit, which the read corrects, or several (log 57). -/
inductive UnitMark where
  | clear | stored | error | flip | flips
  deriving DecidableEq, Repr

/-- Whether a unit so marked reads as poisoned. -/
def UnitMark.bad : UnitMark → Bool
  | .clear | .flip => false
  | .stored | .error | .flips => true

/-- Whether an uncorrectable error, and not a store, poisons a unit (R126). -/
def UnitMark.fromError (m : UnitMark) : Bool := m = .error || m = .flips

/-- A write to one row: the bits written, and which data, poison and mark bits it writes; lane is the width of the lanes it writes, the
finest where its operation names none (R28; log 74). -/
structure RowWrite where
  data : RowBits := 0
  dataMask : RowBits := 0
  poison : BitVec 512 := 0
  poisonMask : BitVec 512 := 0
  mark : BitVec 256 := 0
  markMask : BitVec 256 := 0
  lane : Nat := 16
  deriving DecidableEq, Repr

/-- Flags an operation sets: one word per flag code 0 to 5 of R36, bit i for lane i. -/
structure FlagSet where
  iv : MaskBits := 0
  dz : MaskBits := 0
  ov : MaskBits := 0
  uf : MaskBits := 0
  nx : MaskBits := 0
  wrap : MaskBits := 0
  deriving DecidableEq, Repr

/-- Where a result goes (R297): a scalar, a mask, ACS rows from a first row upward, a glint addend, FMT. -/
inductive Dest where
  | scalar (r : Nat)
  | mask (r : Nat)
  | rows (n : Nat)
  | glint (r : Nat)
  | fmt
  deriving DecidableEq, Repr

/-- What a result holds. -/
inductive Value where
  | word (v : Word) (poison : Bool)
  | mask (v : MaskBits) (poison : Bool)
  | rows (ws : List RowWrite)
  deriving DecidableEq, Repr

/-- Where a result stands between its issue and its landing: live; live for the handler's view while the trap frame holds it
as latch ix (R143), and landed for that view; held in place while a handler runs, for masks and rows (R298); waiting after RETT for the
first resumed bundle, with its cycles remaining (R143). -/
inductive FlightMode where
  | live
  | latched (ix : Nat)
  | landed (ix : Nat)
  | frozen (ix : Nat)
  | returning (crem : Int)
  deriving DecidableEq, Repr

/-- A result in flight (R18, R27): issued at issue, settled from due on; missing counts the accesses whose data it still waits
for. engine marks rows an XE command writes, which are no result of R18; hnd one that a handler issued; returned one that a RETT has
put back; got names the pieces of gotWidth bits of a load that have arrived, reads the places (Home.code) and sizes of the units of it
that have been read (R203). -/
structure Flight where
  id : Nat
  q : Nat
  dest : Dest
  val : Value
  issue : Nat
  due : Nat
  missing : Nat := 0
  slot : Nat
  addr : Nat
  mode : FlightMode := .live
  engine : Bool := false
  hnd : Bool := false
  faulted : Bool := false
  returned : Bool := false
  got : MaskBits := BitVec.allOnes 1024
  gotWidth : Nat := 512
  reads : List (Nat × Nat) := []
  deriving DecidableEq, Repr

/-- Flags an operation has raised that are set no later than due (R36, R43, R157): who issued it, from which slot (R37), the
stream address of its bundle, its issue cycle; exact ones are set at due and not before (R61, R203). -/
structure FlagPost where
  q : Nat
  slot : Nat
  addr : Nat
  issue : Nat
  due : Nat
  flags : FlagSet
  exact : Bool := false
  deriving DecidableEq, Repr

/-- The states of a sequencer (R17). -/
inductive RunState where
  | idle | run | wait | parked | quiesced
  deriving DecidableEq, Repr

/-- What a sequencer in WAIT waits for (R17, R296). -/
inductive Wait where
  | none
  | twait (time : Word)
  | trealign (k : Nat)
  | chrecv (ch row lat : Nat) (slot addr : Nat)
  | barwait (obj : Nat) (phase : Bool) (slot addr : Nat)
  | waitv (loc : Nat) (value : Word) (size cond : Nat) (slot addr : Nat)
  deriving DecidableEq, Repr

/-- A wait of a bundle that comes after its first one (log 21), with whether its monitor is armed and what the sync engine reports. -/
structure MoreWait where
  wait : Wait
  armed : Bool := false
  report : Option (Nat × Bool) := none
  deriving DecidableEq, Repr

/-- A loop-stack entry (R38), with the prologue's address of a LOOPP (R124) and the record of it that the frame does not hold. -/
structure LoopEntry where
  start : Nat
  stop : Nat
  index : Nat
  count : Nat
  pipe : Bool := false
  stage : Nat := 0
  prologue : Nat := 0
  deriving DecidableEq, Repr

/-- The REP state (R133, R296) with the number of the next repetition (log 20). -/
structure RepState where
  remain : Nat
  mask : Nat
  sd : Int
  sa : Int
  sb : Int
  addr : Nat
  next : Nat
  deriving DecidableEq, Repr

/-- One unit of a store held in a LOOPP commit window (R125): the pass it belongs to and its bytes, with poisoned bytes marked; the cycle of its
issue, since the loads of its bundle come before its release (R262); part names, with that cycle and the slot, the store that it is a unit of. -/
structure Held where
  pass : Nat
  va : Nat
  bytes : List Byte
  poison : List Bool
  slot : Nat
  addr : Nat
  issue : Nat := 0
  part : Nat := 0
  deriving DecidableEq, Repr

/-- What belongs to the LOOPP of an interrupted program while its handler runs (R129): the held stores, the rollback asked for, the
rolled-back flag with its pass, the escalation due. -/
structure Frozen where
  window : List Held := []
  rollback : Option Nat := none
  rollEsc : Bool := false
  rolledBack : Bool := false
  rbPass : Nat := 0
  escalate : Bool := false
  deriving DecidableEq, Repr

/-- A deferred event (R299); notBefore is the first cycle at which it may be delivered, owner the copy it belongs to. -/
structure Pending where
  code : Nat
  slot : Nat := 0
  ch : Nat := 0
  abandon : Bool := false
  fdrow : Bool := false
  dlost : Bool := false
  sub : Nat := 0
  faddr : Nat := 0
  addr : Nat := 0
  info : Nat := 0
  data : Word := 0
  notBefore : Nat := 0
  copy : Option Nat := none
  flight : Option Nat := none
  deriving DecidableEq, Repr

/-- Work a drain covers (R218, R265): the accesses, copies, XE commands, elements and results that later accesses and engine starts wait for. -/
structure Hold where
  accs : List Nat := []
  copies : List Nat := []
  cmds : List Nat := []
  elems : List Nat := []
  results : List Nat := []
  deriving DecidableEq, Repr

/-- A sequencer (02_core_state.md, 12, 13 R294 to R301). passEnd holds the loop stack and the counter that the end of a LOOPP pass leads
to while a rollback waits (R126, R127); the saved fields and frozen hold for an interrupted program what its frame has no place for;
released that the lead has yielded while a parked sequencer was in a handler (R17). -/
structure Seq where
  pc : Nat := 0
  run : RunState := .idle
  wait : Wait := .none
  loops : List LoopEntry := []
  rep : Option RepState := none
  fmt : Word := Config.fmtReset
  tb : Word := 0
  fls0 : BitVec 5 := 0
  fls1 : BitVec 5 := 0
  fls2 : BitVec 5 := 0
  fls3 : BitVec 5 := 0
  fev : Word := 0
  fevAt : Nat := 0
  tcmp : Word := 0
  hnd : Bool := false
  reent : Bool := false
  rolledBack : Bool := false
  rbPass : Nat := 0
  passEnd : Option (List LoopEntry × Nat) := none
  window : List Held := []
  rollback : Option Nat := none
  rollEsc : Bool := false
  escalate : Bool := false
  more : List MoreWait := []
  armed : Bool := false
  report : Option (Nat × Bool) := none
  released : Bool := false
  sync : Option Cause := none
  events : List Pending := []
  delivered : List Pending := []
  deadline : Bool := false
  orderFaults : List Pending := []
  fdBusy : Bool := false
  resumeAt : Nat := 0
  hold : Hold := {}
  rearm : Bool := false
  savedWait : Wait := .none
  savedMore : List MoreWait := []
  savedLoops : List LoopEntry := []
  savedRep : Option RepState := none
  savedSync : Option Cause := none
  savedFevAt : Nat := 0
  frozen : Frozen := {}
  deriving DecidableEq, Repr

/-- A sequencer that goes on from where it was stopped: it runs, or enters a wait that its bundle still has (R17, R136). -/
def Seq.proceed (y : Seq) : Seq :=
  match y.more with
  | [] => { y with run := .run, wait := .none, armed := false, report := none }
  | w :: l => { y with run := .wait, wait := w.wait, more := l, armed := w.armed, report := w.report }

/-- A PTT entry (R239): the device virtual block of a slot. -/
structure PttEntry where
  valid : Bool := false
  block : Nat := 0
  deriving DecidableEq, Repr

/-- One queue of a core (R286, R291): its launch, base rank, PASS, stated run, cycles owned, cycles owned since its last YIELD,
whether the overrun was posted, the start of its grace, the tasks it has still to take, whether it has started, is done, quiesced or ended. -/
structure Queue where
  launch : Option Nat := none
  rank : Nat := 0
  pass : Nat := 0
  run : Nat := 0
  owned : Nat := 0
  sinceYield : Nat := 0
  ownedSlice : Bool := false
  overrun : Bool := false
  grace : Option Nat := none
  tasks : List Nat := []
  started : Bool := false
  done : Bool := false
  quiesced : Bool := false
  ended : Bool := false
  deriving DecidableEq, Repr

/-- One MACK of a checksummed routine as a drain may repeat it (R204, R205): the C row, the A base or the tile row, the mp index of
the A feed, the B offset, the product index and the groups. -/
structure Mack where
  row : Nat
  aRow : Option (Nat × Nat)
  aBase : Nat
  scale : Nat
  bOff : Nat
  k : Nat
  groups : Nat
  deriving DecidableEq, Repr

/-- What a checksummed MCALL records (R204, R205), under its command: its row range, its MACKs, its FMT, the column values, one for each C
row, and the row values, one for each column. -/
structure CkRecord where
  cmd : Nat
  row0 : Nat
  nrow : Nat
  fmt : Word
  macks : List Mack := []
  colSums : List Nat := []
  rowSums : List Nat := []
  deriving DecidableEq, Repr

/-- The checksum status of a core (R206) and its records (R204): that of the checksummed MCALL issued last, at the end, and before it those
that an accepted drain still compares with. -/
structure Checksum where
  ccnt : Nat := 0
  ucnt : Nat := 0
  crow : Nat := 0
  ccol : Nat := 0
  lastu : Bool := false
  records : List CkRecord := []
  deriving DecidableEq, Repr

/-- An operation on a scale record that an earlier access or a drain has held back (R178 to R183, R263): VAMAX with its magnitude and the
open value w (log 22); XSCALE; XQBX with its mantissa width, mask, source row and nf; XDQBX with its FMT and rm too. -/
inductive RecordOp where
  | amax (w : Word) (mag : Nat)
  | scale
  | quant (b : Nat) (m : MaskBits) (a : Row) (nf : Bool)
  | dequant (fmt : Word) (rm : Nat) (m : MaskBits) (a : Row) (nf : Bool)
  deriving DecidableEq, Repr

/-- A core's control state (10 R238, 13 R286 to R291, R380, 19 R363, R367). stretched is the end of a slice that R286 has stretched, stretchFor the
queue whose run it waits for, while that run lasts. -/
structure Core where
  owner : Option Nat := none
  queues : List Queue := List.replicate 8 {}
  sliceStart : Nat := 0
  slice : Nat := Config.defaultSlice
  nextSlice : Nat := Config.defaultSlice
  stretched : Option Nat := none
  stretchFor : Option Nat := none
  idleUntil : Option Nat := none
  pendRanks : List (Nat × Nat) := []
  width : Nat := 1
  allot : List Word := [0, 0, 0, 0]
  launchId : Word := 0
  seed : Word := 0
  budget : Nat := 0
  det : Nat := 0
  switching : Option (Option Nat × Nat) := none
  streamBytes : Nat := 0
  stream : List Byte := []
  dictCount : Nat := 0
  ptBase : Nat := 0
  ptSize : Nat := 0
  rr : Nat := 0
  cktol : Nat := 0
  chk : Checksum := {}
  fenced : Bool := false
  outOfService : Bool := false
  mapFn : Nat := 0
  writePending : List (Nat × Nat) := []
  deriving DecidableEq, Repr

/-- What an access does at its home; column is a VLDB of that slice offset that a drain has held back, whose home is the BOS (R210, R218). -/
inductive AccessKind where
  | load
  | store
  | atomic (op : Nat) (size : Nat) (b c : Word) (sub : Nat)
  | barInit (target : Nat)
  | treeInit (header : List Byte)
  | arrive (amount : Nat)
  | barWait (phase : Bool)
  | waitVal (value : Word) (size cond : Nat)
  | contribute (lane : Nat)
  | rowAdd
  | drainRow (cmd row : Nat)
  | record (op : RecordOp)
  | column (off : Nat)
  deriving DecidableEq, Repr

/-- How far the translation of a device virtual access has come (R240 to R245): none for another window; a walk not ended; a
store held by a range under migration (R253); the physical address; a fault of R245 by its SUB (R299). -/
inductive Translation where
  | none
  | waiting
  | held (entry : Nat)
  | done (pa : Nat)
  | fault (sub : Nat)
  deriving DecidableEq, Repr

/-- A part of an engine's access that lies in one page: its address, its length, its translation (R243). -/
structure PagePart where
  va : Nat
  n : Nat
  trans : Translation
  deriving DecidableEq, Repr

/-- Whether a translation is still to come: its walk has not ended, or its range is under migration. -/
def Translation.isOpen (t : Translation) : Bool := match t with | .waiting | .held _ => true | _ => false

/-- One indivisible unit of an access that has not performed (R258 to R260): who issued it, what and where, the cycle at_ at
which it performs unless its dependences hold it back, its formula bound (R256) and what R257 may add, whether its data miss the
promise, whether a store that is late owes a timing fault (R268), the work that precedes it, and the bytes a load takes from the
commit window (R125); heldAt is the cycle in which a store was issued that such a window has held, pieces the pages of a drain row. -/
structure Access where
  id : Nat
  q : Nat
  fn : Nat := 0
  launch : Option Nat := none
  slot : Nat
  addr : Nat
  kind : AccessKind
  va : Nat
  size : Nat
  bytes : List Byte := []
  poison : List Bool := []
  flight : Option Nat := none
  offset : Nat := 0
  issue : Nat
  at_ : Nat
  bound : Nat := 0
  extra : Nat := 0
  lost : Bool := false
  timed : Bool := false
  performed : Bool := false
  deps : Hold := {}
  fwd : List (Nat × Byte × Bool) := []
  trans : Translation := .none
  engine : Bool := false
  pass : Option Nat := none
  hnd : Bool := false
  origin : Option Nat := none
  heldAt : Option Nat := none
  pieces : List PagePart := []
  deriving DecidableEq, Repr

/-- A store of the own scratchpad not yet released to others than the core's sequencers (R262): the sequencer, the loads it waits for and
the bytes others still see. -/
structure Unreleased where
  core : Nat
  q : Nat := 0
  off : Nat
  old : List (Byte × Bool)
  loads : List Nat
  deriving DecidableEq, Repr

/-- The kinds of XE command, and SRCMD, with what each reads at issue (R186). -/
inductive CommandKind where
  | mcall (rtn : Nat)
  | drain (form : Nat) (row0 nrow : Nat) (clamp ck : Bool) (target : Word) (triple : Nat)
  | zero (row0 nrow : Nat)
  | mucld (src : Nat) (control : Word)
  | mbld (src off n : Nat)
  | srd (step stack descriptor : Nat)
  deriving DecidableEq, Repr

/-- The state of a running routine (R191): the next microword, clocks spent, the mp copies, the A feed (a tile row or an address,
with its mp index), B offset, product index, the current C row (XA128 or not, first ACS row, number), loop counts by microword,
the accumulations of the rows begun (none for a poisoned column), the checksum's own ones, the MACKs made, the groups left of a
MACK and the idle clocks left. -/
structure Routine where
  pc : Nat := 0
  clocks : Nat := 0
  mp : List Word := []
  aRow : Option (Nat × Nat) := none
  aBase : Nat := 0
  mpIndex : Nat := 0
  bOff : Nat := 0
  k : Nat := 0
  cur : Option (Bool × Nat × Nat) := none
  loops : SMap Nat := []
  accs : SMap (List (Option Nat)) := []
  sumAccs : SMap (List (Option Nat)) := []
  flags : FlagSet := {}
  sums : Bool := false
  macks : List Mack := []
  left : Nat := 0
  idle : Nat := 0
  ended : Bool := false
  deriving DecidableEq, Repr

/-- An engine command (R186, R187): start S, duration D, the cycle at which MBLD and MUCLD read their source, the FMT, mp
registers read at issue; the bytes that an MBLD or MUCLD has read; the MCALL whose checksums a drain with ck = 1 compares with (R205); hnd that
a handler issued it (R298). -/
structure Command where
  id : Nat
  q : Nat
  kind : CommandKind
  issue : Nat
  start : Nat
  dur : Nat
  readAt : Nat
  fmt : Word
  mp : List Word := []
  slot : Nat := 5
  addr : Nat
  started : Bool := false
  stopped : Bool := false
  routine : Routine := {}
  bytes : List Byte := []
  poison : List Bool := []
  hold : Hold := {}
  compares : Option Nat := none
  fn : Nat := 0
  hnd : Bool := false
  deriving DecidableEq, Repr

/-- A chunk of a copy that has been issued (R216): its bytes, the earliest cycle of its read, its source's pages and its destination's
translation; whether it has been read, and its CRC mismatches. -/
structure Chunk where
  n : Nat
  at_ : Nat
  src : List PagePart
  dst : Translation := .none
  read : Bool := false
  crc : Nat := 0
  deriving DecidableEq, Repr

/-- A copy (R215 to R217), or the fill of PROBE slot probe (R213): cursor in bytes done, the chunks issued from there on, suspended or
not, and the fault just met; nextAt is the earliest cycle at which its next chunk is issued. -/
structure Copy where
  id : Nat
  q : Nat
  fn : Nat := 0
  launch : Option Nat := none
  op : Nat
  ch : Nat
  src : Nat
  dst : Nat
  len : Nat
  tag : BitVec 16
  bar : Nat
  start : Nat
  cursor : Nat := 0
  chunks : List Chunk := []
  nextAt : Nat := 0
  suspended : Bool := false
  faulted : Bool := false
  fault : Option (Nat × Nat) := none
  probe : Option Nat := none
  slot : Nat
  addr : Nat
  hold : Hold := {}
  deriving DecidableEq, Repr

/-- One page translation held by a TLB (R243). -/
structure TlbEntry where
  fn : Nat
  base : Nat
  size : Nat
  pa : Nat
  writable : Bool
  hostShared : Bool
  own : Bool
  deriving DecidableEq, Repr

/-- A page-table walk (R243): the die, the function, the page address it was begun for, and who waits for it. -/
structure Walk where
  id : Nat
  die : Nat
  core : Nat
  fn : Nat
  page : Nat
  at_ : Nat
  started : Bool
  waiters : List Nat
  deriving DecidableEq, Repr

/-- One row of the tile staging store (R197): its address as the handle gave it at the command's issue (R21) and its pages; present once it
has arrived, bad when it met a fault or came after bound; hold is the drained work that its fetch waits for (R265). -/
structure Staged where
  va : Nat := 0
  parts : List PagePart := []
  hold : Hold := {}
  present : Bool := false
  bad : Bool := false
  bound : Nat := 0
  bytes : List Byte := []
  poison : List Bool := []
  deriving DecidableEq, Repr

/-- A register save area of a queue that does not own its core (R287): the whole state that one core holds. -/
structure SavedCore where
  core : Core
  seqs : List Seq
  scalars : SMap SReg
  masks : SMap MReg
  glints : SMap SReg
  laneFlags : SMap MaskBits
  rows : SMap Row
  mps : SMap Word
  ths : SMap (BitVec 128)
  spd : Memory
  spdPoison : SMap UnitMark
  tags : SMap (BitVec 16)
  bos : Memory
  bosPoison : SMap UnitMark
  dict : SMap BundleWord
  ucode : SMap Word
  routines : SMap Word
  cht : SMap (BitVec 128)
  ptt : SMap PttEntry
  staging : SMap Staged
  deriving DecidableEq, Repr

/-- A stage of a range's move or of a layer's map-out that cannot go on yet (R251, R253). -/
inductive PutOff where
  | range (entry newOffset stage : Nat)
  | layer (stack layer stage : Nat)
  deriving DecidableEq, Repr

/-- Where an image of a kernel goes (05 R102, R103): the scratchpad, the BOS (4 KiB for each column in turn), device memory. -/
inductive ImagePlace where
  | spd | bos | device
  deriving DecidableEq, Repr

/-- A data or tile image of a kernel: its place, its offset or device virtual address, its bytes. -/
structure DataImage where
  place : ImagePlace := .spd
  off : Nat
  bytes : List Byte
  deriving DecidableEq, Repr

/-- A kernel as the loader holds it, under the number that an entry of a LAUNCH packet's image table names (log 3, log 13). -/
structure Kernel where
  stream : List Byte := []
  dict : List BundleWord := []
  ucode : List (Nat × Word) := []
  routines : List (Nat × Word) := []
  cht : List (Nat × BitVec 128) := []
  data : List DataImage := []
  deriving DecidableEq, Repr

/-- An accepted launch (R280, R284): its packet's fields and the cores on which it is not yet done. -/
structure Launch where
  id : Nat
  fn : Nat
  ring : Nat
  pix : Nat
  queue : Nat
  task : Bool
  width : Nat
  dreq : Nat
  dprom : Nat
  level : Nat
  launchId : Nat
  seed : Nat
  budget : Nat
  run0 : Nat
  allot : List Word
  cores : List Nat
  images : List Nat
  taskList : Nat := 0
  ntask : Nat := 0
  startAt : Option Nat := none
  remaining : List Nat
  packet : BitVec 2048 := 0
  deriving DecidableEq, Repr

end Sys2Proof.Machine
end

