-- ==== Sys2Proof/Machine/Chip.lean ====
section
/-! DEFINITION. The module-level records: host interface, translation, stacks, link, time base, stack reducers, journal,
function resets, Lantern (10, 13, 15, 17, 18, 19). -/

namespace Sys2Proof.Machine

/-- The ring registers of one function (13 R282), the records that wait for space, and the MSI-X messages raised. -/
structure Ring where
  cmdBase : Nat := 0
  cmdLog : Nat := 0
  cmdTail : Nat := 0
  cmdHead : Nat := 0
  cplBase : Nat := 0
  cplLog : Nat := 0
  cplHead : Nat := 0
  cplTail : Nat := 0
  en : Bool := false
  irq : Bool := false
  waiting : List (BitVec 128) := []
  messages : Nat := 0
  deriving DecidableEq, Repr

/-- An event record (19 R372). -/
structure Posted where
  time : Nat
  code : Nat
  fn : Nat
  place : Nat
  addr : Nat
  info : Nat
  deriving DecidableEq, Repr

/-- AER status of a function (19 R361): corrected, uncorrectable, advisory, the first 16 bytes of the last record, and the
messages sent (1 ERR_COR, 2 ERR_NONFATAL, 3 ERR_FATAL). -/
structure Aer where
  corrected : Bool := false
  uncorrectable : Bool := false
  advisory : Bool := false
  headerLog : BitVec 128 := 0
  messages : List Nat := []
  deriving DecidableEq, Repr

/-- One HBM4 stack (10 R248 to R252): layers in service, takeover with its basis and rate, retrain, the rate of each layer as a multiple
of nominal, the highest rates reported with their cycles, heartbeats, the cycle of the last evaluation, a handback with its boundary; waits holds
the saves that a deferred retrain waits for, each by its core and the cycle of its switch; leavingHost says that the host driver moves what lies in
the layer that leaves (R369), selfRefresh that a thermal trip has put the stack into self-refresh (R376). -/
structure Stack where
  good : BitVec 16 := 0xFFFF
  tko : Bool := false
  src : Nat := 0
  rtd : Bool := false
  waits : List (Nat × Nat) := []
  retrain : Bool := false
  leaving : Option Nat := none
  leavingHost : Bool := false
  selfRefresh : Bool := false
  rates : List Nat := List.replicate 16 1
  reports : List (Nat × Nat) := []
  lastBeat : Nat := 0
  beats : Nat := 0
  handback : Bool := false
  handbackAt : Nat := 0
  tkoRate : Nat := 0
  evalAt : Nat := 0
  deriving DecidableEq, Repr

/-- The rate at which a layer is refreshed: its own, or during a takeover that of the SCT (R249, R250). -/
def Stack.rate (t : Stack) (layer : Nat) : Nat := if t.tko then t.tkoRate else t.rates.getD layer 1

/-- What leaves a port (15 R310 to R312, R328; acknowledgements and forwarded commits of a journal, 17 R338, R340). -/
inductive LinkOut where
  | flit (f : Flit)
  | ack (lseq : Nat)
  | retry (lseq : Nat)
  | pause (lane : Nat)
  | journalAck (number : Nat)
  | commit (number : Nat)
  deriving DecidableEq, Repr

/-- A flit in a lane's receive queue, with its arrival cycle. -/
structure Received where
  lane : Nat
  at_ : Nat
  flit : Flit
  deriving DecidableEq, Repr

/-- A Kwalin port (15 R309 to R312): link state; the next LSEQ, the unacknowledged flits and the replays of the oldest of them;
the flits not yet started, each with the element it belongs to (0 for none); how many flits of a replay have left; the paused lanes
with the cycle their pause ends; the receive side, whose pausing holds the lanes it keeps paused with the cycle of the next beat, and which
repeats a retry beat at retryAt; and when the line is free, in 425ths of a cycle (R309). -/
structure Port where
  up : Bool := true
  lseq : Nat := 0
  retry : List (Nat × Flit × Nat) := []
  replayed : Nat := 0
  replays : Nat := 0
  waiting : List (Flit × Nat) := []
  resend : Option Nat := none
  paused : List (Nat × Nat) := []
  expect : Nat := 0
  discarding : Bool := false
  retryAt : Nat := 0
  good : Nat := 0
  pausing : List (Nat × Nat) := []
  queues : List Received := []
  out : List LinkOut := []
  freeAt : Nat := 0
  deriving DecidableEq, Repr

/-- A channel element on its way (R317, R318): to a core of this module, or to module and lane remote, with its destination core in the
element; at_ is the earliest cycle of its arrival there, hold the drained work it waits for (R265, R272); q is the sequencer of a CHSEND, none
for an emission, which no drain covers (R269); fn is the function of its issuer (R348). -/
structure Sent where
  at_ : Nat
  q : Option Nat := none
  element : Element
  id : Nat
  fn : Nat := 0
  hold : Hold := {}
  remote : Option (Nat × Nat) := none
  started : Bool := false
  deriving DecidableEq, Repr

/-- The time base unit's status (15 R327). -/
structure Tbu where
  lock : Bool := false
  isRef : Bool := false
  src : Nat := 31
  hops : Nat := 0
  theta : Nat := 0xFFFF
  asym : Nat := 0
  resid : Nat := 0xFFFF
  ptheta : Nat := 0xFFFF
  deriving DecidableEq, Repr

/-- A step of a stack reducer (8 R224, 15 R320 to R326): its descriptor, the sequencer that issued it, its CHT entry, whether it
has begun, the completion cycle chosen once its inputs are there, the chunks taken in the order they came: sender, bytes, poison,
SIG; and, once its output is written and sent, the name of the flits that the step's completion waits for. -/
structure SrdStep where
  id : Nat
  q : Nat
  fn : Nat
  launch : Option Nat := none
  step : Nat
  stack : Nat
  dst : Nat
  srca : Nat
  srcb : Nat
  len : Nat
  chan : Nat
  seq : Nat
  bar : Nat
  member : Nat
  entry : BitVec 128
  addr : Nat
  slot : Nat
  begun : Bool := false
  ready : Option Nat := none
  taken : List (Nat × List Byte × List Bool × Word) := []
  out : Option Nat := none
  deriving DecidableEq, Repr

/-- The state of a tree object beside its memory (8 R219): the leaves of the round with their poison, and the contributions held. -/
structure TreeState where
  leaves : List (Nat × List Bool) := []
  held : List (Nat × List Byte × List Bool) := []
  deriving DecidableEq, Repr

/-- One held emission, or a MARK's entry, of the emit buffer (17 R339); sent names the element that has left for a
channel (R269). -/
structure Emit where
  number : Nat
  target : Word
  silent : Bool
  payload : Word
  q : Nat
  slot : Nat
  addr : Nat
  fn : Nat
  launch : Option Nat
  replay : Bool
  sent : Option Nat := none
  hold : Hold := {}
  deriving DecidableEq, Repr

/-- An entry whose held emission is discarded: it stays until its record is durable (R291, R339). -/
def Emit.discarded (e : Emit) : Emit := if e.sent.isNone then { e with silent := true } else e

/-- The mirror journal (17 R335 to R344): the pairing registers' fields, the own ring, the hosted ring, and the JNE's own
bookkeeping of expected numbers, marks and times: sentAt holds the cycle at which each record not yet durable was first sent, tags the
function of each unreleased record (R348), heard the number that the present partner acknowledged last (R346), freed the last cycle in which a JTRUNC released MARKs and how many (R347), spareAck what a spare under
reseeding has acknowledged. -/
structure Journal where
  partner : Nat := 0
  pval : Bool := false
  state : Nat := 0
  ract : Bool := false
  rseed : Nat := 0
  ackb : Nat := 20000
  spares : Word := 0
  ringBase : Nat := 0
  ringLog : Nat := 0
  localBase : Nat := 0
  spareBase : Nat := 0
  hostBase : Nat := 0
  hostLog : Nat := 0
  hv : Bool := false
  wfail : Bool := false
  writer : Nat := 0
  tail : Nat := 0
  dur : Nat := 0
  head : Nat := 0
  cur : Nat := 0
  wcom : Nat := 0
  pcom : Nat := 0
  marks : List Nat := []
  hostedHead : Nat := 0
  hostedNext : Nat := 0
  hostedMarks : List Nat := []
  hostedCom : Nat := 0
  matched : List Nat := []
  sentAt : List (Nat × Nat) := []
  tags : List (Nat × Nat) := []
  heard : Option Nat := none
  freed : Nat × Nat := (0, 0)
  resentAt : Nat := 0
  spareAck : Nat := 0
  heardAt : Nat := 0
  deriving DecidableEq, Repr

/-- VFRSTAT of a VF and its reset in progress (18 R352, R356): F, the cycles at which steps 4 and 5 come;
contain names the launches of a VF that class 2 events have ended (19 R370). -/
structure VfReset where
  contain : List Nat := []
  busy : Bool := false
  step : Nat := 0
  ndrop : Nat := 0
  ndisc : Nat := 0
  start : Nat := 0
  four : Nat := 0
  until_ : Nat := 0
  deriving DecidableEq, Repr

/-- The step that a reset is in at cycle t (R352). -/
def VfReset.stepAt (r : VfReset) (t : Nat) : Nat :=
  if r.step = 2 && t = r.start then 1 else if r.step = 3 && r.four ≤ t then 4 else r.step

/-- Lantern (0 R7, 19 R371 to R377): both image banks, the staged one, the fuse counter, the readings, bring-up, the signed report; the
physical cores, 272 x die + core, known to be bad, and the logical cores that do not lie on the physical core of their own number, with
the one they lie on. -/
structure Lantern where
  active : Option FirmwareImage := none
  inactive : Option FirmwareImage := none
  staged : Bool := false
  fuse : Nat := 0
  sensors : SMap Int := []
  heat : List Nat := []
  heatAt : Nat := 0
  powered : Bool := true
  perst : Option Nat := none
  upAt : Option Nat := none
  up : Bool := true
  report : List Word := []
  badCores : List Nat := []
  coreMap : List (Nat × Nat) := []
  deriving DecidableEq, Repr

/-- A Quiesce in progress or complete (13 R303): its packet's ring and index, its deadline, its buffer, cut or not; reseed says that it arrived
while a spare was being reseeded (R347), own that Lantern issued it (R368; log 86). -/
structure Quiesce where
  fn : Nat
  ring : Nat
  pix : Nat
  deadline : Nat
  buf : Nat
  len : Nat
  cut : Bool := false
  cutCyc : Nat := 0
  own : Bool := false
  reseed : Bool := false
  deriving DecidableEq, Repr

/-- What uses the translations that an invalidation drops, until it is done (R244): accesses; copies, each with the byte that its chunks issued
before end at; rows of the staging stores by key and address. -/
structure Invalidation where
  accs : List Nat := []
  copies : List (Nat × Nat) := []
  rows : List (Nat × Nat) := []
  deriving DecidableEq, Repr

/-- The module's control state outside the cores; answers are the completions of host-link requests (function, bytes, status), hostHeld
the host's writes to ranges under migration, each with the name that the next access would have had when it came; msix the MSI-X messages sent and msixPending those that a mask holds back
(function, vector); bars the PF's BAR 0, its BAR 2 and the VFs' BAR 0 (R366). -/
structure Chip where
  modId : Nat := 0
  vfEnable : Bool := false
  numVfs : Nat := 0
  rings : SMap Ring := []
  levels : SMap Nat := []
  log : List Posted := []
  flash : List Posted := []
  aer : SMap Aer := []
  fatal : Bool := false
  halted : Bool := false
  ranges : SMap (BitVec 192) := []
  moving : List (Nat × Nat) := []
  roots : SMap Word := []
  l1 : SMap (List TlbEntry) := []
  tlb : SMap (List TlbEntry) := []
  invLo : Word := 0
  invHi : Word := 0
  invFn : Nat := 0
  invDone : Bool := false
  invalidating : Option Invalidation := none
  owners : SMap Nat := []
  ovf : SMap Word := []
  hbmStacks : SMap Stack := []
  ports : SMap Port := []
  routes : SMap Word := []
  routeHold : SMap (List (Flit × Nat)) := []
  noRoute : SMap Nat := []
  tbu : Tbu := {}
  srds : SMap (List SrdStep) := []
  refused : List (Nat × Nat × Nat) := []
  sigs : SMap Word := []
  trees : SMap TreeState := []
  journal : Journal := {}
  emits : List Emit := []
  duty : Word := 0
  cap : Nat := 4400
  meas : Nat := 0
  idleGrants : Nat := 0
  vfr : SMap VfReset := []
  lantern : Lantern := {}
  quiesces : List Quiesce := []
  msix : List (Nat × Nat) := []
  msixPending : List (Nat × Nat) := []
  bars : SMap Word := []
  answers : List (Nat × List Byte × Nat) := []
  hostHeld : List (Nat × Nat × List Byte × Nat) := []
  msixTable : SMap Word := []
  elements : List Sent := []
  nextElem : Nat := 1
  deriving DecidableEq, Repr

end Sys2Proof.Machine
end

