-- ==== Sys2Proof/Machine/State.lean ====
section
/-! DEFINITION. The machine's state: every piece of state the manual names, held as plain data. Cores are numbered
256 x die + core, sequencers 4 x core + sequencer; a file of registers is one sparse map over all of them. -/

namespace Sys2Proof.Machine

/-- Why a run stops with a fault. -/
inductive Fault where
  /-- Raised by step when the module has no power, or a thermal trip has stopped its dies, and no input is to come (R376, R377).
  Safe: nothing runs there. -/
  | moduleStopped
  deriving DecidableEq, Repr

/-- Why an instruction has no meaning. -/
inductive Refusal where
  /-- Raised by exec for an instruction whose meaning has not been written. Safe: the run stops. -/
  | notModelled (mnemonic : String)
  deriving DecidableEq, Repr

/-- Where in a cycle the machine stands (log 4): the reads of the cycle before, due events, the bundles of the cores in ascending order, the end of
the cycle. -/
inductive Phase where
  | reads
  | events
  | issue (core : Nat)
  | close
  deriving DecidableEq, Repr

/-- The sequencer and slot that a slot operation executed alone stands in (log 12). -/
structure Cursor where
  q : Nat := 0
  slot : Nat := 0
  deriving DecidableEq, Repr

/-- Work in progress: the agenda of due events (log 4), results in flight, accesses, engine commands, copies, walks, launches,
the pages whose walk has ended in a fault that a reader or writer of the SL4's or of a reducer still waits to meet (die, function, page; log 84), the stages put off
to a cycle, the places, lengths and ranks of the writes that this cycle's events have performed (R258),
and the model's own counters of free choices and names (log 2). -/
structure Work where
  agenda : List (Nat × Instr) := []
  flights : List Flight := []
  flagPosts : List FlagPost := []
  accesses : List Access := []
  commands : List Command := []
  copies : List Copy := []
  walks : List Walk := []
  failed : List (Nat × Nat × Nat) := []
  putOff : List (Nat × PutOff) := []
  wrote : List (Nat × Nat × Nat) := []
  unreleased : List Unreleased := []
  launches : List Launch := []
  free : Nat := 0
  nextId : Nat := 0
  deriving DecidableEq, Repr

/-- The machine. -/
structure State where
  cyc : Nat
  gtime : Nat
  phase : Phase
  cur : Cursor
  seqs : SMap Seq
  scalars : SMap SReg
  masks : SMap MReg
  glints : SMap SReg
  laneFlags : SMap MaskBits
  cores : SMap Core
  rows : SMap Row
  mps : SMap Word
  ths : SMap (BitVec 128)
  spd : Memory
  spdPoison : SMap UnitMark
  tags : SMap (BitVec 16)
  bos : Memory
  bosPoison : SMap UnitMark
  dict : SMap BundleWord
  ucode : SMap Word
  routines : SMap Word
  cht : SMap (BitVec 128)
  ptt : SMap PttEntry
  staging : SMap Staged
  sye : Memory
  syePoison : SMap UnitMark
  hbm : Memory
  hbmPoison : SMap UnitMark
  host : Memory
  saved : List (Nat × SavedCore)
  kernels : List (Nat × Kernel)
  work : Work
  chip : Chip
  deriving DecidableEq, Repr

/-- The machine right after reset: CYC 0, every sequencer idle, every memory and register at its reset value, nothing in
progress (R19, R33, 18 R354; log 1, log 2, log 8). -/
def State.reset : State where
  cyc := 0
  gtime := 0
  phase := .reads
  cur := {}
  seqs := []
  scalars := []
  masks := []
  glints := []
  laneFlags := []
  cores := []
  rows := []
  mps := []
  ths := []
  spd := []
  spdPoison := []
  tags := []
  bos := []
  bosPoison := []
  dict := []
  ucode := []
  routines := []
  cht := []
  ptt := []
  staging := []
  sye := []
  syePoison := []
  hbm := []
  hbmPoison := []
  host := []
  saved := []
  kernels := []
  work := {}
  chip := {}

end Sys2Proof.Machine
end

