-- ==== Sys2Proof/Machine/Act.lean ====
section
/-! DEFINITION. The micro-operations every meaning is made of: each changes one thing of the state, and a meaning is the
list of those it performs. Reads of memory, registers and rows stand beside them. -/

namespace Sys2Proof.Machine

/-- The homes of memory (R258), and the BOS (R234), which has none but is held the same way. -/
inductive Home where
  | spd (core : Nat)
  | bos (core : Nat)
  | sye (die : Nat)
  | hbm
  | host
  deriving DecidableEq, Repr

/-- Where byte a of a home lies in the memory that holds all homes of its kind. -/
def Home.key : Home → Nat → Nat
  | .spd c, a => c * Config.spdBytes + a
  | .bos c, a => c * Config.bosBytes + a
  | .sye d, a => d * Config.syeSram + a
  | .hbm, a => a
  | .host, a => a

/-- One number for a byte of any home. -/
def Home.code (h : Home) (a : Nat) : Nat :=
  (match h with | .spd _ => 0 | .bos _ => 1 | .sye _ => 2 | .hbm => 3 | .host => 4) * 2 ^ 64 + h.key a

/-- A micro-operation. -/
inductive Act where
  | scalar (q r : Nat) (v : SReg)
  | mask (q r : Nat) (v : MReg)
  | glint (q r : Nat) (v : SReg)
  | lanes (q k : Nat) (v : MaskBits)
  | row (c n : Nat) (w : RowWrite)
  | flipRow (c n : Nat) (f : BitVec 256)
  | mp (c i : Nat) (v : Word)
  | th (c i : Nat) (v : BitVec 128)
  | write (h : Home) (a : Nat) (bytes : List Byte) (poison : List Bool)
  | mark (h : Home) (unit : Nat) (m : UnitMark)
  | wipe (h : Home) (a n : Nat)
  | record (c off : Nat) (f : List Byte → List Byte)
  | tag (c block : Nat) (v : BitVec 16)
  | dict (c n : Nat) (v : BundleWord)
  | ucode (c n : Nat) (v : Word)
  | routine (c n : Nat) (v : Word)
  | cht (c n : Nat) (v : BitVec 128)
  | ptt (c n : Nat) (v : PttEntry)
  | stage (k : Nat) (v : Staged)
  | seq (q : Nat) (f : Seq → Seq)
  | core (c : Nat) (f : Core → Core)
  | work (f : Work → Work)
  | chip (f : Chip → Chip)
  | clearSeq (q : Nat)
  | clearCore (c : Nat)
  | save (c k : Nat)
  | restore (c k : Nat)
  | forget (k : Nat)
  | stow (k : Nat) (v : SavedCore)
  | unload
  | phase (p : Phase)
  | cursor (q slot : Nat)
  | tick
  | gtime (n : Nat)

/-- The flipped units of a row that a write leaves: those it does not cover whole. -/
def RowWrite.leaves (w : RowWrite) (flip : BitVec 256) : BitVec 256 :=
  if flip = 0 then 0
  else (List.range 256).foldl (fun f k => if w.dataMask.extractLsb' (64 * k) 64 = BitVec.allOnes 64 then f &&& ~~~((1 : BitVec 256) <<< k) else f) flip

/-- A row after a write to it (R23). -/
def Row.apply (r : Row) (w : RowWrite) : Row :=
  ⟨(r.data &&& ~~~w.dataMask) ||| (w.data &&& w.dataMask), (r.poison &&& ~~~w.poisonMask) ||| (w.poison &&& w.poisonMask),
    (r.mark &&& ~~~w.markMask) ||| (w.mark &&& w.markMask), w.leaves r.flip⟩

/-- What n units of memory record after bytes are written from address a (R211): a unit that a poisoned byte touches is
poisoned; one that unpoisoned bytes cover whole is clear; any other keeps its mark. -/
def poisonUnits (p : SMap UnitMark) (a : Nat) (ps : List Bool) : Nat → SMap UnitMark
  | 0 => p
  | n + 1 =>
    let u := a / 8 + n
    let p' := poisonUnits p a ps n
    let inUnit := (List.range 8).map (fun k => if a ≤ 8 * u + k then ps[8 * u + k - a]? else none)
    if inUnit.any (fun x => x = some true) then SMap.set .clear p' u .stored
    else if inUnit.all (fun x => x = some false) then SMap.set .clear p' u .clear
    else p'

/-- The units that n bytes from address a touch. -/
def unitCount (a n : Nat) : Nat := if n = 0 then 0 else (a + n - 1) / 8 - a / 8 + 1

namespace State

/-- The bytes of a home's kind. -/
def mem (s : State) : Home → Memory
  | .spd _ => s.spd
  | .bos _ => s.bos
  | .sye _ => s.sye
  | .hbm => s.hbm
  | .host => s.host

/-- The poison marks of a home's kind (R211, R234); host memory keeps none. -/
def marks (s : State) : Home → SMap UnitMark
  | .spd _ => s.spdPoison
  | .bos _ => s.bosPoison
  | .sye _ => s.syePoison
  | .hbm => s.hbmPoison
  | .host => []

/-- The state with other bytes and marks for a home's kind. -/
def setMem (s : State) (h : Home) (m : Memory) (p : SMap UnitMark) : State :=
  match h with
  | .spd _ => { s with spd := m, spdPoison := p }
  | .bos _ => { s with bos := m, bosPoison := p }
  | .sye _ => { s with sye := m, syePoison := p }
  | .hbm => { s with hbm := m, hbmPoison := p }
  | .host => { s with host := m }

def seqOf (s : State) (q : Nat) : Seq := SMap.get {} s.seqs q
def coreOf (s : State) (c : Nat) : Core := SMap.get {} s.cores c
def rowOf (s : State) (c n : Nat) : Row := SMap.get {} s.rows (512 * c + n)
def readByte (s : State) (h : Home) (a : Nat) : Byte := Memory.read (s.mem h) (h.key a)
def readBytes (s : State) (h : Home) (a n : Nat) : List Byte := Memory.readBytes (s.mem h) (h.key a) n
def unitMark (s : State) (h : Home) (a : Nat) : UnitMark := SMap.get .clear (s.marks h) (h.key a / 8)
def unitPoisoned (s : State) (h : Home) (a : Nat) : Bool := (s.unitMark h a).bad
/-- Whether each of n bytes lies in a poisoned unit. -/
def readPoison (s : State) (h : Home) (a n : Nat) : List Bool := (List.range n).map (fun i => s.unitPoisoned h (a + i))

/-- Core c's part, of w keys, of a map. -/
def getPart {α : Type} (m : SMap α) (c w : Nat) : SMap α :=
  (m.filter (fun e => c * w ≤ e.1 && e.1 < c * w + w)).map (fun e => (e.1 - c * w, e.2))

/-- The saved state of core c, as R287 saves it. -/
def snapshot (s : State) (c : Nat) : SavedCore :=
  { core := s.coreOf c, seqs := (List.range 4).map (fun i => s.seqOf (4 * c + i)), scalars := getPart s.scalars c 256
    masks := getPart s.masks c 64, glints := getPart s.glints c 16, laneFlags := getPart s.laneFlags c 96, rows := getPart s.rows c 512
    mps := getPart s.mps c 8, ths := getPart s.ths c 64, spd := getPart s.spd c Config.spdBytes
    spdPoison := getPart s.spdPoison c (Config.spdBytes / 8), tags := getPart s.tags c 1024, bos := getPart s.bos c Config.bosBytes
    bosPoison := getPart s.bosPoison c (Config.bosBytes / 8), dict := getPart s.dict c 4096, ucode := getPart s.ucode c 4096
    routines := getPart s.routines c 256, cht := getPart s.cht c 256, ptt := getPart s.ptt c 1024
    staging := getPart s.staging c 2048 }

end State

/-- A map with core c's part, of w keys, replaced. -/
def putPart {α : Type} [DecidableEq α] (d : α) (m : SMap α) (c w : Nat) (p : SMap α) : SMap α :=
  SMap.putAll d (SMap.clear m (c * w) w) ((p.filter (fun e => e.1 < w)).map (fun e => (e.1 + c * w, e.2)))

/-- A core with another's launch state: what belongs to the program that runs, not to the core's queues and slices (R287). -/
def Core.withProgram (y v : Core) : Core :=
  { y with width := v.width, allot := v.allot, launchId := v.launchId, seed := v.seed, budget := v.budget, det := v.det
           streamBytes := v.streamBytes, stream := v.stream, dictCount := v.dictCount, ptBase := v.ptBase, ptSize := v.ptSize
           rr := v.rr, cktol := v.cktol, chk := v.chk, writePending := v.writePending }

/-- The state with core c's registers and stores as saved (R287); the core's queues and slices are its own. -/
def State.putCore (s : State) (c : Nat) (v : SavedCore) : State :=
  { s with
    cores := SMap.set {} s.cores c ((s.coreOf c).withProgram v.core)
    seqs := (List.range 4).foldl (fun m i => SMap.set {} m (4 * c + i) (v.seqs.getD i {})) s.seqs
    scalars := putPart {} s.scalars c 256 v.scalars, masks := putPart {} s.masks c 64 v.masks
    glints := putPart {} s.glints c 16 v.glints, laneFlags := putPart 0 s.laneFlags c 96 v.laneFlags
    rows := putPart {} s.rows c 512 v.rows, mps := putPart 0 s.mps c 8 v.mps, ths := putPart 0 s.ths c 64 v.ths
    spd := putPart 0 s.spd c Config.spdBytes v.spd, spdPoison := putPart .clear s.spdPoison c (Config.spdBytes / 8) v.spdPoison
    tags := putPart 0 s.tags c 1024 v.tags, bos := putPart 0 s.bos c Config.bosBytes v.bos
    bosPoison := putPart .clear s.bosPoison c (Config.bosBytes / 8) v.bosPoison, dict := putPart 0 s.dict c 4096 v.dict
    ucode := putPart 0 s.ucode c 4096 v.ucode, routines := putPart 0 s.routines c 256 v.routines
    cht := putPart 0 s.cht c 256 v.cht, ptt := putPart {} s.ptt c 1024 v.ptt
    staging := putPart {} s.staging c 2048 v.staging }

/-- What one micro-operation does. s0 and m0 ignore writes (R19). -/
def applyAct (a : Act) (s : State) : State :=
  match a with
  | .scalar q r v => if r = 0 then s else { s with scalars := SMap.set {} s.scalars (64 * q + r) v }
  | .mask q r v => if r = 0 then s else { s with masks := SMap.set {} s.masks (16 * q + r) v }
  | .glint q r v => { s with glints := SMap.set {} s.glints (4 * q + r) v }
  | .lanes q k v => { s with laneFlags := SMap.set 0 s.laneFlags (24 * q + k) v }
  | .row c n w => { s with rows := SMap.set {} s.rows (512 * c + n) ((s.rowOf c n).apply w) }
  | .flipRow c n f => { s with rows := SMap.set {} s.rows (512 * c + n) { s.rowOf c n with flip := f } }
  | .mp c i v => { s with mps := SMap.set 0 s.mps (8 * c + i) v }
  | .th c i v => { s with ths := SMap.set 0 s.ths (64 * c + i) v }
  | .write h a bs ps =>
    s.setMem h (Memory.write (s.mem h) (h.key a) bs) (poisonUnits (s.marks h) (h.key a) ps (unitCount (h.key a) ps.length))
  | .mark h u m => s.setMem h (s.mem h) (SMap.set .clear (s.marks h) (h.key (8 * u) / 8) m)
  | .wipe h a n =>
    s.setMem h (SMap.clear (s.mem h) (h.key a) n) (SMap.clear (s.marks h) (h.key a / 8) (unitCount (h.key a) n))
  | .record c off f =>
    let h := Home.spd c
    s.setMem h (Memory.write (s.mem h) (h.key off) ((f (s.readBytes h off 32)).take 32)) (s.marks h)
  | .tag c b v => { s with tags := SMap.set 0 s.tags (1024 * c + b) v }
  | .dict c n v => { s with dict := SMap.set 0 s.dict (4096 * c + n) v }
  | .ucode c n v => { s with ucode := SMap.set 0 s.ucode (4096 * c + n) v }
  | .routine c n v => { s with routines := SMap.set 0 s.routines (256 * c + n) v }
  | .cht c n v => { s with cht := SMap.set 0 s.cht (256 * c + n) v }
  | .ptt c n v => { s with ptt := SMap.set {} s.ptt (1024 * c + n) v }
  | .stage k v => { s with staging := SMap.set {} s.staging k v }
  | .seq q f => { s with seqs := SMap.set {} s.seqs q (f (s.seqOf q)) }
  | .core c f => { s with cores := SMap.set {} s.cores c (f (s.coreOf c)) }
  | .work f => { s with work := f s.work }
  | .chip f => { s with chip := f s.chip }
  | .clearSeq q =>
    { s with scalars := SMap.clear s.scalars (64 * q) 64, masks := SMap.clear s.masks (16 * q) 16
             glints := SMap.clear s.glints (4 * q) 4, laneFlags := SMap.clear s.laneFlags (24 * q) 24 }
  | .clearCore c =>
    { s with rows := SMap.clear s.rows (512 * c) 512, mps := SMap.clear s.mps (8 * c) 8, ths := SMap.clear s.ths (64 * c) 64
             spd := SMap.clear s.spd (c * Config.spdBytes) Config.spdBytes
             spdPoison := SMap.clear s.spdPoison (c * (Config.spdBytes / 8)) (Config.spdBytes / 8)
             tags := SMap.clear s.tags (1024 * c) 1024, bos := SMap.clear s.bos (c * Config.bosBytes) Config.bosBytes
             bosPoison := SMap.clear s.bosPoison (c * (Config.bosBytes / 8)) (Config.bosBytes / 8)
             dict := SMap.clear s.dict (4096 * c) 4096, ucode := SMap.clear s.ucode (4096 * c) 4096
             routines := SMap.clear s.routines (256 * c) 256, cht := SMap.clear s.cht (256 * c) 256
             ptt := SMap.clear s.ptt (1024 * c) 1024, staging := SMap.clear s.staging (2048 * c) 2048 }
  | .save c k => { s with saved := (k, s.snapshot c) :: s.saved.filter (fun e => e.1 ≠ k) }
  | .restore c k =>
    match s.saved.find? (fun e => e.1 = k) with
    | some e => { (s.putCore c e.2) with saved := s.saved.filter (fun x => x.1 ≠ k) }
    | none => s
  | .stow k v => { s with saved := (k, v) :: s.saved.filter (fun e => e.1 ≠ k) }
  | .forget k => { s with saved := s.saved.filter (fun e => e.1 ≠ k) }
  | .unload =>
    { s with seqs := [], scalars := [], masks := [], glints := [], laneFlags := [], cores := [], rows := [], mps := [], ths := []
             spd := [], spdPoison := [], tags := [], bos := [], bosPoison := [], dict := [], ucode := [], routines := []
             cht := [], ptt := [], staging := [], sye := [], syePoison := [], saved := [], cyc := 0, gtime := 0 }
  | .phase p => { s with phase := p }
  | .cursor q n => { s with cur := ⟨q, n⟩ }
  | .gtime n => { s with gtime := s.gtime + n }
  | .tick => { s with cyc := s.cyc + 1, gtime := s.gtime + 1 }

/-- Performs a list of micro-operations in order. -/
def applyActs : List Act → State → State
  | [], s => s
  | a :: l, s => applyActs l (applyAct a s)

/-- The next state after a list of micro-operations. -/
def done (l : List Act) (s : State) : Host.Outcome State Fault Refusal := .next (applyActs l s)

/-! Free choices and reads inside a penumbra (R27). -/

/-- The open choice with number k of this step (log 2). -/
def State.choice (s : State) (k : Nat) : Nat := Config.freeNat (s.work.free + k)

/-- The open lane set with number k of this step (log 2). -/
def State.choiceMask (s : State) (k : Nat) : MaskBits := Config.freeMask (s.work.free + k)

/-- Whether a result is held in place for its sequencer's handler: it may not land (R143, R298). -/
def Flight.held (f : Flight) : Bool :=
  match f.mode with
  | .frozen _ | .returning _ | .landed _ => true
  | .live | .latched _ => false

/-- The rows a result covers. -/
def Value.rowCount : Value → Nat
  | .rows ws => ws.length
  | _ => 1

/-- Whether a latch protects its destination, row n of it for rows, from the handler's writes: from the trap until it lands (R298). -/
def Flight.protects (g : Flight) (d : Dest) (n : Nat) : Bool :=
  (match g.mode with | .frozen _ | .returning _ => true | .live => g.returned | _ => false) &&
    (match g.dest, d with
     | .mask a, .mask b => a = b
     | .rows a, .rows _ => a ≤ n && n < a + g.val.rowCount
     | _, _ => false)

/-- Whether a result is a handler's write to a mask or to row n that a latch protects, which leaves it unchanged (R298). -/
def shielded (fs : List Flight) (f : Flight) (n : Nat) : Bool := f.hnd && fs.any (fun g => g.q = f.q && g.protects f.dest n)

/-- The results in flight of a register whose value has arrived, in issue order (R27). -/
def State.inFlight (s : State) (q : Nat) (d : Dest) : List Flight :=
  s.work.flights.filter (fun f => f.q = q && f.dest = d && f.missing = 0 && !shielded s.work.flights f 0 &&
    (match f.mode with | .landed _ => false | _ => true))

/-- One of the values a read may return: the settled one or that of any write in flight (R27). -/
def pick {α : Type} (s : State) (k : Nat) (base : α) : List α → α
  | [] => base
  | v :: l => pick s (k + 1) (if s.choice k % 2 = 1 then v else base) l

/-- Scalar register r as read by sequencer q (R19, R27); s0 reads zero. k numbers the choice. -/
def State.readScalar (s : State) (q r k : Nat) : SReg :=
  if r = 0 then {}
  else
    pick s k (SMap.get {} s.scalars (64 * q + r))
      ((s.inFlight q (.scalar r)).map (fun f => match f.val with | .word v p => ⟨v, p⟩ | _ => {}))

/-- Mask register r as read by sequencer q (R19, R27); m0 reads all ones. -/
def State.readMask (s : State) (q r k : Nat) : MReg :=
  if r = 0 then ⟨BitVec.allOnes 1024, false⟩
  else
    pick s k (SMap.get {} s.masks (16 * q + r))
      ((s.inFlight q (.mask r)).map (fun f => match f.val with | .mask v p => ⟨v, p⟩ | _ => {}))

/-- Glint register r as read by sequencer q (R27, R175): the addends in flight are in by any prefix of their issue order. -/
def State.readGlint (s : State) (q r k : Nat) : SReg :=
  let fs := s.inFlight q (.glint r)
  let n := if fs.isEmpty then 0 else s.choice k % (fs.length + 1)
  (fs.take n).foldl (fun g f => match f.val with | .word v p => ⟨g.val + v, g.poison || p⟩ | _ => g)
    (SMap.get {} s.glints (4 * q + r))

/-- The bits of n lanes of lw bits that a lane set selects. -/
def spread (m lw : Nat) : Nat → Nat
  | 0 => 0
  | n + 1 => spread m lw n + (if m.testBit n then (2 ^ lw - 1) * 2 ^ (n * lw) else 0)

/-- The part of a row write that lies in the lanes of a set, lanes being lw bits wide. -/
def RowWrite.within (w : RowWrite) (sel : MaskBits) (lw : Nat) : RowWrite :=
  let bits : RowBits := BitVec.ofNat _ (spread sel.toNat lw (16384 / lw))
  let words : BitVec 512 :=
    BitVec.ofNat _ ((List.range 512).foldl
      (fun a j => if lw ≤ 32 then (if sel.getLsbD (j * 32 / lw) || (lw = 16 && sel.getLsbD (2 * j + 1)) then a + 2 ^ j else a)
                  else if sel.getLsbD (j * 32 / lw) then a + 2 ^ j else a) 0)
  let marks : BitVec 256 :=
    BitVec.ofNat _ ((List.range 128).foldl (fun a j => if sel.getLsbD (j * 128 / lw) then a + 3 * 2 ^ (2 * j) else a) 0)
  { w with dataMask := w.dataMask &&& bits, poisonMask := w.poisonMask &&& words, markMask := w.markMask &&& marks }

/-- A row write of a result without the pieces of a load that have not arrived (R27). -/
def Flight.arrived (f : Flight) (w : RowWrite) : RowWrite := if f.got = BitVec.allOnes 1024 then w else w.within f.got f.gotWidth

/-- The writes in flight to row n of core c, in issue order, of a load the pieces that have arrived (R27). -/
def State.rowFlights (s : State) (c n : Nat) : List RowWrite :=
  s.work.flights.filterMap fun f =>
    match f.dest, f.val with
    | .rows r, .rows ws =>
      if f.q / 4 = c && r ≤ n && !shielded s.work.flights f n then (ws[n - r]?).map f.arrived else none
    | _, _ => none

/-- A row read lane by lane with each write in flight in or out (R27). -/
def overlay (s : State) (lw k : Nat) (r : Row) : List RowWrite → Row
  | [] => r
  | w :: l => overlay s lw (k + 1) (r.apply (w.within (s.choiceMask k) lw)) l

/-- Row n of core c as read in lanes of lw bits (R22, R27). -/
def State.readRow (s : State) (c n lw k : Nat) : Row := overlay s lw k (s.rowOf c n) (s.rowFlights c n)

end Sys2Proof.Machine
end

