-- ==== Sys2Proof/Machine/Float.lean ====
section
/-! DEFINITION. Floating-point numbers and exact arithmetic (03_number_formats.md R40 to R46): every operation computes an
exact dyadic or rational value and rounds it once. -/

namespace Sys2Proof.Machine

/-- The six flags of one lane, bit f being flag code f of R36: IV, DZ, OF, UF, NX position, WRAP tag. -/
abbrev LaneFlags := BitVec 6

def flIV : LaneFlags := 1
def flDZ : LaneFlags := 2
def flOF : LaneFlags := 4
def flUF : LaneFlags := 8
def flNX : LaneFlags := 16
def flWRAP : LaneFlags := 32

/-- A bit pattern with the flags its computation set. -/
structure Flagged where
  bits : Nat
  flags : LaneFlags := 0
  deriving DecidableEq, Repr

/-- A binary floating-point format (R40): exponent and fraction widths. -/
structure FloatFormat where
  expBits : Nat
  fracBits : Nat
  deriving DecidableEq, Repr

def fp32 : FloatFormat := ⟨8, 23⟩
def bf16 : FloatFormat := ⟨8, 7⟩
def fp16 : FloatFormat := ⟨5, 10⟩

namespace FloatFormat
def width (f : FloatFormat) : Nat := 1 + f.expBits + f.fracBits
def expMax (f : FloatFormat) : Nat := 2 ^ f.expBits - 1
/-- The exponent of the smallest normal value: -126 or -14. -/
def emin (f : FloatFormat) : Int := 2 - 2 ^ (f.expBits - 1)
def signBit (f : FloatFormat) : Nat := 2 ^ (f.expBits + f.fracBits)
def inf (f : FloatFormat) (neg : Bool) : Nat := (if neg then f.signBit else 0) + f.expMax * 2 ^ f.fracBits
def maxFinite (f : FloatFormat) (neg : Bool) : Nat := f.inf neg - 1
def zero (f : FloatFormat) (neg : Bool) : Nat := if neg then f.signBit else 0
/-- The default NaN: quiet, positive, no payload (R40, R41). -/
def nan (f : FloatFormat) : Nat := f.inf false + 2 ^ (f.fracBits - 1)
end FloatFormat

/-- What a bit pattern stands for: the finite value is (-1)^neg * m * 2^e. -/
inductive FloatVal where
  | nan (signalling : Bool)
  | inf (neg : Bool)
  | fin (neg : Bool) (m : Nat) (e : Int)
  deriving DecidableEq, Repr

/-- The value of a pattern (R40). -/
def FloatFormat.value (f : FloatFormat) (b : Nat) : FloatVal :=
  let neg := b / f.signBit % 2 = 1
  let ex := b / 2 ^ f.fracBits % 2 ^ f.expBits
  let fr := b % 2 ^ f.fracBits
  if ex = f.expMax then
    if fr = 0 then .inf neg else .nan (fr < 2 ^ (f.fracBits - 1))
  else if ex = 0 then .fin neg fr (f.emin - f.fracBits)
  else .fin neg (fr + 2 ^ f.fracBits) (f.emin - f.fracBits + ((ex : Int) - 1))

def FloatVal.isNaN : FloatVal → Bool
  | .nan _ => true
  | _ => false

def FloatVal.isSignalling : FloatVal → Bool
  | .nan s => s
  | _ => false

/-- The rounding modes (R42). -/
inductive Rounding where
  | rne | rtz | rdn | rup | rna
  deriving DecidableEq, Repr

/-- The mode of a code 1 to 5 (R42); other codes never reach here and read as RNE. -/
def Rounding.ofCode (c : Nat) : Rounding :=
  if c = 2 then .rtz else if c = 3 then .rdn else if c = 4 then .rup else if c = 5 then .rna else .rne

/-- Whether the magnitude i + r/d is rounded up to i + 1. -/
def Rounding.up (rm : Rounding) (neg : Bool) (i r d : Nat) : Bool :=
  match rm with
  | .rne => decide (d < 2 * r) || (decide (2 * r = d) && i % 2 = 1)
  | .rna => decide (d ≤ 2 * r)
  | .rtz => false
  | .rdn => neg && r != 0
  | .rup => !neg && r != 0

/-- The exponent of a positive rational: the greatest k with 2^k at most n/d. -/
def floorLog2 (n d : Nat) : Int :=
  let k : Int := (Nat.log2 n : Int) - (Nat.log2 d : Int)
  let le := if 0 ≤ k then d * 2 ^ k.toNat ≤ n else d ≤ n * 2 ^ (-k).toNat
  if le then k else k - 1

/-- The quotient and remainder of n/d * 2^e by 2^q, as integer part, remainder and divisor. -/
def scaled (n d : Nat) (e q : Int) : Nat × Nat × Nat :=
  let n' := if 0 ≤ e - q then n * 2 ^ (e - q).toNat else n
  let d' := if 0 ≤ e - q then d else d * 2 ^ (q - e).toNat
  (n' / d', n' % d', d')

/-- Rounds the nonzero value (-1)^neg * n/d * 2^e once to a format, with OF, UF and NX by R43. -/
def roundRat (f : FloatFormat) (rm : Rounding) (neg : Bool) (n d : Nat) (e : Int) : Flagged :=
  let ex := floorLog2 n d + e
  let q := max (ex - f.fracBits) (f.emin - f.fracBits)
  let (i, r, d') := scaled n d e q
  let i' := if rm.up neg i r d' then i + 1 else i
  let mag := (q - (f.emin - f.fracBits)).toNat * 2 ^ f.fracBits + i'
  let sgn := if neg then f.signBit else 0
  if f.expMax * 2 ^ f.fracBits ≤ mag then
    let toInf := match rm with
      | .rne | .rna => true
      | .rtz => false
      | .rdn => neg
      | .rup => !neg
    ⟨if toInf then f.inf neg else f.maxFinite neg, flOF ||| flNX⟩
  else
    let tiny :=
      if f.emin ≤ ex then false
      else if ex < f.emin - 1 then true
      else
        let (j, r2, d2) := scaled n d e (ex - f.fracBits)
        !(rm.up neg j r2 d2 && j + 1 = 2 ^ (f.fracBits + 1))
    ⟨sgn + mag, if r = 0 then 0 else if tiny then flUF ||| flNX else flNX⟩

/-- Rounds the dyadic value n * 2^e; an exact zero takes the given sign. -/
def roundDyadic (f : FloatFormat) (rm : Rounding) (zeroNeg : Bool) (n : Int) (e : Int) : Flagged :=
  if n = 0 then ⟨f.zero zeroNeg, 0⟩ else roundRat f rm (n < 0) n.natAbs 1 e

/-- The signed integer of a sign and a magnitude. -/
def signed (neg : Bool) (m : Nat) : Int := if neg then -(m : Int) else m

/-- The exact sum of two dyadics. -/
def dyAdd (n1 : Int) (e1 : Int) (n2 : Int) (e2 : Int) : Int × Int :=
  let e := min e1 e2
  (n1 * 2 ^ (e1 - e).toNat + n2 * 2 ^ (e2 - e).toNat, e)

/-- The sign of a zero sum of two values of the given signs (IEEE 754-2019, R116). -/
def zeroSumNeg (rm : Rounding) (s1 s2 bothZero : Bool) : Bool :=
  if bothZero && s1 = s2 then s1 else rm = .rdn

/-- The default NaN, with IV when asked (R41). -/
def nanResult (f : FloatFormat) (iv : Bool) : Flagged := ⟨f.nan, if iv then flIV else 0⟩

/-- rnd(x + y) of two decoded values (R116). -/
def addVal (f : FloatFormat) (rm : Rounding) (x y : FloatVal) : Flagged :=
  match x, y with
  | .nan s, .nan t => nanResult f (s || t)
  | .nan s, _ => nanResult f s
  | _, .nan t => nanResult f t
  | .inf s, .inf t => if s = t then ⟨f.inf s, 0⟩ else nanResult f true
  | .inf s, _ => ⟨f.inf s, 0⟩
  | _, .inf t => ⟨f.inf t, 0⟩
  | .fin s m e, .fin t n e' =>
    let (v, ev) := dyAdd (signed s m) e (signed t n) e'
    roundDyadic f rm (zeroSumNeg rm s t (m = 0 && n = 0)) v ev

/-- The value with its sign inverted. -/
def FloatVal.neg : FloatVal → FloatVal
  | .nan s => .nan s
  | .inf n => .inf !n
  | .fin n m e => .fin (!n) m e

def fadd (f : FloatFormat) (rm : Rounding) (a b : Nat) : Flagged := addVal f rm (f.value a) (f.value b)
def fsub (f : FloatFormat) (rm : Rounding) (a b : Nat) : Flagged := addVal f rm (f.value a) (f.value b).neg

/-- rnd(x * y) (R116). -/
def mulVal (f : FloatFormat) (rm : Rounding) (x y : FloatVal) : Flagged :=
  match x, y with
  | .nan s, .nan t => nanResult f (s || t)
  | .nan s, _ => nanResult f s
  | _, .nan t => nanResult f t
  | .inf s, .inf t => ⟨f.inf (s != t), 0⟩
  | .inf s, .fin t m _ => if m = 0 then nanResult f true else ⟨f.inf (s != t), 0⟩
  | .fin s m _, .inf t => if m = 0 then nanResult f true else ⟨f.inf (s != t), 0⟩
  | .fin s m e, .fin t n e' => roundDyadic f rm (s != t) (signed (s != t) (m * n)) (e + e')

def fmul (f : FloatFormat) (rm : Rounding) (a b : Nat) : Flagged := mulVal f rm (f.value a) (f.value b)

/-- rnd(x * y + z) with one rounding (R41, R116): a product of zero and infinity sets IV whatever z holds. -/
def fmaVal (f : FloatFormat) (rm : Rounding) (x y z : FloatVal) : Flagged :=
  let invalidProduct := match x, y with
    | .inf _, .fin _ m _ => decide (m = 0)
    | .fin _ m _, .inf _ => decide (m = 0)
    | _, _ => false
  if x.isNaN || y.isNaN || z.isNaN || invalidProduct then
    nanResult f (x.isSignalling || y.isSignalling || z.isSignalling || invalidProduct)
  else
    match x, y, z with
    | .fin s m e, .fin t n e', .fin u k e'' =>
      let (v, ev) := dyAdd (signed (s != t) (m * n)) (e + e') (signed u k) e''
      roundDyadic f rm (zeroSumNeg rm (s != t) u (m * n = 0 && k = 0)) v ev
    | .fin _ _ _, .fin _ _ _, .inf u => ⟨f.inf u, 0⟩
    | x, y, z =>
      let sgn := fun (v : FloatVal) => match v with | .fin n _ _ => n | .inf n => n | .nan _ => false
      let p := sgn x != sgn y
      match z with
      | .inf u => if u = p then ⟨f.inf p, 0⟩ else nanResult f true
      | _ => ⟨f.inf p, 0⟩

def ffma (f : FloatFormat) (rm : Rounding) (a b c : Nat) : Flagged := fmaVal f rm (f.value a) (f.value b) (f.value c)
/-- a * b - d, with d's sign bit inverted (R159). -/
def ffms (f : FloatFormat) (rm : Rounding) (a b c : Nat) : Flagged := fmaVal f rm (f.value a) (f.value b) (f.value c).neg

/-- rnd(a / b), with DZ for a finite nonzero dividend over zero (R43). -/
def fdiv (f : FloatFormat) (rm : Rounding) (a b : Nat) : Flagged :=
  match f.value a, f.value b with
  | .nan s, .nan t => nanResult f (s || t)
  | .nan s, _ => nanResult f s
  | _, .nan t => nanResult f t
  | .inf _, .inf _ => nanResult f true
  | .inf s, .fin t _ _ => ⟨f.inf (s != t), 0⟩
  | .fin s _ _, .inf t => ⟨f.zero (s != t), 0⟩
  | .fin s m e, .fin t n e' =>
    if n = 0 then
      if m = 0 then nanResult f true else ⟨f.inf (s != t), flDZ⟩
    else if m = 0 then ⟨f.zero (s != t), 0⟩
    else roundRat f rm (s != t) m n (e - e')

/-- The integer square root, by k halvings of the exponent: the greatest r below 2^k with r*r at most n. -/
def isqrtBits (n : Nat) : Nat → Nat → Nat
  | 0, r => r
  | k + 1, r => let t := r + 2 ^ k; isqrtBits n k (if t * t ≤ n then t else r)

def isqrt (n : Nat) : Nat := isqrtBits n (Nat.log2 n / 2 + 1) 0

/-- rnd of the square root (R184). -/
def fsqrt (f : FloatFormat) (rm : Rounding) (a : Nat) : Flagged :=
  match f.value a with
  | .nan s => nanResult f s
  | .inf s => if s then nanResult f true else ⟨f.inf false, 0⟩
  | .fin s m e =>
    if m = 0 then ⟨f.zero s, 0⟩
    else if s then nanResult f true
    else
      let odd := e % 2 = 1
      let big := (if odd then 2 * m else m) * 2 ^ 120
      let e' := (if odd then e - 1 else e) / 2 - 60
      let r := isqrt big
      roundRat f rm false (2 * r + if r * r = big then 0 else 1) 1 (e' - 1)

/-- rnd of the reciprocal square root (R184): both zeros give an infinity of their sign, with DZ. -/
def frsqrt (f : FloatFormat) (rm : Rounding) (a : Nat) : Flagged :=
  match f.value a with
  | .nan s => nanResult f s
  | .inf s => if s then nanResult f true else ⟨f.zero false, 0⟩
  | .fin s m e =>
    if m = 0 then ⟨f.inf s, flDZ⟩
    else if s then nanResult f true
    else
      let odd := e % 2 = 1
      let m' := if odd then 2 * m else m
      let h := (if odd then e - 1 else e) / 2
      let r := isqrt (2 ^ 160 / m')
      roundRat f rm false (2 * r + if r * r * m' = 2 ^ 160 then 0 else 1) 1 (-81 - h)

/-- A key that orders the non-NaN patterns of a format, -0 below +0 (R118). -/
def FloatFormat.key (f : FloatFormat) (b : Nat) : Int :=
  let mag := b % f.signBit
  if b / f.signBit % 2 = 1 then -(mag : Int) - 1 else mag

/-- Minimum and maximum by R118: the default NaN when either operand is NaN, IV if either is signalling. -/
def fminmax (f : FloatFormat) (wantMax : Bool) (a b : Nat) : Flagged :=
  let x := f.value a
  let y := f.value b
  if x.isNaN || y.isNaN then nanResult f (x.isSignalling || y.isSignalling)
  else ⟨if (f.key a < f.key b) = wantMax then b else a, 0⟩

/-- How two non-NaN values compare, the zeros being equal; none for unordered. -/
def fcompare (f : FloatFormat) (a b : Nat) : Option Int :=
  if (f.value a).isNaN || (f.value b).isNaN then none
  else
    let z := fun (v : Nat) => if v % f.signBit = 0 then 0 else v
    some (f.key (z a) - f.key (z b))

/-- The floating column of R84 with the NaN rules of R118: the truth of the condition, and IV. -/
def fcond (f : FloatFormat) (code a b : Nat) : Bool × LaneFlags :=
  let sig := (f.value a).isSignalling || (f.value b).isSignalling
  match fcompare f a b with
  | none =>
    let res := code = 1 || code = 10
    let iv := sig || (2 ≤ code && code ≤ 5)
    (res, if iv then flIV else 0)
  | some c =>
    let res :=
      if code = 0 then decide (c = 0) else if code = 1 then decide (c ≠ 0) else if code = 2 then decide (c < 0)
      else if code = 3 then decide (c ≤ 0) else if code = 4 then decide (0 < c) else if code = 5 then decide (0 ≤ c)
      else code = 11
    (res, 0)

/-- The integer column of R84, on w-bit patterns. -/
def icond (w code a b : Nat) : Bool :=
  let sa := (BitVec.ofNat w a).toInt
  let sb := (BitVec.ofNat w b).toInt
  match code with
  | 0 => decide (a = b)
  | 1 => decide (a ≠ b)
  | 2 => decide (sa < sb)
  | 3 => decide (sa ≤ sb)
  | 4 => decide (sb < sa)
  | 5 => decide (sb ≤ sa)
  | 6 => decide (a < b)
  | 7 => decide (a ≤ b)
  | 8 => decide (b < a)
  | 9 => decide (b ≤ a)
  | _ => false

/-- clamp(d, a, b) by R159: the default NaN when any is NaN; a when d is below a, else b when a is above b or d above b. -/
def fclamp (f : FloatFormat) (d a b : Nat) : Flagged :=
  let vs := [f.value d, f.value a, f.value b]
  if vs.any FloatVal.isNaN then nanResult f (vs.any FloatVal.isSignalling)
  else if f.key d < f.key a then ⟨a, 0⟩
  else if f.key b < f.key a then ⟨b, 0⟩
  else if f.key b < f.key d then ⟨b, 0⟩
  else ⟨d, 0⟩

/-- The value rounded to an integer: the integer and whether it is exact. -/
def roundInt (rm : Rounding) (neg : Bool) (m : Nat) (e : Int) : Int × Bool :=
  let (i, r, d) := scaled m 1 e 0
  (signed neg (if rm.up neg i r d then i + 1 else i), r = 0)

/-- Conversion to a w-bit integer between lo and hi (R44, R117): saturation and NaN set IV, an inexact result NX. -/
def toInt (f : FloatFormat) (rm : Rounding) (lo hi : Int) (w a : Nat) : Flagged :=
  let put := fun (i : Int) (fl : LaneFlags) => (⟨(BitVec.ofInt w i).toNat, fl⟩ : Flagged)
  match f.value a with
  | .nan _ => put 0 flIV
  | .inf s => put (if s then lo else hi) flIV
  | .fin s m e =>
    let (i, exact) := roundInt rm s m e
    if hi < i then put hi flIV else if i < lo then put lo flIV else put i (if exact then 0 else flNX)

/-- Conversion of an integer times 2^e to a float (R117, R46); zero gives +0. -/
def ofInt (f : FloatFormat) (rm : Rounding) (i : Int) (e : Int) : Flagged := roundDyadic f rm false i e

/-- Conversion between float formats (R117, R164): a NaN becomes the default NaN, IV if signalling. -/
def fconvert (src dst : FloatFormat) (rm : Rounding) (a : Nat) : Flagged :=
  match src.value a with
  | .nan s => nanResult dst s
  | .inf s => ⟨dst.inf s, 0⟩
  | .fin s m e => roundDyadic dst rm s (signed s m) e

/-- FP32 to FX32 (R45), always RNE. -/
def toFx (a : Nat) : Flagged :=
  match fp32.value a with
  | .nan _ => ⟨0, flIV⟩
  | .inf s => ⟨if s then 0x80000000 else 0x7FFFFFFF, flOF ||| flNX⟩
  | .fin s m e =>
    let (q, exact) := roundInt .rne s m (e + 24)
    let n := max (-2 ^ 31) (min (2 ^ 31 - 1) q)
    ⟨(BitVec.ofInt 32 n).toNat, if q ≠ n then flOF ||| flNX else if exact then 0 else flNX⟩

/-- FX32 to FP32 (R46). -/
def ofFx (rm : Rounding) (a : Nat) : Flagged := ofInt fp32 rm (BitVec.ofNat 32 a).toInt (-24)

/-- FX32 addition and subtraction (R162): a wrap sets the NX position and the WRAP tag. -/
def fxAdd (sub : Bool) (a b : Nat) : Flagged :=
  let x := (BitVec.ofNat 32 a).toInt
  let y := (BitVec.ofNat 32 b).toInt
  let t := if sub then x - y else x + y
  let d := (BitVec.ofInt 32 t)
  ⟨d.toNat, if d.toInt = t then 0 else flNX ||| flWRAP⟩

end Sys2Proof.Machine
end

