-- ==== Sys2Proof/Machine/Exact.lean ====
section
/-! DEFINITION. The exact accumulator XA128, the three-term split, BX blocks and the quantiser, statistics triples and the
correctly rounded special functions (03_number_formats.md R47 to R67, 07 R184). -/

namespace Sys2Proof.Machine

/-- An XA128 lane: N and the two marks P and Q (R47). -/
structure Xa where
  n : BitVec 128 := 0
  p : Bool := false
  q : Bool := false
  deriving DecidableEq, Repr

/-- Conversion of a real dyadic value i * 2^e into XA128 with anchor A (R48): floor, marks past the threshold 2^(A+15). -/
def xaOfDyadic (anchor : Int) (i e : Int) : Xa × LaneFlags :=
  let sh := e - (anchor - 96)
  let num := i * 2 ^ sh.toNat
  let den : Int := 2 ^ (-sh).toNat
  let fl := num / den
  if 2 ^ 111 * den ≤ num then (⟨0, true, false⟩, 0)
  else if num ≤ -(2 ^ 111 * den) then (⟨0, false, true⟩, 0)
  else (⟨BitVec.ofInt 128 fl, false, false⟩, if fl * den = num then 0 else flNX)

/-- Conversion of a decoded value into XA128 (R48). -/
def xaOfVal (anchor : Int) : FloatVal → Xa × LaneFlags
  | .nan _ => (⟨0, true, true⟩, flIV)
  | .inf false => (⟨0, true, false⟩, 0)
  | .inf true => (⟨0, false, true⟩, 0)
  | .fin s m e => xaOfDyadic anchor (signed s m) e

/-- Conversion of FP32 into XA128 (R48). -/
def xaOfF32 (anchor : Int) (a : Nat) : Xa × LaneFlags := xaOfVal anchor (fp32.value a)

/-- XA128 addition (R49). -/
def Xa.add (a b : Xa) : Xa := ⟨a.n + b.n, a.p || b.p, a.q || b.q⟩

/-- Conversion of XA128 to FP32 (R50). -/
def Xa.toF32 (anchor : Int) (rm : Rounding) (a : Xa) : Flagged :=
  if a.p && a.q then nanResult fp32 true
  else if a.p then ⟨fp32.inf false, flOF ||| flNX⟩
  else if a.q then ⟨fp32.inf true, flOF ||| flNX⟩
  else roundDyadic fp32 rm false a.n.toInt (anchor - 96)

/-- The three-term split (R62): hi, mid and lo in BF16, and the flags. -/
def split3 (x : Nat) : Nat × Nat × Nat × LaneFlags :=
  match fp32.value x with
  | .nan s => (0x7FC0, 0x7FC0, 0x7FC0, if s then flIV else 0)
  | .inf s => (bf16.inf s, 0, 0, 0)
  | .fin s m e =>
    let v := signed s m
    let h0 := (roundDyadic bf16 .rne s v e).bits
    let hi := if h0 % bf16.signBit = bf16.inf false then bf16.maxFinite s else h0
    let val := fun (b : Nat) => match bf16.value b with | .fin t k f => (signed t k, f) | _ => (0, 0)
    let sub := fun (a b : Int × Int) => dyAdd a.1 a.2 (-b.1) b.2
    let r1 := sub (v, e) (val hi)
    let mid := (roundDyadic bf16 .rne false r1.1 r1.2).bits
    let r2 := sub r1 (val mid)
    let lo := (roundDyadic bf16 .rne false r2.1 r2.2).bits
    (hi, mid, lo, if (sub r2 (val lo)).1 = 0 then 0 else flNX)

/-- The value of a BX element (R51) before rounding: mantissa m of width b, exponent byte E, group scale pattern G. -/
inductive BxVal where
  | nan (invalid : Bool)
  | inf (neg : Bool)
  | dy (i e : Int) (neg : Bool)
  deriving DecidableEq, Repr

def bxValue (b : Nat) (m : Int) (ex g : Nat) : BxVal :=
  if ex = 0 then .dy 0 0 false
  else if ex = 0xFF then .nan false
  else
    match bf16.value g with
    | .nan signalling => .nan signalling
    | .inf s => if m = 0 then .nan true else .inf (s != decide (m < 0))
    | .fin s k e => .dy (signed s k * m) (e + (ex : Int) - 127 - ((b : Int) - 1)) (s != decide (m < 0))

/-- The FP32 value of a BX element, rounded once (R183): the NaN of E = 0xFF raises no flag; zero times an infinite G and a signalling
NaN G are invalid, as R51 and R41 have it. -/
def bxToF32 (rm : Rounding) (b : Nat) (m : Int) (ex g : Nat) : Flagged :=
  match bxValue b m ex g with
  | .nan invalid => nanResult fp32 invalid
  | .inf s => ⟨fp32.inf s, 0⟩
  | .dy i e s => roundDyadic fp32 rm s i e

/-- The rational i/d rounded to the nearest integer, ties to even. -/
def rneRat (i : Int) (d : Nat) : Int :=
  let q := i / (d : Int)
  let r := i - q * d
  if (d : Int) < 2 * r || (2 * r = d && q % 2 = 1) then q + 1 else q

/-- The common integers of a list of dyadics: each value is its integer times 2^e. -/
def alignDyadics (l : List (Int × Int)) : List Int × Int :=
  let e := l.foldl (fun a x => min a x.2) 0
  (l.map (fun x => x.1 * 2 ^ (x.2 - e).toNat), e)

/-- One candidate exponent of the quantiser's search: its mantissas, and the squared error in units of 2^(2k) / dn^2. -/
structure BxTry where
  ex : Int
  ms : List Int
  err : Int
  k : Int
  dn : Nat

/-- The candidate of exponent ex for elements i * 2^(e - ge) / gm, with step 2^k (R53). -/
def BxTry.of (b : Nat) (ys : List Int) (gm : Nat) (e ex : Int) : BxTry :=
  let k := ex - 127 - ((b : Int) - 1)
  let sh := e - k
  let up : Int := 2 ^ sh.toNat
  let dn : Nat := gm * 2 ^ (-sh).toNat
  let ms := ys.map (fun i => max (-2 ^ (b - 1)) (min (2 ^ (b - 1) - 1) (rneRat (i * up) dn)))
  ⟨ex, ms, (ys.zip ms).foldl (fun a x => a + (x.1 * up - x.2 * dn) * (x.1 * up - x.2 * dn)) 0, k, dn⟩

/-- The candidate with the least error; the larger exponent on equal error (R53). -/
def BxTry.best (p q : BxTry) : BxTry :=
  let kmin := min p.k q.k
  let a : Int := p.err * 2 ^ (2 * (p.k - kmin)).toNat * (q.dn * q.dn : Nat)
  let c : Int := q.err * 2 ^ (2 * (q.k - kmin)).toNat * (p.dn * p.dn : Nat)
  if a < c || (a = c && q.ex < p.ex) then p else q

/-- The quantiser (R53): the exponent byte, the mantissas and the flags of one block of FP32 patterns. -/
def quantise (b : Nat) (xs : List Nat) (g : Nat) : Nat × List Int × LaneFlags :=
  let vals := xs.map fp32.value
  let bad := vals.any (fun v => match v with | .fin .. => false | _ => true)
  match bf16.value g with
  | .fin gs gm ge =>
    if bad || gm = 0 then (0xFF, xs.map (fun _ => 0), flIV)
    else
      let al := alignDyadics (vals.map (fun v => match v with | .fin s m e => (signed s m, e) | _ => (0, 0)))
      let ys := al.1.map (fun i => if gs then -i else i)
      let m := ys.foldl (fun a y => max a y.natAbs) 0
      if m = 0 then (0, xs.map (fun _ => 0), 0)
      else
        let e0 := floorLog2 m gm + al.2 - ge + 127
        let cand := fun (x : Int) => BxTry.of b ys gm (al.2 - ge) (max 1 (min 254 x))
        let r := ((cand (e0 - 1)).best (cand e0)).best (cand (e0 + 1))
        (r.ex.toNat, r.ms, if r.err = 0 then 0 else flNX)
  | _ => (0xFF, xs.map (fun _ => 0), flIV)

/-- A statistics triple: W, mean and M2 as FP32 patterns (R63). -/
structure Triple where
  w : Nat
  mean : Nat
  m2 : Nat
  deriving DecidableEq, Repr

/-- A triple with the flags its computation set. -/
structure TripleF where
  t : Triple
  flags : LaneFlags := 0
  deriving DecidableEq, Repr

def Triple.empty : Triple := ⟨0, 0, 0⟩
def Triple.invalid : Triple := ⟨0x7FC00001, 0x7FC00001, 0x7FC00001⟩
def Triple.isEmpty (t : Triple) : Bool := t.w % fp32.signBit = 0
def Triple.isInvalid (t : Triple) : Bool := (fp32.value t.w).isNaN

/-- A chain of FP32 steps rounded RNE, gathering flags and whether one produced a NaN (R63). -/
structure Chain where
  bits : Nat
  flags : LaneFlags := 0
  nan : Bool := false
  deriving DecidableEq, Repr

def Chain.ofBits (b : Nat) : Chain := ⟨b, 0, false⟩
def Chain.op (g : Nat → Nat → Flagged) (a b : Chain) : Chain :=
  let r := g a.bits b.bits
  ⟨r.bits, a.flags ||| b.flags ||| r.flags, a.nan || b.nan || (fp32.value r.bits).isNaN⟩
def Chain.add := Chain.op (fadd fp32 .rne)
def Chain.sub := Chain.op (fsub fp32 .rne)
def Chain.mul := Chain.op (fmul fp32 .rne)
def Chain.div := Chain.op (fdiv fp32 .rne)

/-- A triple from its three computed parts: the invalid code with IV when any step produced a NaN (R63), and with the flags that the other
steps have set (DESIGN CHOICE, log 75: R63's table names IV, R64 and R65 have every line set its own). -/
def finishTriple (w mean m2 : Chain) : TripleF :=
  let fl := w.flags ||| mean.flags ||| m2.flags
  if w.nan || mean.nan || m2.nan then ⟨.invalid, fl ||| flIV⟩ else ⟨⟨w.bits, mean.bits, m2.bits⟩, fl⟩

/-- The update of a triple with data x and weight w (R63, R64); unweighted for VSTATU, whose weight is 1. -/
def Triple.update (t : Triple) (x : Nat) (weight : Option Nat) : TripleF :=
  let one := 0x3F800000
  let w := weight.getD one
  if t.isInvalid then ⟨.invalid, 0⟩
  else if (fp32.value x).isNaN || (fp32.value w).isNaN then ⟨.invalid, flIV⟩
  else if w % fp32.signBit = 0 then ⟨t, 0⟩
  else if fp32.signBit ≤ w then ⟨.invalid, flIV⟩
  else if t.isEmpty then ⟨⟨w, x, 0⟩, 0⟩
  else
    let cw := Chain.ofBits w
    let cx := Chain.ofBits x
    let mean := Chain.ofBits t.mean
    let w' := (Chain.ofBits t.w).add cw
    let d := cx.sub mean
    match weight with
    | none =>
      let mean' := mean.add (d.div w')
      finishTriple w' mean' ((Chain.ofBits t.m2).add (d.mul (cx.sub mean')))
    | some _ =>
      let mean' := mean.add (d.mul (cw.div w'))
      finishTriple w' mean' ((Chain.ofBits t.m2).add ((cw.mul d).mul (cx.sub mean')))

/-- The merge of triples a and b (R63, R65). -/
def Triple.merge (a b : Triple) : TripleF :=
  if a.isInvalid || b.isInvalid then ⟨.invalid, 0⟩
  else if a.isEmpty && b.isEmpty then ⟨.empty, 0⟩
  else if a.isEmpty then ⟨b, 0⟩
  else if b.isEmpty then ⟨a, 0⟩
  else
    let wa := Chain.ofBits a.w
    let wb := Chain.ofBits b.w
    let w := wa.add wb
    let d := (Chain.ofBits b.mean).sub (Chain.ofBits a.mean)
    let mean := (Chain.ofBits a.mean).add (d.mul (wb.div w))
    let m2 := ((Chain.ofBits a.m2).add (Chain.ofBits b.m2)).add ((d.mul d).mul ((wa.mul wb).div w))
    finishTriple w mean m2

/-- The pairs of one level of the tree of R66: neighbours combine, an odd last one passes. -/
def pairUp {α : Type} (g : α → α → α) : List α → List α
  | a :: b :: l => g a b :: pairUp g l
  | l => l

/-- The tree of R66 over a list of leaves, level by level. -/
def tree {α : Type} (g : α → α → α) : Nat → List α → List α
  | 0, l => l
  | k + 1, l => tree g k (pairUp g l)

/-- The FP32 pattern of 2^-e (R29, R67, R172), e from 0 to 31. -/
def epsBits (e : Nat) : Nat := (127 - e) * 2 ^ 23

/-- M2 / W + 2^-e, then its reciprocal square root, rounded RNE (R67, R172). -/
def rstd (t : Triple) (e : Nat) : Chain :=
  let v := (Chain.ofBits t.m2).div (.ofBits t.w)
  let v := v.add (.ofBits (epsBits e))
  let r := frsqrt fp32 .rne v.bits
  ⟨r.bits, v.flags ||| r.flags, v.nan || (fp32.value r.bits).isNaN⟩

/-- The normalised element of MDRAIN.N (R67). -/
def normalise (x : Nat) (t : Triple) (e : Nat) : Flagged :=
  if t.isInvalid then ⟨fp32.nan, flIV⟩
  else if t.isEmpty then ⟨0, flIV⟩
  else
    let y := ((Chain.ofBits x).sub (.ofBits t.mean)).mul (rstd t e)
    ⟨y.bits, y.flags⟩

/-! The special functions (R184). A value that is no dyadic number is computed in fixed point with 400 fraction bits and
rounded as the open interval above that approximation (log 10, UNVERIFIED); the exact cases are taken apart first. -/

def fxBits : Nat := 400
def fxOne : Nat := 2 ^ fxBits
def fxMul (a b : Nat) : Nat := a * b / fxOne

/-- The exponential series of x below 1: terms t, t*x/k, ... -/
def expSeries (x : Nat) : Nat → Nat → Nat → Nat → Nat
  | 0, _, _, acc => acc
  | n + 1, k, t, acc => let t' := fxMul t x / k; expSeries x n (k + 1) t' (acc + t')

/-- e^x for a fixed-point x of at most 2^9: the argument is divided by 2^10 and the result squared ten times. -/
def fxExp (x : Nat) : Nat :=
  let y := expSeries (x / 2 ^ 10) 90 1 fxOne fxOne
  (List.range 10).foldl (fun a _ => fxMul a a) y

/-- The series of atanh z = z + z^3/3 + ... for a fixed-point z, 1 <= k odd. -/
def atanhSeries (z2 : Nat) : Nat → Nat → Nat → Nat → Nat
  | 0, _, _, acc => acc
  | n + 1, k, t, acc => atanhSeries z2 n (k + 2) (fxMul t z2) (acc + t / k)

def fxAtanh (z : Nat) : Nat := atanhSeries (fxMul z z) 140 1 z 0
def fxLn2 : Nat := 2 * fxAtanh (fxOne / 3)

/-- The alternating series of atan z for a fixed-point z below 1. -/
def atanSeries (z2 : Nat) : Nat → Nat → Int → Int → Int
  | 0, _, _, acc => acc
  | n + 1, k, t, acc => atanSeries z2 n (k + 2) (-(t * z2 / fxOne)) (acc + t / k)

/-- 2 pi in fixed point, by Machin's formula. -/
def fxTwoPi : Nat :=
  let at1 := fun (d : Nat) => atanSeries (fxMul (fxOne / d) (fxOne / d)) 90 1 (fxOne / d : Nat) 0
  (2 * (16 * at1 5 - 4 * at1 239)).toNat

/-- The Taylor series of the sine or cosine of a fixed-point angle: the term t of order k is followed by -t*x2/((k+1)(k+2)). -/
def trigSeries (x2 : Nat) : Nat → Nat → Int → Int → Int
  | 0, _, _, acc => acc
  | n + 1, k, t, acc => trigSeries x2 n (k + 2) (-(t * x2 / fxOne) / ((k + 1) * (k + 2) : Nat)) (acc + t)

def fxSin (x : Nat) : Nat := (trigSeries (fxMul x x) 45 1 x 0).toNat
def fxCos (x : Nat) : Nat := (trigSeries (fxMul x x) 45 0 fxOne 0).toNat

/-- Rounds a positive irrational a little above v * 2^e. -/
def roundAbove (rm : Rounding) (neg : Bool) (v : Nat) (e : Int) : Flagged := roundRat fp32 rm neg (2 * v + 1) 1 (e - 1)
/-- Rounds a positive irrational a little below m * 2^e. -/
def roundBelow (rm : Rounding) (neg : Bool) (m : Nat) (e : Int) : Flagged := roundRat fp32 rm neg (m * 2 ^ 80 - 1) 1 (e - 80)

/-- The fixed-point value of m * 2^e. -/
def fxOf (m : Nat) (e : Int) : Nat := if 0 ≤ e + fxBits then m * 2 ^ (e + fxBits).toNat else m / 2 ^ (-(e + fxBits)).toNat

def xexp2 (rm : Rounding) (a : Nat) : Flagged :=
  match fp32.value a with
  | .nan s => nanResult fp32 s
  | .inf s => ⟨if s then 0 else fp32.inf false, 0⟩
  | .fin s m e =>
    let v := signed s m
    let int := if 0 ≤ e then v * 2 ^ e.toNat else v / (2 ^ (-e).toNat : Int)
    let exact := 0 ≤ e || int * 2 ^ (-e).toNat = v
    if 200 ≤ int then roundRat fp32 rm false 1 1 200
    else if int < -400 then roundRat fp32 rm false 1 1 (-400)
    else if exact then roundRat fp32 rm false 1 1 int
    else
      let frac := (v - int * 2 ^ (-e).toNat).toNat
      roundAbove rm false (fxExp (fxMul (fxOf frac e) fxLn2)) (int - fxBits)

def xlog2 (rm : Rounding) (a : Nat) : Flagged :=
  match fp32.value a with
  | .nan s => nanResult fp32 s
  | .inf s => if s then nanResult fp32 true else ⟨fp32.inf false, 0⟩
  | .fin s m e =>
    if m = 0 then ⟨fp32.inf true, flDZ⟩
    else if s then nanResult fp32 true
    else
      let k := Nat.log2 m
      let ex : Int := e + k
      if m = 2 ^ k then ofInt fp32 rm ex 0
      else
        let z := (m - 2 ^ k) * fxOne / (m + 2 ^ k)
        let frac := 2 * fxAtanh z * fxOne / fxLn2
        let v : Int := ex * fxOne + frac
        if 0 ≤ v then roundAbove rm false v.toNat (-(fxBits : Int)) else roundBelow rm true v.natAbs (-(fxBits : Int))

def xrcp (rm : Rounding) (a : Nat) : Flagged := fdiv fp32 rm 0x3F800000 a

def xtanh (rm : Rounding) (a : Nat) : Flagged :=
  match fp32.value a with
  | .nan s => nanResult fp32 s
  | .inf s => ⟨if s then 0xBF800000 else 0x3F800000, 0⟩
  | .fin s m e =>
    if m = 0 then ⟨fp32.zero s, 0⟩
    else
      let ex := floorLog2 m 1 + e
      if ex < -60 then roundBelow rm s m e
      else if 6 ≤ ex then roundBelow rm s 1 0
      else
        let t := fxExp (fxOf m (e + 1))
        roundRat fp32 rm s (2 * ((t - fxOne) * 2 ^ 200 / (t + fxOne)) + 1) 1 (-201)

def xsigm (rm : Rounding) (a : Nat) : Flagged :=
  match fp32.value a with
  | .nan s => nanResult fp32 s
  | .inf s => ⟨if s then 0 else 0x3F800000, 0⟩
  | .fin s m e =>
    if m = 0 then ⟨0x3F000000, 0⟩
    else
      let ex := floorLog2 m 1 + e
      if 8 ≤ ex then
        if s then roundRat fp32 rm false 1 1 (-360) else roundBelow rm false 1 0
      else
        let t := fxExp (fxOf m e)
        let num := if s then fxOne else t
        roundRat fp32 rm false (2 * (num * fxOne / (fxOne + t)) + 1) 1 (-(fxBits : Int) - 1)

/-- sin(2 pi x) for x = r/2^k turns with r/2^k in [0, 1), sine for quarter 0: the quarter turn and what is left of it. -/
def xturn (wantCos : Bool) (rm : Rounding) (a : Nat) : Flagged :=
  match fp32.value a with
  | .nan s => nanResult fp32 s
  | .inf _ => nanResult fp32 true
  | .fin s m e =>
    if m = 0 then (if wantCos then ⟨0x3F800000, 0⟩ else ⟨fp32.zero s, 0⟩)
    else
      let k := (-e).toNat
      let r := if 0 ≤ e then 0 else m % 2 ^ k
      -- quarters of a turn: 4r / 2^k
      let q := 4 * r / 2 ^ k
      let rest := 4 * r - q * 2 ^ k
      -- sign and function: sin(|x|), quarters 0..3; cos shifts by one quarter
      let q' := if wantCos then (q + 1) % 4 else q
      let neg := (2 ≤ q') != (s && !wantCos)
      let useCos := q' % 2 = 1
      if rest = 0 then
        if useCos then ⟨if neg then 0xBF800000 else 0x3F800000, 0⟩ else ⟨0, 0⟩
      else
        -- the angle within the quarter is rest / 2^k quarter turns
        let ex := floorLog2 rest 1 - k
        if ex < -60 then
          if useCos then roundBelow rm neg 1 0
          else roundRat fp32 rm neg (rest * (fxTwoPi / 4)) 1 (-(fxBits : Int) - k)
        else
          let folded := if 2 * rest ≤ 2 ^ k then rest else 2 ^ k - rest
          let viaCos := if 2 * rest ≤ 2 ^ k then useCos else !useCos
          let th := fxMul (fxOf folded (-(k : Int))) (fxTwoPi / 4)
          roundAbove rm neg (if viaCos then fxCos th else fxSin th) (-(fxBits : Int))

def xsin := xturn false
def xcos := xturn true

end Sys2Proof.Machine
end

