-- ==== Sys2Proof/Machine/Operands.lean ====
section
/-! DEFINITION. The operand forms: FMT and its fields, lanes of rows, execution masks, scalar and mask fields, memory
addresses (02 R22, R29, 07 R155 to R158, 08 R207). -/

namespace Sys2Proof.Machine

/-- Where a slot operation issues: sequencer, slot number (R37), its bundle's stream address and length in bytes, and for M1 the
resources that M0 shares with it; lateOwn when loads of the bundle have accesses to the own scratchpad still to perform (R262, R263). -/
structure Ctx where
  q : Nat
  slot : Nat
  addr : Nat
  size : Nat
  prior : List Nat := []
  lateOwn : Bool := false
  deriving DecidableEq, Repr

namespace Ctx
def core (x : Ctx) : Nat := x.q / 4
def seqId (x : Ctx) : Nat := x.q % 4
/-- The number of the n-th open choice of this slot. -/
def ck (x : Ctx) (n : Nat) : Nat := 4096 * x.slot + 64 * n
end Ctx

/-! FMT (R29). -/

def fmtAct (f : Word) : Nat := (f.extractLsb' 0 3).toNat
def fmtRnd (f : Word) : Nat := (f.extractLsb' 3 3).toNat
def fmtA (f : Word) : Nat := (f.extractLsb' 6 4).toNat
def fmtB (f : Word) : Nat := (f.extractLsb' 10 4).toNat
/-- BX mantissa bits b = BXM + 1. -/
def fmtBx (f : Word) : Nat := (f.extractLsb' 14 3).toNat + 1
def fmtAnchor (f : Word) : Int := (f.extractLsb' 17 10).toInt
def fmtEps (f : Word) : Nat := (f.extractLsb' 27 5).toNat

/-- The values SETFMT refuses (R30). -/
def fmtRefused (f : Word) : Bool :=
  3 ≤ fmtAct f || fmtRnd f = 0 || 6 ≤ fmtRnd f || 4 ≤ fmtA f || 4 ≤ fmtB f ||
    ((fmtA f = 3 || fmtB f = 3) && fmtBx f = 1) || f.extractLsb' 32 32 ≠ 0

/-- The lane width of an ACT code (R22): 32, 16 or 128 bits. -/
def actWidth (act : Nat) : Nat := if act = 1 then 16 else if act = 2 then 128 else 32

/-- The lanes of a row of the given width: 512, 1,024 or 128 (R22). -/
def laneCount (lw : Nat) : Nat := 16384 / lw

/-- FMT as sequencer q uses it at this cycle (R31). -/
def State.fmt (s : State) (q : Nat) : Word := (s.seqOf q).fmt

/-- The rounding mode of an rm field (R42): code 0 takes FMT.RND. -/
def rounding (fmt : Word) (rm : Nat) : Rounding := Rounding.ofCode (if rm = 0 then fmtRnd fmt else rm)

/-! Lanes (R22, R23). -/

/-- Lane i of lw bits. -/
def Row.lane (r : Row) (lw i : Nat) : Nat := (r.data.extractLsb' (i * lw) lw).toNat

/-- Whether lane i is poisoned: any word it covers is (R23). -/
def Row.lanePoison (r : Row) (lw i : Nat) : Bool :=
  if lw ≤ 32 then r.poison.getLsbD (i * lw / 32)
  else (List.range (lw / 32)).any (fun k => r.poison.getLsbD (i * lw / 32 + k))

/-- XA128 lane i with its marks (R23). -/
def Row.xa (r : Row) (i : Nat) : Xa := ⟨r.data.extractLsb' (i * 128) 128, r.mark.getLsbD (2 * i), r.mark.getLsbD (2 * i + 1)⟩

/-- What an operation writes to one lane. -/
structure LaneOut where
  bits : Nat
  poison : Bool := false
  p : Bool := false
  q : Bool := false
  flags : LaneFlags := 0
  deriving DecidableEq, Repr

/-- A poisoned lane: zero data, no flag (R24, R107); a poisoned XA128 lane has its marks clear (DESIGN CHOICE, log 75: R107 speaks of
poison and data bits). -/
def LaneOut.poisoned : LaneOut := { bits := 0, poison := true }

/-- A lane from a flagged result, poisoned when an operand lane is. -/
def LaneOut.of (poison : Bool) (r : Flagged) : LaneOut := if poison then .poisoned else { bits := r.bits, flags := r.flags }

/-- The number whose digits of w bits are the list, lowest first. -/
def packDigits (w : Nat) (l : List Nat) : Nat := l.foldr (fun d acc => d % 2 ^ w + 2 ^ w * acc) 0

/-- The number whose bits are the list, lowest first. -/
def packBits (l : List Bool) : Nat := packDigits 1 (l.map Bool.toNat)

/-- The list cut into pieces of n. -/
def chunks {α : Type} (n : Nat) : Nat → List α → List (List α)
  | 0, _ => []
  | k + 1, l => l.take n :: chunks n k (l.drop n)

/-- The word-level poison that lanes of lw bits write (R23): for each word, none where no lane of it is written. -/
def wordPoison (lw : Nat) (outs : List (Option LaneOut)) : List (Option Bool) :=
  let merge := fun (l : List (Option LaneOut)) =>
    if l.all Option.isNone then none else some (l.any (fun o => match o with | some x => x.poison | none => false))
  if lw = 16 then (chunks 2 512 outs).map merge
  else if lw = 32 then outs.map (fun o => o.map LaneOut.poison)
  else outs.flatMap (fun o => List.replicate (lw / 32) (o.map LaneOut.poison))

/-- The marks that lanes write (R23): XA128 lanes their own, any other lane clears those it overlaps. -/
def laneMarks (lw : Nat) (outs : List (Option LaneOut)) : List (Option (Bool × Bool)) :=
  if lw = 128 then outs.map (fun o => o.map (fun x => (x.p, x.q)))
  else (chunks (128 / lw) 128 outs).map (fun l => if l.all Option.isNone then none else some (false, false))

/-- The write to a row that gives lane i the i-th output; a lane without one keeps its bits, poison and marks (R155). -/
def writeLanes (lw : Nat) (outs : List (Option LaneOut)) : RowWrite :=
  let ps := wordPoison lw outs
  let ms := laneMarks lw outs
  { data := BitVec.ofNat _ (packDigits lw (outs.map (fun o => match o with | some x => x.bits | none => 0)))
    dataMask := BitVec.ofNat _ (packDigits lw (outs.map (fun o => if o.isSome then 2 ^ lw - 1 else 0)))
    poison := BitVec.ofNat _ (packBits (ps.map (fun o => o.getD false)))
    poisonMask := BitVec.ofNat _ (packBits (ps.map Option.isSome))
    mark := BitVec.ofNat _ (packBits (ms.flatMap (fun o => let m := o.getD (false, false); [m.1, m.2])))
    markMask := BitVec.ofNat _ (packBits (ms.flatMap (fun o => [o.isSome, o.isSome])))
    lane := lw }

/-- The whole row written, with data, poison and marks. -/
def writeWhole (r : Row) : RowWrite :=
  ⟨r.data, BitVec.allOnes _, r.poison, BitVec.allOnes _, r.mark, BitVec.allOnes _, 32⟩

/-- The bytes from byte off upward written, clearing the poison of their words unless it is set for them, and the marks they
overlap (R23, R209). -/
def writeRowBytes (off : Nat) (bytes : List Byte) (poison : List Bool) : RowWrite :=
  let n := bytes.length
  let bit := fun (a b : Nat) => if b ≤ a then 0 else (2 ^ (b - a) - 1) * 2 ^ a
  let w0 := off / 4
  let ws := (List.range ((off + n + 3) / 4 - w0)).map fun k =>
    (List.range 4).any (fun j => let i := 4 * (w0 + k) + j; off ≤ i && poison.getD (i - off) false)
  let x0 := off / 16
  { data := BitVec.ofNat _ (leValue bytes * 2 ^ (8 * off))
    dataMask := BitVec.ofNat _ (bit (8 * off) (8 * (off + n)))
    poison := BitVec.ofNat _ (packBits ws * 2 ^ w0)
    poisonMask := BitVec.ofNat _ (bit w0 ((off + n + 3) / 4))
    mark := 0
    markMask := BitVec.ofNat _ (bit (2 * x0) (2 * ((off + n + 15) / 16))) }

/-- The bytes and byte-level poison of a row from byte off upward (R211): a poisoned word gives zero bytes. -/
def Row.bytes (r : Row) (off n : Nat) : List Byte × List Bool :=
  let ps := (List.range n).map (fun i => r.poison.getLsbD ((off + i) / 4))
  ((List.range n).map (fun i => if r.poison.getLsbD ((off + i) / 4) then 0 else r.data.extractLsb' (8 * (off + i)) 8), ps)

/-- The flags of an operation's lanes (R36, R157); nf suppresses them. -/
def flagSet (nf : Bool) (fs : List LaneFlags) : FlagSet :=
  if nf then {}
  else
    let g := fun (k : Nat) => (BitVec.ofNat 1024 (packBits (fs.map (fun f => f.getLsbD k))) : MaskBits)
    ⟨g 0, g 1, g 2, g 3, g 4, g 5⟩

/-- The flags that lane outputs carry. -/
def outFlags (nf : Bool) (outs : List (Option LaneOut)) : FlagSet :=
  flagSet nf (outs.map (fun o => match o with | some x => x.flags | none => 0))

/-- Every flag of a horizontal operation, recorded at lane 0 (R157). -/
def laneZeroFlags (nf : Bool) (f : LaneFlags) : FlagSet := flagSet nf [f]

/-- The number of one bits below n. -/
def popCountTo (v : Nat) : Nat → Nat
  | 0 => 0
  | n + 1 => popCountTo v n + (if v.testBit n then 1 else 0)

/-! Operand reads of a slot. -/

/-- Scalar register r as the slot reads it; i tells its operands apart. -/
def Ctx.scalar (x : Ctx) (s : State) (r i : Nat) : SReg := s.readScalar x.q r (x.ck i)

/-- Mask register r as the slot reads it. -/
def Ctx.mask (x : Ctx) (s : State) (r i : Nat) : MReg := s.readMask x.q r (x.ck i)

/-- Row n as the slot reads it in lanes of lw bits. -/
def Ctx.row (x : Ctx) (s : State) (n lw i : Nat) : Row := s.readRow x.core n lw (x.ck i)

/-- The allotment of a sequencer (R25, R34): whether row n is in it. -/
def inAllotment (s : State) (q n : Nat) : Bool :=
  let a := (s.coreOf (q / 4)).allot.getD (q % 4) 0
  let base := (a.extractLsb' 0 9).toNat
  base ≤ n && n < base + (a.extractLsb' 10 10).toNat && n < 512

end Sys2Proof.Machine
end

