-- ==== Sys2Proof/Machine/Slot.lean ====
section
/-! DEFINITION. What a slot operation is to the bundle that issues it (04 R70, R71, 02 R18, R25): its destinations, the rows
it names, its precise cause, its effect, and the bundle that follows. -/

namespace Sys2Proof.Machine

/-- The bundle that follows (R76, R121 to R123): the next in the stream, the target of a taken branch that a loop may not let
escape, the target of one that may leave (CALL, RET, CHK, PROBE), the END of a loop of count 0, the target of a LEXIT that
leaves n levels, or the address a RETT resumes at. -/
inductive Next where
  | seq
  | branch (target : Int)
  | free (target : Int)
  | zeroLoop (target : Int)
  | lexit (levels : Nat) (target : Int)
  | resume (target : Int)
  deriving DecidableEq, Repr

/-- The trap causes (R295). -/
def cIllegalStream : Nat := 0x01
def cUndefinedOpcode : Nat := 0x02
def cIllegalSlot : Nat := 0x03
def cIllegalEncoding : Nat := 0x04
def cAllotment : Nat := 0x05
def cInFlight : Nat := 0x06
def cPoison : Nat := 0x07
def cLoopOver : Nat := 0x08
def cLoopUnder : Nat := 0x09
def cLoopEscape : Nat := 0x0A
def cSpawnBusy : Nat := 0x0B
def cMismatch : Nat := 0x0C
def cEscalation : Nat := 0x0D
def cAddress : Nat := 0x10
def cCrossing : Nat := 0x11
def cAlignment : Nat := 0x12
def cSchedule : Nat := 0x13
def cTiming : Nat := 0x14
def cOverflow : Nat := 0x15
def cDivergence : Nat := 0x16
def cJournalMark : Nat := 0x17
def cJournalFull : Nat := 0x18

/-- A slot operation. dests are the registers it names as destinations and wrows the rows a V or X slot writes (R71); rows are
the rows it names (R25); nres its results in flight (R18); cause its precise cause of R91 item 5, the lowest code;
acts its effect, read from the state at issue; next the bundle that follows; isLoad a load, which performs before the stores of
its bundle (R262); share what an M slot uses that the other M slot may use with it; onTrap what its own fault does. -/
structure Op where
  dests : List Nat := []
  wrows : List Nat := []
  rows : Ctx → State → List Nat := fun _ _ => []
  nres : Nat := 0
  cause : Ctx → State → Option Nat := fun _ _ => none
  acts : Ctx → State → List Act := fun _ _ => []
  next : Ctx → State → Next := fun _ _ => .seq
  isLoad : Bool := false
  share : List Nat := []
  onTrap : Nat → Ctx → State → List Act := fun _ _ _ => []

/-- Destination keys of R71. -/
def keyScalar (r : Nat) : List Nat := if r = 0 then [] else [r]
def keyMask (r : Nat) : List Nat := if r = 0 then [] else [64 + r]
def keyGlint (r : Nat) : List Nat := [80 + r]
def keyMp (r : Nat) : List Nat := [96 + r]
def keyTh (r : Nat) : List Nat := [128 + r]

/-- The first of several causes that holds, in the order given. -/
def firstCause (l : List (Bool × Nat)) : Option Nat := (l.find? (fun e => e.1)).map (fun e => e.2)

/-- The lowest of the causes that hold (R91 item 5). -/
def lowestCause (l : List (Bool × Nat)) : Option Nat :=
  l.foldl (fun a e => if e.1 then (match a with | none => some e.2 | some c => some (min c e.2)) else a) none

/-- The lower of two causes by code. -/
def minCause (a b : Option Nat) : Option Nat :=
  match a, b with
  | none, c => c
  | c, none => c
  | some i, some j => some (min i j)

/-- The work with one more result in flight, named. -/
def Work.push (w : Work) (f : Flight) : Work := { w with flights := w.flights ++ [{ f with id := w.nextId }], nextId := w.nextId + 1 }

/-- The work with flags that an operation sets no later than their bound (R43, R157); no entry for none. -/
def Work.raise (w : Work) (p : FlagPost) : Work :=
  if p.flags = {} then w else { w with flagPosts := w.flagPosts ++ [p] }

/-- Flags of the slot that come without a result (R180). -/
def raiseFlags (x : Ctx) (s : State) (bound : Nat) (fl : FlagSet) : Act :=
  .work (fun w => w.raise ⟨x.q, x.slot, x.addr, s.cyc, s.cyc + bound, fl, false⟩)

/-- A result of the slot, with its bound (R27). -/
def result (x : Ctx) (s : State) (d : Dest) (v : Value) (bound : Nat) (fl : FlagSet) : Act :=
  .work (fun w => (w.push { id := 0, q := x.q, dest := d, val := v, issue := s.cyc, due := s.cyc + bound,
                             slot := x.slot, addr := x.addr, hnd := (s.seqOf x.q).hnd }).raise
                    ⟨x.q, x.slot, x.addr, s.cyc, s.cyc + bound, fl, false⟩)

/-- A scalar result: poisoned ones write zero and raise no flag (R24, R107, R109). -/
def scalarResult (x : Ctx) (s : State) (d : Nat) (poison : Bool) (v : Word) (bound : Nat) (nf : Bool) (fl : LaneFlags) : Act :=
  result x s (.scalar d) (.word (if poison then 0 else v) poison) bound (if poison then {} else laneZeroFlags nf fl)

end Sys2Proof.Machine
end

