-- ==== Sys2Proof/Machine/Flags.lean ====
section
/-! DEFINITION. The sticky flags and the first-event record (02 R35 to R37). -/

namespace Sys2Proof.Machine

/-- The word of one flag code of a flag set. -/
def FlagSet.word (f : FlagSet) (k : Nat) : MaskBits :=
  match k with
  | 0 => f.iv
  | 1 => f.dz
  | 2 => f.ov
  | 3 => f.uf
  | 4 => f.nx
  | _ => f.wrap

/-- The five scalar flags of a flag set: those of lane 0 (R35). -/
def FlagSet.scalarBits (f : FlagSet) : BitVec 5 :=
  BitVec.ofNat 5 (packBits ((List.range 5).map (fun k => (f.word k).getLsbD 0)))

/-- The flag code a lane's event is recorded with (R37): the lowest, a wrap as code 5 in place of its NX position. -/
def FlagSet.laneCode (f : FlagSet) (i : Nat) : Option Nat :=
  (List.range 6).find? (fun k => (f.word k).getLsbD i && !(k = 4 && f.wrap.getLsbD i))

/-- The first event of a flag set: its lowest lane and that lane's flag code (R37). -/
def FlagSet.first (f : FlagSet) : Option (Nat × Nat) :=
  (List.range 1024).findSome? (fun i => (f.laneCode i).map (fun k => (i, k)))

/-- The FEV word of an event (R37). -/
def fevWord (slot lane code addr : Nat) : Word :=
  BitVec.ofNat 64 (1 + 2 * slot + 16 * lane + 2 ^ 14 * code + 2 ^ 32 * (addr % 2 ^ 32))

/-- FEV and the issue order of its event after a post (R37): an event replaces the record only when its operation issued earlier, or when
it is an event of the same operation, as another row of a drain, at a lower lane or at that lane with a lower flag code. -/
def fevAfter (fev : Word) (fevAt : Nat) (p : FlagPost) : Word × Nat :=
  match p.flags.first with
  | none => (fev, fevAt)
  | some (lane, code) =>
    let key := 8 * p.issue + p.slot
    let kept := 8 * (fev.extractLsb' 4 10).toNat + (fev.extractLsb' 14 3).toNat
    if fev.getLsbD 0 && (fevAt < key || (fevAt = key && kept ≤ 8 * lane + code)) then (fev, fevAt) else (fevWord p.slot lane code p.addr, key)

/-- Sets the flags of a post: FLS0 and FLS1 for S0 and S1, the lane flags for V0 to X, FLS2 and FLS3 for M0 and M1; and FEV. -/
def flagActs (s : State) (p : FlagPost) : List Act :=
  let b := p.flags.scalarBits
  let regs := fun (q : Seq) =>
    let e := fevAfter q.fev q.fevAt p
    let q := { q with fev := e.1, fevAt := e.2 }
    if p.slot = 0 then { q with fls0 := q.fls0 ||| b }
    else if p.slot = 1 then { q with fls1 := q.fls1 ||| b }
    else if p.slot = 6 then { q with fls2 := q.fls2 ||| b }
    else if p.slot = 7 then { q with fls3 := q.fls3 ||| b }
    else q
  let lanes := if 2 ≤ p.slot && p.slot ≤ 5 then
      (List.range 6).filterMap (fun k =>
        if p.flags.word k = 0 then none
        else
          let n := 6 * (p.slot - 2) + k
          some (.lanes p.q n (SMap.get 0 s.laneFlags (24 * p.q + n) ||| p.flags.word k)))
    else []
  Act.seq p.q regs :: lanes

/-- Sets the flags of a list of posts, each over the state its predecessors leave. -/
def flagActsAll (s : State) : List FlagPost → List Act
  | [] => []
  | p :: l => let a := flagActs s p; a ++ flagActsAll (applyActs a s) l

/-- A lane-flag register of sequencer q (R36): k is 6 times the slot code plus the flag code. -/
def State.laneFlag (s : State) (q k : Nat) : MaskBits := SMap.get 0 s.laneFlags (24 * q + k)

/-- The posts of sequencer q whose flags may have been set in an earlier cycle (R27, R37): every one independently, but none that is set at its
cycle exactly (R61). -/
def earlyPosts (s : State) (q k : Nat) : List FlagPost :=
  ((s.work.flagPosts.filter (fun p => p.q = q)).mapIdx (fun i p => (i, p))).filterMap
    (fun e => if !e.2.exact && s.choice (k + e.1) % 2 = 1 then some e.2 else none)

/-- The posts that a read sees: those whose bound this cycle is, and those set early (R27, R36). -/
def seenPosts (s : State) (q k : Nat) : List FlagPost :=
  ((s.work.flagPosts.filter (fun p => p.q = q)).mapIdx (fun i p => (i, p))).filterMap
    (fun e => if e.2.due ≤ s.cyc || (!e.2.exact && s.choice (k + e.1) % 2 = 1) then some e.2 else none)

/-- Clears every flag register of a sequencer and FEV (R37, R148, R296). -/
def clearFlags (q : Nat) : List Act :=
  Act.seq q (fun x => { x with fls0 := 0, fls1 := 0, fls2 := 0, fls3 := 0, fev := 0, fevAt := 0 }) ::
    (List.range 24).map (fun k => .lanes q k 0)

end Sys2Proof.Machine
end

