-- ==== Sys2Proof/Machine/Settle.lean ====
section
/-! DEFINITION. How results land and what landing one leaves of the others (02 R23 to R28, R31, 12 R277, 13 R298). -/

namespace Sys2Proof.Machine

/-- The result named id. -/
def State.flightOf (s : State) (id : Nat) : Option Flight := s.work.flights.find? (fun f => f.id = id)

/-- A result poisoned whole (R107, R208). -/
def Flight.poisonAll (f : Flight) : Flight :=
  let v : Value := match f.val with
    | .word _ _ => .word 0 true
    | .mask _ _ => .mask 0 true
    | .rows ws => .rows (ws.map (fun w => { w with data := 0, poison := w.poisonMask, mark := 0 }))
  { f with val := v, missing := 0, got := BitVec.allOnes 1024 }

/-- A row write restricted to some data bits; the poison and marks of a word or XA128 lane go with any bit of it. -/
def RowWrite.restrict (w : RowWrite) (bits : RowBits) : RowWrite :=
  let dm := w.dataMask &&& bits
  let any := fun (n lo : Nat) => dm.extractLsb' lo n ≠ 0
  { w with dataMask := dm
           poisonMask := w.poisonMask &&& BitVec.ofNat _ (packBits ((List.range 512).map (fun j => any 32 (32 * j))))
           markMask := w.markMask &&& BitVec.ofNat _ (packBits ((List.range 256).map (fun j => any 128 (128 * (j / 2))))) }

/-- Whether two results write one place. -/
def Flight.overlaps (f g : Flight) : Bool :=
  match f.dest, g.dest with
  | .rows n, .rows m => f.q / 4 = g.q / 4 && n < m + g.val.rowCount && m < n + f.val.rowCount
  | d, e => f.q = g.q && d = e

/-- A result's value written to its destination (R23, R24, R31, R175, R298). -/
def landing (s : State) (f : Flight) : List Act :=
  match f.dest, f.val with
  | .scalar r, .word v p => [.scalar f.q r ⟨v, p⟩]
  | .mask r, .mask v p => if shielded s.work.flights f 0 then [] else [.mask f.q r ⟨v, p⟩]
  | .rows n, .rows ws =>
    (ws.mapIdx (fun i w => (n + i, w))).filterMap (fun e => if shielded s.work.flights f e.1 then none else some (.row (f.q / 4) e.1 e.2))
  | .glint r, .word v p =>
    let g := SMap.get {} s.glints (4 * f.q + r)
    [.glint f.q r ⟨g.val + v, g.poison || p⟩]
  | .fmt, .word v _ => [.seq f.q (fun y => { y with fmt := v })]
  | _, _ => []

/-- A result once it has landed: gone, but for a latch, which has landed for the handler's view alone (R143, R277). -/
def Flight.gone (f : Flight) : Option Flight :=
  match f.mode with
  | .latched i => some { f with mode := .landed i }
  | _ => none

/-- The lanes of g that lie under f and that g may have landed before f does, removed: in each of them either value stays (R28). A lane
is the wider of the two writes'. -/
def passRows (s : State) (k : Nat) (g : Flight) (m n : Nat) (fw gw : List RowWrite) : Value :=
  .rows (gw.mapIdx (fun i w =>
    match (if n ≤ m + i then fw[m + i - n]? else none) with
    | none => w
    | some p =>
      let lw := max p.lane w.lane
      w.restrict (~~~(p.dataMask &&& (g.arrived w).dataMask &&& BitVec.ofNat _ (spread (s.choiceMask (k + i)).toNat lw (16384 / lw))))))

/-- What is left of another result in flight when f lands (R28): both penumbras cover this cycle, so the other may have landed before f,
and then it lands no more; a handler's write to the destination of a latch that lands is overwritten by it (R143). k numbers the choices. -/
def passed (s : State) (f : Flight) (k : Nat) (g : Flight) : Option Flight :=
  if g.held || !g.overlaps f || (f.hnd && g.returned) then some g
  else if f.returned && g.hnd then
    match f.dest, g.dest, g.val with
    | .rows n, .rows m, .rows gw => some { g with val := .rows (gw.mapIdx (fun i w => if n ≤ m + i && m + i < n + f.val.rowCount then {} else w)) }
    | .scalar _, _, _ | .mask _, _, _ => none
    | _, _, _ => some g
  else
    match f.dest, f.val, g.dest, g.val with
    | .rows n, .rows fw, .rows m, .rows gw => some { g with val := passRows s k g m n fw gw }
    | .scalar _, _, _, _ | .mask _, _, _, _ => if g.missing = 0 && s.choice k % 2 = 1 then g.gone else some g
    | _, _, _, _ => some g

/-- The results in flight after f has landed (R28). -/
def flightsAfter (s : State) (f : Flight) : List Flight :=
  (s.work.flights.mapIdx (fun i g => (i, g))).filterMap (fun e => if e.2.id = f.id then e.2.gone else passed s f (8 * e.1) e.2)

end Sys2Proof.Machine
end

