-- ==== Sys2Proof/Machine/Ops.lean ====
section
/-! DEFINITION. The named operations over memory and registers that the meanings share: posted events, completion records,
the end of a launch on a core, taking a trap and returning from one (12 R276, 13 R291 to R301, 19 R360, R372). -/

namespace Sys2Proof.Machine

/-- The class of an event code (R360). -/
def eventClass (code : Nat) : Nat :=
  if code < 0x10 then 1 else if code < 0x20 then 2 else if code < 0x30 then 3 else 0

/-- The 32-byte record of an event as a number (R372). -/
def Posted.record (p : Posted) : Nat :=
  p.time % 2 ^ 64 + 2 ^ 64 * (p.code % 256) + 2 ^ 72 * eventClass p.code + 2 ^ 74 * (p.fn % 32) +
    2 ^ 79 * (p.place / 256 % 4) + 2 ^ 81 * (p.place % 256) + 2 ^ 128 * (p.addr % 2 ^ 64) + 2 ^ 192 * (p.info % 2 ^ 64)

/-- The AER status of a function after an event (R361): class 1 corrected; class 2 uncorrectable in a VF, in the PF
advisory with ERR_COR; class 3 uncorrectable in the PF. -/
def Aer.after (a : Aer) (p : Posted) (fn : Nat) : Aer :=
  let c := eventClass p.code
  let a := { a with headerLog := BitVec.ofNat 128 p.record, messages := a.messages ++ [if c = 2 && fn = 0 then 1 else c] }
  if c = 1 then { a with corrected := true }
  else if c = 2 then (if fn = 0 then { a with advisory := true } else { a with uncorrectable := true })
  else { a with uncorrectable := true }

/-- Whether a record stands before another in a log: an earlier one, or one of the same cycle with a code, and a die, core and stack, no greater (R372). -/
def Posted.precedes (a b : Posted) : Bool := a.time ≠ b.time || 2 ^ 16 * a.code + a.place ≤ 2 ^ 16 * b.code + b.place

/-- A log with one more record, among those of its cycle at its place. -/
def logInsert (l : List Posted) (p : Posted) : List Posted :=
  let later := l.reverse.takeWhile (fun q => !q.precedes p)
  l.take (l.length - later.length) ++ p :: later.reverse

/-- The flash log with one more record: full at 65,536, when the oldest 4,096 are erased (R372). -/
def flashAppend (l : List Posted) (p : Posted) : List Posted := logInsert (if 65536 ≤ l.length then l.drop 4096 else l) p

/-- The chip after an event posted in cycle t: its log, AER by class, and the fatal state, in which function resets keep their steps (R360 to R362, R372,
R378). -/
def Chip.post (h : Chip) (t : Nat) (p : Posted) : Chip :=
  let c := eventClass p.code
  let fn := if c = 3 then 0 else p.fn
  let h := { h with log := (logInsert h.log p).drop (h.log.length + 1 - 4096) }
  let h := if 2 ≤ c then { h with flash := flashAppend h.flash p } else h
  let h := if c = 0 then h else { h with aer := SMap.set {} h.aer fn ((SMap.get {} h.aer fn).after p fn) }
  if c = 3 && !h.fatal then { h with fatal := true, vfr := h.vfr.map (fun e => (e.1, { e.2 with step := e.2.stepAt t })) } else h

/-- Posts an event (R360, R372). place is 256 x die + core, or a stack for memory events. -/
def post (s : State) (code fn place addr info : Nat) : Act := .chip (fun h => h.post s.cyc ⟨s.gtime, code, fn, place, addr, info⟩)

/-- A completion record (R282). -/
def completionRecord (status pcode launchId pix info : Nat) : BitVec 128 :=
  BitVec.ofNat 128 (status + 2 ^ 8 * pcode + 2 ^ 32 * (launchId % 2 ^ 32) + 2 ^ 64 * (pix % 2 ^ 32) + 2 ^ 96 * (info % 2 ^ 32))

/-- How many records of a completion ring the host has not taken (R282). -/
def Ring.used (r : Ring) : Nat := (r.cplTail + 2 ^ 32 - r.cplHead) % 2 ^ 32

/-- Records of a function waiting for space are written while the completion ring has any (R282). fuel bounds the records. -/
def writeRecords : Nat → Ring → List (Nat × BitVec 128) × Ring
  | 0, r => ([], r)
  | k + 1, r =>
    match r.waiting with
    | [] => ([], r)
    | v :: l =>
      if r.used < 2 ^ r.cplLog then
        let w := writeRecords k { r with waiting := l, cplTail := (r.cplTail + 1) % 2 ^ 32
                                         messages := r.messages + (if r.irq then 1 else 0) }
        ((r.cplBase + 16 * (r.cplTail % 2 ^ r.cplLog), v) :: w.1, w.2)
      else ([], r)

/-- What a word of a function's MSI-X table holds at reset: its vector masked (PRESUMED from PCIe, log 12). -/
def msixReset (k : Nat) : Word := if k % 2 = 1 then 0x100000000 else 0

/-- Word k of a function's MSI-X table: a vector's address, or its data with the mask above. -/
def Chip.msixWord (h : Chip) (fn k : Nat) : Word := SMap.get (msixReset k) h.msixTable (256 * fn + k)

/-- Whether a vector is masked. -/
def Chip.msixMasked (h : Chip) (fn vec : Nat) : Bool := (h.msixWord fn (2 * vec + 1)).getLsbD 32

/-- A message of a vector is sent, or pends while the vector is masked (R282, R366; log 12). -/
def Chip.raise (h : Chip) (fn vec : Nat) : Chip :=
  if h.msixMasked fn vec then { h with msixPending := h.msixPending.filter (fun e => e ≠ (fn, vec)) ++ [(fn, vec)] }
  else { h with msix := h.msix ++ [(fn, vec)] }

/-- A write of a word of a function's MSI-X table, after which what pends of a vector no longer masked is sent. -/
def Chip.setMsix (h : Chip) (fn k : Nat) (v : Word) : Chip :=
  let h := { h with msixTable := SMap.set (msixReset k) h.msixTable (256 * fn + k) (v &&& (if k % 2 = 1 then 0x1FFFFFFFF else 0xFFFFFFFFFFFFFFFC)) }
  let free := h.msixPending.filter (fun e => !h.msixMasked e.1 e.2)
  { h with msix := h.msix ++ free, msixPending := h.msixPending.filter (fun e => h.msixMasked e.1 e.2) }

/-- Writes what a function's completion ring has space for, raising vector 0 after each record where IRQ is set (R282). -/
def drainRecords (r : Ring) (fn : Nat) : List Act :=
  let w := writeRecords (r.waiting.length) r
  w.1.map (fun e => .write .host e.1 (leBytes 16 e.2.toNat) (List.replicate 16 false)) ++
    [.chip (fun h =>
      let h := { h with rings := SMap.set {} h.rings fn w.2 }
      if r.irq then w.1.foldl (fun h _ => h.raise fn 0) h else h)]

/-- A new completion record of a function (R279, R282). -/
def complete (s : State) (fn : Nat) (rec : BitVec 128) : List Act :=
  let r := SMap.get {} s.chip.rings fn
  drainRecords { r with waiting := r.waiting ++ [rec] } fn

/-- Bytes written to a core's own scratchpad with no poison. -/
def putBytes (c off : Nat) (bs : List Byte) : Act := .write (.spd c) off bs (List.replicate bs.length false)

/-- The launch of a queue of a core. -/
def State.launchOf (s : State) (c n : Nat) : Option Launch :=
  match ((s.coreOf c).queues.getD n {}).launch with
  | some id => s.work.launches.find? (fun l => l.id = id)
  | none => none

/-- A list with its n-th entry changed. -/
def modifyAt {α : Type} (n : Nat) (f : α → α) (l : List α) : List α := l.mapIdx (fun i a => if i = n then f a else a)

/-- Changes queue n of a core. -/
def modQueue (c n : Nat) (f : Queue → Queue) : Act := .core c (fun x => { x with queues := modifyAt n f x.queues })

/-- A duty that needs its agent asks the host driver in host-assisted mode: MSI-X vector 1 of the PF (R368; log 72). -/
def askHost (s : State) (duty : Nat) : List Act :=
  if s.chip.duty.getLsbD duty then [.chip (fun h => h.raise 0 1)] else []

/-- A result whose sequencer's handler never returns: it lands as it stands (R298, R350), unless it has landed. -/
def Flight.freed (f : Flight) : Option Flight :=
  match f.mode with
  | .landed _ => none
  | .live | .latched _ | .frozen _ | .returning _ => some { f with mode := .live }

/-- Ends the launch of queue n on core c (R291, R300): issue stops, matrix commands complete, copies suspend, held emissions
are discarded, the frames stay, the record and the event are written; the core counts as done; containment is asked for (R370). -/
def endLaunch (s : State) (c n status event info : Nat) : List Act :=
  match s.launchOf c n with
  | none => []
  | some l =>
    let owns := (s.coreOf c).owner = some n
    (if owns then (List.range 4).map (fun i => Act.seq (4 * c + i) (fun q => { q with run := .idle, wait := .none, more := [] })) else []) ++
    [.work (fun w => { w with
        flights := if owns then w.flights.filterMap (fun f => if f.q / 4 = c then f.freed else some f) else w.flights
        copies := w.copies.map (fun y => if y.launch = some l.id && y.q / 4 = c then { y with suspended := true } else y)
        launches := w.launches.map (fun y =>
          if y.id = l.id then { y with remaining := y.remaining.filter (fun k => k ≠ c) } else y) }),
     .chip (fun h => { h with
        emits := h.emits.map (fun e => if e.launch = some l.id && e.q / 4 = c then e.discarded else e)
        vfr := if l.fn = 0 || h.duty.getLsbD 7 then h.vfr
               else let v := SMap.get {} h.vfr l.fn; SMap.set {} h.vfr l.fn { v with contain := if v.busy then v.contain else v.contain ++ [l.id] } }),
     modQueue c n (fun q => { q with ended := true, grace := none, tasks := [] }),
     .core c (fun x => if owns then { x with owner := none } else x)] ++
    complete s l.fn (completionRecord status 0x01 l.launchId l.pix (c % 1024)) ++
    [post s event l.fn c 0 info] ++ (if l.fn = 0 then [] else askHost s 7)

/-- The end of the running launch of a core by a double fault (R300). -/
def doubleFault (s : State) (c : Nat) : List Act :=
  match (s.coreOf c).owner with
  | some n => endLaunch s c n 0x09 0x16 0
  | none => (List.range 4).map (fun i => Act.seq (4 * c + i) (fun q => { q with run := .idle, wait := .none }))

/-! Traps (12 R276, R277, 13 R294 to R301). -/

/-- The first byte of a sequencer's frame in its own scratchpad (R294). -/
def frameOff (q : Nat) : Nat := Config.systemArea + 0x4000 * (q % 4)

/-- The TCAUSE word of a cause (R294). -/
def causeWord (c : Cause) : Word :=
  BitVec.ofNat 64 (c.code % 256 + 2 ^ 8 * (c.slot.getD 0) + (if c.deferred then 2 ^ 11 else 0) +
    (if c.slot.isSome then 2 ^ 12 else 0) + 2 ^ 16 * (c.swc % 4096) + 2 ^ 32 * (c.faddr % 2 ^ 32))

/-- A loop-stack entry as saved (R38), 32 bytes. -/
def LoopEntry.bytes (e : LoopEntry) : List Byte :=
  leBytes 4 e.start ++ leBytes 4 e.stop ++ leBytes 4 e.index ++ leBytes 4 e.count ++
    leBytes 4 ((if e.pipe then 1 else 0) + 2 * e.stage) ++ leBytes 12 0

/-- WKIND and the two wait operands of a wait (R296). -/
def Wait.frame (w : Wait) : Nat × Word × Word :=
  match w with
  | .none => (5, 0, 0)
  | .twait t => (0, t, 0)
  | .trealign k => (1, BitVec.ofNat 64 k, 0)
  | .chrecv ch _ _ _ _ => (2, BitVec.ofNat 64 ch, 0)
  | .barwait o p _ _ => (3, BitVec.ofNat 64 o, if p then 1 else 0)
  | .waitv l v _ _ _ _ => (4, BitVec.ofNat 64 l, v)

/-- The passes that hold stores, the pass in progress included (R296). -/
def windowPasses (q : Seq) : Nat :=
  match q.loops.getLast? with
  | some e => if e.pipe then ((e.index :: q.window.map Held.pass).eraseDups).length else 0
  | none => 0

/-- A 6-bit two's complement stride. -/
def stride6 (i : Int) : Nat := (BitVec.ofInt 6 i).toNat

/-- The frame header's words from 0x10 to 0x5F (R296): HND as the sequencer has it. -/
def headerTail (q : Seq) (nlat nev : Nat) : List Byte :=
  let w := q.wait.frame
  let wt := q.run = .wait || q.run = .parked
  let status := (if q.hnd then 1 else 0) + (if wt then 2 + 4 * w.1 else 0) + (if q.reent then 64 else 0) + (if q.rolledBack then 128 else 0) +
    2 ^ 8 * windowPasses q + 2 ^ 12 * nlat + 2 ^ 20 * nev
  let rep := match q.rep with
    | some r => r.remain + 2 ^ 24 * stride6 r.sd + 2 ^ 30 * stride6 r.sa + 2 ^ 36 * stride6 r.sb + 2 ^ 42 * r.mask
    | none => 0
  leBytes 8 status ++ leBytes 8 rep ++ leBytes 8 (match q.rep with | some r => r.addr | none => 0) ++
    leBytes 8 q.fls0.toNat ++ leBytes 8 q.fls1.toNat ++ leBytes 8 q.fev.toNat ++ leBytes 8 w.2.1.toNat ++
    leBytes 8 w.2.2.toNat ++ leBytes 8 q.fls2.toNat ++ leBytes 8 q.fls3.toNat

/-- DEST, KIND and NROW of a latch (R297). -/
def Flight.latchKind (f : Flight) : Nat × Nat × Nat :=
  match f.dest with
  | .scalar r => (r, 0, 0)
  | .mask r => (r, 1, 0)
  | .rows n => (n, 2, f.val.rowCount - 1)
  | .glint r => (r, 3, 0)
  | .fmt => (0, 4, 0)

/-- The cycles a result has left at cycle t (R143, R297). -/
def Flight.remaining (f : Flight) (t : Nat) : Int :=
  match f.mode with
  | .returning c => c
  | _ => (f.due : Int) - t

/-- A latch entry (R297), 32 bytes; ev is the index of the pending event that belongs to it. -/
def Flight.latchBytes (f : Flight) (t : Nat) (ev : Option Nat) : List Byte :=
  let k := f.latchKind
  let pv := match f.val with | .word v p => (p, v) | _ => (false, 0)
  let word := k.1 + 2 ^ 9 * k.2.1 + 2 ^ 12 * k.2.2 + (if pv.1 then 2 ^ 14 else 0) +
    (match ev with | some i => 2 ^ 15 + 2 ^ 16 * i | none => 0)
  leBytes 4 word ++ leBytes 4 (BitVec.ofInt 32 (f.remaining t)).toNat ++ leBytes 8 pv.2.toNat ++ leBytes 16 0

/-- A pending event (R299), 64 bytes. -/
def Pending.bytes (e : Pending) : List Byte :=
  let word := e.code + 2 ^ 8 * e.slot + 2 ^ 11 * e.ch + (if e.abandon then 2 ^ 13 else 0) + (if e.fdrow then 2 ^ 14 else 0) +
    (if e.dlost then 2 ^ 15 else 0) + 2 ^ 16 * e.sub
  leBytes 4 word ++ leBytes 4 e.faddr ++ leBytes 8 e.addr ++ leBytes 8 e.info ++ leBytes 8 e.data.toNat ++ leBytes 32 0

/-- An element put into a list after those whose key is no greater. -/
def insertBy {α : Type} (key : α → Nat) (x : α) : List α → List α
  | [] => [x]
  | y :: l => if key x < key y then x :: y :: l else y :: insertBy key x l

/-- A list in the order of a key, elements of one key as they stood. -/
def sortBy {α : Type} (key : α → Nat) (l : List α) : List α := l.foldl (fun a x => insertBy key x a) []

/-- Results in the order of their issue, those of one bundle by slot (R297). -/
def byIssue (l : List Flight) : List Flight := sortBy (fun f => 8 * f.issue + f.slot) l

/-- The results of sequencer q that a frame holds as latches, earliest first (R18, R297). -/
def latchesOf (s : State) (q : Nat) : List Flight :=
  byIssue <| s.work.flights.filter (fun f => f.q = q && !f.engine && (s.cyc < f.due || match f.mode with | .returning _ => true | _ => false))

/-- What becomes of a result of sequencer q when its frame takes it as latch ix (R143, R298, R32): scalars also land for the
handler's view, masks and rows stay in place, glint addends and FMT wait in the frame alone. -/
def takeLatch (s : State) (q : Nat) (f : Flight) : List Flight :=
  if f.q ≠ q then [f]
  else
    match (latchesOf s q).findIdx? (fun g => g.id = f.id) with
    | none => [f]
    | some ix =>
      match f.dest with
      | .scalar _ => [{ f with mode := .latched ix, hnd := false }]
      | .mask _ | .rows _ => [{ f with mode := .frozen ix, hnd := false }]
      | .glint _ | .fmt => []

/-- Writes the frame of sequencer q for a cause at this boundary, and enters the handler at stream address 2, not before 16
cycles (R276, R296): EPC, TCAUSE, the loop stack, the REP state, the wait, the flags, the latches, the pending events. -/
def enterTrap (s0 : State) (q : Nat) (epc : Nat) (cause : Cause) : List Act :=
  let posts := s0.work.flagPosts.filter (fun p => p.q = q)
  let fa := flagActsAll s0 posts
  let s := applyActs fa s0
  let c := q / 4
  let base := frameOff q
  let x := s.seqOf q
  let lat := latchesOf s q
  let evs := if cause.code = 0x33 then x.orderFaults.take 1 ++ x.events ++ x.orderFaults.drop 1 else x.events ++ x.orderFaults
  let evOf := fun (f : Flight) => evs.findIdx? (fun e => e.flight = some f.id)
  fa ++
  [putBytes c base (leBytes 8 epc ++ leBytes 8 (causeWord cause).toNat ++ headerTail { x with hnd := true } lat.length evs.length),
   putBytes c (base + 0x100) ((x.loops.flatMap LoopEntry.bytes) ++ List.replicate (32 * (6 - x.loops.length)) 0),
   putBytes c (base + 0x200) ((List.range 24).flatMap (fun k => leBytes 128 (s.laneFlag q k).toNat)),
   putBytes c (base + 0xE00) (lat.flatMap (fun f => f.latchBytes s.cyc (evOf f))),
   putBytes c (base + 0x1600) (evs.flatMap Pending.bytes)] ++
  clearFlags q ++
  [.work (fun w => { w with flights := w.flights.flatMap (takeLatch s q), flagPosts := w.flagPosts.filter (fun p => p.q ≠ q) }),
   .seq q (fun y => { y with
      pc := 2, run := .run, wait := .none, loops := [], rep := none, hnd := true, resumeAt := s.cyc + 16
      savedWait := y.wait, savedMore := y.more, more := [], savedLoops := y.loops, savedRep := y.rep, savedFevAt := x.fevAt
      frozen := { window := y.window, rollback := y.rollback, rollEsc := y.rollEsc, rolledBack := y.rolledBack, rbPass := y.rbPass
                  escalate := y.escalate && cause.code ≠ cEscalation }
      window := [], rollback := none, rollEsc := false, rolledBack := false, rbPass := 0, escalate := false
      reent := false, rearm := false, armed := false, report := none, released := false
      delivered := if cause.deferred && cause.code ≠ 0x33 then y.events.take 1 else []
      events := if cause.deferred && cause.code ≠ 0x33 then y.events.drop 1 else y.events
      deadline := if cause.code = 0x31 then false else y.deadline
      tcmp := if cause.code = 0x30 then y.tcmp &&& ~~~((1 : Word) <<< 48) else y.tcmp
      orderFaults := if cause.code = 0x33 then y.orderFaults.drop 1 else y.orderFaults
      savedSync := if cause.code = 0x32 then none else y.sync
      sync := none })]

/-- Takes a trap at this boundary, the bundle at epc not issuing (R276, R295): a precise cause in a handler ends the launch on
the core as a double fault (R300). -/
def takeTrap (s : State) (q : Nat) (epc : Nat) (cause : Cause) : List Act :=
  let precise := cause.code < 0x20 || cause.code = 0x32
  if (s.seqOf q).hnd && precise then doubleFault s (q / 4) else enterTrap s q epc cause

/-- A little-endian field of w bits at bit b of a frame's bytes. -/
def frameField (s : State) (q off b w : Nat) : Nat :=
  leValue (s.readBytes (.spd (q / 4)) (frameOff q + off) 8) / 2 ^ b % 2 ^ w

/-- A loop-stack entry as the frame holds it (R38); the prologue's address is that of the entry saved with the same START. -/
def frameLoop (s : State) (q i : Nat) : LoopEntry :=
  let at_ := fun (o w : Nat) => leValue (s.readBytes (.spd (q / 4)) (frameOff q + 0x100 + 32 * i + o) w)
  let start := at_ 0 4
  let old := (s.seqOf q).savedLoops.find? (fun e => e.start = start)
  ⟨start, at_ 4 4, at_ 8 4, at_ 12 4, at_ 16 4 % 2 = 1, at_ 16 4 / 2 % 8, match old with | some e => e.prologue | none => 0⟩

/-- The loop stack of a frame: its entries up to the first empty one, whose COUNT is zero (R121 leaves no such entry). -/
def frameLoops (s : State) (q : Nat) : List LoopEntry :=
  ((List.range 6).map (frameLoop s q)).takeWhile (fun e => e.count ≠ 0)

/-- The REP state of a frame (R133, R296). -/
def frameRep (s : State) (q : Nat) : Option RepState :=
  let f := fun b w => frameField s q 0x18 b w
  let sg := fun (n : Nat) => (BitVec.ofNat 6 n).toInt
  if f 0 24 = 0 then none
  else some ⟨f 0 24, f 42 4, sg (f 24 6), sg (f 30 6), sg (f 36 6), frameField s q 0x20 0 32,
    match (s.seqOf q).savedRep with | some r => r.next + (r.remain - f 0 24) | none => 0⟩

/-- The wait of a frame (R144, R296), its operands as the frame holds them. -/
def frameWait (s : State) (q : Nat) : RunState × Wait :=
  let o0 := BitVec.ofNat 64 (frameField s q 0x40 0 64)
  let o1 := BitVec.ofNat 64 (frameField s q 0x48 0 64)
  if frameField s q 0x10 1 1 = 0 then (.run, .none)
  else
    match frameField s q 0x10 2 4, (s.seqOf q).savedWait with
    | 0, _ => (.wait, .twait o0)
    | 1, _ => (.wait, .trealign (o0.toNat % 32))
    | 2, .chrecv _ r l sl a => (.wait, .chrecv (o0.toNat % 256) r l sl a)
    | 3, .barwait _ _ sl a => (.wait, .barwait o0.toNat (o1.getLsbD 0) sl a)
    | 4, .waitv _ _ sz cd sl a => (.wait, .waitv o0.toNat o1 sz cd sl a)
    | _, _ => (if (s.seqOf q).released then .run else .parked, .none)

/-- The further waits of the bundle that a trap struck waiting or parked (R144; log 21). -/
def frameMore (s : State) (q : Nat) : List MoreWait :=
  if frameField s q 0x10 1 1 = 0 then [] else (s.seqOf q).savedMore.map (fun w => { wait := w.wait })

/-- The latches of a frame as results that wait for the first resumed bundle (R142, R143, R298): KIND 0, 3 and 4 from the
frame's words, a load whose data have not come keeping its accesses; KIND 1 and 2 from where they were held. A VALUE in a poisoned unit returns
poisoned (log 87). In a later frame they come before every result issued since (R297). -/
def frameLatches (s : State) (q : Nat) : List Flight :=
  (List.range (min 64 (frameField s q 0x10 12 8))).filterMap fun i =>
    let o := 0xE00 + 32 * i
    let w := fun b n => frameField s q o b n
    let crem := (BitVec.ofNat 32 (frameField s q o 32 32)).toInt
    let held := s.work.flights.find? (fun f => f.q = q && (f.mode = .latched i || f.mode = .frozen i || f.mode = .landed i))
    let val : Value := .word (BitVec.ofNat 64 (frameField s q (o + 8) 0 64)) (w 14 1 = 1 || s.unitPoisoned (.spd (q / 4)) (frameOff q + o + 8))
    let name := match held with | some f => f.id | none => s.work.nextId + i
    let fresh := fun (d : Dest) =>
      ({ id := name, q := q, dest := d, val := val, issue := 0, due := s.cyc, slot := 0, addr := 0,
         mode := .returning crem, returned := true } : Flight)
    match w 9 3 with
    | 0 =>
      match held with
      | some f => if f.missing = 0 then some (fresh (.scalar (w 0 9 % 64))) else some { f with mode := .returning crem, returned := true, issue := 0, slot := 0 }
      | none => some (fresh (.scalar (w 0 9 % 64)))
    | 1 | 2 => held.map (fun f => { f with mode := .returning crem, returned := true, issue := 0, slot := 0 })
    | 3 => some (fresh (.glint (w 0 9 % 4)))
    | 4 => some { fresh .fmt with val := .word (BitVec.ofNat 64 (frameField s q (o + 8) 0 32)) (w 14 1 = 1 || s.unitPoisoned (.spd (q / 4)) (frameOff q + o + 8)) }
    | _ => none

/-- Whether a Quiesce of a core's function has stopped the core's lead (R285, R303). -/
def leadStopped (s : State) (c : Nat) : Bool :=
  s.chip.quiesces.any (fun z => z.fn = (s.coreOf c).mapFn && !z.cut) &&
    (match (List.range 4).find? (fun i => (s.seqOf (4 * c + i)).run ≠ .idle) with
     | some i => (s.seqOf (4 * c + i)).run = .quiesced
     | none => false)

/-- Whether a unit that RETT takes from a frame as it stands is poisoned: the header, the loop stack, the lane flags, the control words of its
latches, ABANDON (R142, R235; log 87). -/
def framePoisoned (s : State) (q : Nat) : Bool :=
  let bad := fun (o n : Nat) => (List.range (n / 8)).any (fun i => s.unitPoisoned (.spd (q / 4)) (frameOff q + o + 8 * i))
  bad 0 0x60 || bad 0x100 0xC0 || bad 0x200 0xC00 || bad 0x1600 8 ||
    (List.range (min 64 (frameField s q 0x10 12 8))).any (fun i => s.unitPoisoned (.spd (q / 4)) (frameOff q + 0xE00 + 32 * i))

/-- Where a RETT resumes: EPC as the frame holds it (R142, R294). -/
def frameEpc (s : State) (q : Nat) : Nat := frameField s q 0 0 32

/-- The return from a handler (R142 to R144, R217): everything the frame holds is restored as it then stands, the latches
wait for the first resumed bundle, the delivered event's fault row is freed and its copy resumes or is abandoned. The window is the frozen one: an
edit of WPASS in the frame changes nothing (DESIGN CHOICE, log 88). A sequencer that returns to PARKED under a Quiesce whose lead has stopped is
QUIESCED (R303). -/
def leaveTrap (s : State) (q : Nat) : List Act :=
  let rw := frameWait s q
  let stopped := rw.1 = .parked && leadStopped s (q / 4)
  let lat := frameLatches s q
  let loops := frameLoops s q
  let more := frameMore s q
  let next := Seq.proceed { more := more }
  let evs := (s.seqOf q).delivered
  let abandon := frameField s q 0x1600 13 1 = 1
  let copyIds := evs.filterMap Pending.copy
  putBytes (q / 4) (frameOff q + 0x10) (leBytes 8 (frameField s q 0x10 0 64 / 2 * 2)) ::
  (List.range 24).map (fun k =>
    Act.lanes q k (BitVec.ofNat 1024 (leValue (s.readBytes (.spd (q / 4)) (frameOff q + 0x200 + 0x80 * k) 128)))) ++
  [.work (fun w => { w with
      flights := lat ++ w.flights.filter (fun f => !(f.q = q && f.mode ≠ .live))
      nextId := w.nextId + 64
      flagPosts := w.flagPosts.filter (fun p => p.q ≠ q)
      copies := w.copies.filterMap (fun y =>
        if copyIds.contains y.id then (if abandon then none else some { y with faulted := false })
        else some y) }),
   .seq q (fun y => { y with
      pc := frameEpc s q, run := if rw.1 = .run then next.run else if stopped then .quiesced else rw.1, wait := if rw.1 = .run then next.wait else rw.2
      more := if rw.1 = .run then next.more else more, loops := loops, rep := frameRep s q, hnd := false, rearm := true
      reent := frameField s q 0x10 6 1 = 1, rolledBack := frameField s q 0x10 7 1 = 1
      fls0 := BitVec.ofNat 5 (frameField s q 0x28 0 5), fls1 := BitVec.ofNat 5 (frameField s q 0x30 0 5)
      fls2 := BitVec.ofNat 5 (frameField s q 0x50 0 5), fls3 := BitVec.ofNat 5 (frameField s q 0x58 0 5)
      fev := BitVec.ofNat 64 (frameField s q 0x38 0 64) &&& 0xFFFFFFFF0001FFFF, fevAt := y.savedFevAt, sync := y.savedSync
      window := y.frozen.window, rollback := y.frozen.rollback, rollEsc := y.frozen.rollEsc, rbPass := y.frozen.rbPass
      escalate := y.escalate || y.frozen.escalate, frozen := {}, savedSync := none, savedFevAt := 0
      delivered := [], fdBusy := if evs.any Pending.fdrow then false else y.fdBusy
      savedWait := .none, savedMore := [], savedLoops := [], savedRep := none })]

/-- Results that land now, one after the other (R27, R28); data of a load that have not come are lost (R208). -/
def landAll : List Flight → State → List Act
  | [], _ => []
  | f :: l, s =>
    let g := if f.missing = 0 then f else f.poisonAll
    let a := landing s g ++ [Act.work (fun w => { w with flights := flightsAfter s g })]
    a ++ landAll l (applyActs a s)

/-- A pending event whose latch's bound is counted from cycle t on is delivered from that bound on (R277). -/
def Pending.armed (e : Pending) (t : Nat) (fs : List Flight) : Pending :=
  match e.flight.bind (fun id => fs.find? (fun f => f.id = id)) with
  | some f => (match f.mode with | .returning c => { e with notBefore := max e.notBefore (t + c).toNat } | _ => e)
  | none => e

/-- At the first resumed bundle, issued now, the latches' bounds are counted from it; those with no cycle left land before it (R143). -/
def armLatches (s : State) (q : Nat) : List Act :=
  if (s.seqOf q).rearm then
    let live : List Act :=
      [.work (fun w => { w with flights := w.flights.map (fun f =>
        match f.mode with
        | .returning c => if f.q = q then { f with mode := .live, due := (s.cyc + c).toNat } else f
        | _ => f) }),
       .seq q (fun y => { y with rearm := false, events := y.events.map (fun e => e.armed s.cyc s.work.flights) })]
    let t := applyActs live s
    live ++ landAll (t.work.flights.filter (fun f => f.q = q && f.returned && f.due ≤ s.cyc)) t
  else []

end Sys2Proof.Machine
end

