-- ==== Sys2Proof/Machine/Translate.lean ====
section
/-! DEFINITION. Addresses: the windows and their checks (10 R231 to R237), the layer map of device memory (10 R247), translation
by range entries, TLBs and page tables (10 R240 to R245), and the latency formulas (10 R256, R257). -/

namespace Sys2Proof.Machine

/-- The window that holds an address (R231): 1 device virtual, 2 sync, 3 cluster scratchpad, 4 own scratchpad, 0 none. -/
def windowOf (a : Nat) : Nat :=
  if a < 2 ^ 56 then 1
  else if 0xFD00000000000000 ≤ a && a < 0xFD00000000000000 + 2 ^ 40 then 2
  else if 0xFE00000000000000 ≤ a && a < 0xFE00000000000000 + 2 ^ 33 then 3
  else if 0xFF00000000000000 ≤ a && a < 0xFF00000000000000 + 2 ^ 22 then 4
  else 0

/-- The first address of a window. -/
def windowBase (w : Nat) : Nat :=
  if w = 2 then 0xFD00000000000000 else if w = 3 then 0xFE00000000000000 else if w = 4 then 0xFF00000000000000 else 0

/-- The die and within-die offset of a sync address (R237). -/
def syncDie (a : Nat) : Nat := a / 2 ^ 31 % 4
def syncOff (a : Nat) : Nat := a % 2 ^ 40 / 2 ^ 33 * 2 ^ 31 + a % 2 ^ 31

/-- The core and slot offset of a cluster-window address (R231). -/
def clusterCore (a : Nat) : Nat := a / 2 ^ 31 % 4 * 256 + a / 2 ^ 23 % 256
def clusterOff (a : Nat) : Nat := a % 2 ^ 23

/-- The function a core belongs to (R348). -/
def State.fnOf (s : State) (c : Nat) : Nat := (s.coreOf c).mapFn

/-- Bytes of a die's overflow area and its device physical base (R237, R367). -/
def ovfBytes (s : State) (d : Nat) : Nat := ((SMap.get 0 s.chip.ovf d).extractLsb' 0 11).toNat * 2 ^ 20
def ovfBase (s : State) (d : Nat) : Nat := ((SMap.get 0 s.chip.ovf d).extractLsb' 20 20).toNat * 2 ^ 20

/-- Whether n bytes of the sync window lie in its valid part, in one 2 GiB granule of the window, every 1 MiB granule of SYE memory
they touch owned by function fn (R237, R349; log 66). -/
def syncValid (s : State) (fn a n : Nat) : Bool :=
  let b := a + n - 1
  let d := syncDie a
  let g := syncOff a / Config.granule
  b / 2 ^ 31 = a / 2 ^ 31 && syncOff b < Config.syeSram + ovfBytes s d &&
    (List.range (syncOff b / Config.granule - g + 1)).all (fun i => SMap.get 0 s.chip.owners (2048 * d + g + i) = fn)

/-- How an access uses its bytes: a load, a store, or an engine's access, which never touches the system area (R233). -/
inductive Use where
  | load | store | engine
  deriving DecidableEq, Repr

/-- Whether n bytes lie in the valid part of their window for core c and the given use (R231, R233, R237, R349). -/
def validPart (s : State) (c a n : Nat) (u : Use) : Bool :=
  match windowOf a with
  | 1 => true
  | 2 => syncValid s (s.fnOf c) a n
  | 3 => clusterOff a + n ≤ Config.systemArea && s.fnOf (clusterCore a) = s.fnOf c
  | 4 =>
    match u with
    | .load => true
    | .store => a % 2 ^ 22 + n ≤ Config.ringArea
    | .engine => a % 2 ^ 22 + n ≤ Config.systemArea
  | _ => false

/-- The check of R232: the cause of the fault that n bytes from a meet, none when they pass. -/
def classify (s : State) (c a n align : Nat) (u : Use) : Option Nat :=
  let last := (a + n - 1) % 2 ^ 64
  if windowOf a = 0 then some cAddress
  else if windowOf last ≠ windowOf a then some cCrossing
  else if !validPart s c a n u then some cAddress
  else if a % align ≠ 0 then some cAlignment
  else none

/-- The home and offset of an address outside the device virtual window, for core c (R231, R237). -/
def locate (s : State) (c a : Nat) : Home × Nat :=
  match windowOf a with
  | 2 =>
    let o := syncOff a
    if o < Config.syeSram then (.sye (syncDie a), o) else (.hbm, ovfBase s (syncDie a) + (o - Config.syeSram))
  | 3 => (.spd (clusterCore a), clusterOff a)
  | _ => (.spd c, a % 2 ^ 22)

/-! Device physical memory (R247). -/

def State.stackAt (s : State) (k : Nat) : Stack := SMap.get {} s.chip.hbmStacks k

/-- The stacks, 0 to 11, that hold a layer region, lowest first. -/
def regionStacks (s : State) (g : Nat) : List Nat :=
  ((List.range 3).map (fun k => 3 * (g / 16) + k)).filter (fun k => (s.stackAt k).good.getLsbD (g % 16))

/-- Whether a device physical address is backed (R247). -/
def backed (s : State) (pa : Nat) : Bool :=
  pa < Config.hbmBytes && pa % Config.regionBytes < (regionStacks s (pa / Config.regionBytes)).length * 2 ^ 32

/-- The stack that holds a device physical address. -/
def stackOf (s : State) (pa : Nat) : Nat :=
  let ks := regionStacks s (pa / Config.regionBytes)
  let b := pa % Config.regionBytes / 4096
  ks.getD (if ks.length = 0 then 0 else b % ks.length) 0

/-! Translation (R240 to R245). -/

/-- Fields of a range entry (R241). -/
def rangeField (e : BitVec 192) (b w : Nat) : Nat := (e.extractLsb' b w).toNat

/-- Whether a range entry of function fn covers a virtual address. -/
def rangeCovers (e : BitVec 192) (fn va : Nat) : Bool :=
  rangeField e 0 1 = 1 && rangeField e 4 5 = fn && fn ≤ 16 && rangeField e 16 40 ≤ rangeField e 80 40 &&
    rangeField e 16 40 ≤ va / 2 ^ 16 && va / 2 ^ 16 ≤ rangeField e 80 40

/-- The device physical address that a range entry gives. -/
def rangePa (e : BitVec 192) (va : Nat) : Nat := rangeField e 144 24 * 2 ^ 16 + (va - rangeField e 16 40 * 2 ^ 16)

/-- The lowest-numbered range entry that hits (R240). -/
def rangeHit (s : State) (fn va : Nat) : Option (Nat × BitVec 192) := s.chip.ranges.find? (fun e => rangeCovers e.2 fn va)

/-- What an access to a mapped address meets: the faults of R245 in their order, or its physical address. -/
def checkMapping (s : State) (pa : Nat) (writable migrated write : Bool) : Translation :=
  if !backed s pa then .fault 0
  else if write && !writable then .fault 1
  else if migrated then .fault 2
  else .done pa

/-- The index of an address in a table of level k. -/
def levelIndex (va k : Nat) : Nat := if k = 3 then va / 2 ^ 39 % 2 ^ 17 else va / 2 ^ (12 + 9 * k) % 512

/-- A table entry. -/
def tableEntry (s : State) (table i : Nat) : Nat := leValue (s.readBytes .hbm (table + 8 * i) 8)

/-- The index of the entry that a walk takes: of a 64 KiB page's 16 entries any one counts (R242). -/
def pickedIndex (s : State) (va pick k table : Nat) : Nat :=
  let idx := levelIndex va k
  let p := tableEntry s table idx
  if k = 0 && p / 4 % 4 = 1 && p / 2 % 2 = 1 then idx / 16 * 16 + pick % 16 else idx

/-- One level of a page-table walk: k levels remain below it (R242). An entry in a poisoned unit raises the translation fault, which no rule
says (DESIGN CHOICE, log 85). -/
def walkLevel (s : State) (fn va pick : Nat) : Nat → Nat → Option TlbEntry
  | k, table =>
    let idx := levelIndex va k
    let at_ := pickedIndex s va pick k table
    let p := tableEntry s table at_
    let size := p / 4 % 4
    let addr := p / 2 ^ 12 % 2 ^ 28 * 4096
    if !backed s (table + 8 * idx) || s.unitPoisoned .hbm (table + 8 * idx) || s.unitPoisoned .hbm (table + 8 * at_) || p % 2 = 0 || p / 128 % 32 ≠ 0 ||
        p / 2 ^ 40 ≠ 0 || (p / 32 % 2 = 1 && size ≠ 1) then none
    else if p / 2 % 2 = 1 then
      let bits := if size = 0 then 12 else if size = 1 then 16 else if size = 2 then 21 else 30
      if (k = 0 && size < 2 || k = 1 && size = 2 || k = 2 && size = 3) && addr % 2 ^ bits = 0 then
        some ⟨fn, va / 2 ^ bits * 2 ^ bits, 2 ^ bits, addr, p / 16 % 2 = 1, p / 32 % 2 = 1, p / 64 % 2 = 1⟩
      else none
    else
      match k with
      | 0 => none
      | k + 1 => walkLevel s fn va pick k addr

/-- A whole walk from function fn's root (R242, R367); none where the walk raises the translation fault. -/
def walkNow (s : State) (fn va pick : Nat) : Option TlbEntry :=
  let root := SMap.get 0 s.chip.roots fn
  if root.getLsbD 0 then walkLevel s fn va pick 3 ((root.extractLsb' 20 20).toNat * 2 ^ 20) else none

/-- Whether a TLB entry serves a function's address. -/
def TlbEntry.covers (e : TlbEntry) (fn va : Nat) : Bool := e.fn = fn && e.base ≤ va && va < e.base + e.size

/-- What a TLB entry gives an access. -/
def TlbEntry.use (s : State) (e : TlbEntry) (va : Nat) (write : Bool) : Translation :=
  checkMapping s (e.pa + (va - e.base)) e.writable (e.hostShared && e.own) write

/-- A translation that needs no walk (R240, R243), with the cycles it adds (R257): range entries, the core's L1 TLB, the die's
last-level TLB. -/
def translateFast (s : State) (c fn va : Nat) (write : Bool) : Option (Translation × Nat) :=
  match rangeHit s fn va with
  | some (n, e) =>
    let t := checkMapping s (rangePa e va) (rangeField e 1 1 = 1) false write
    if write && s.chip.moving.any (fun m => m.1 = n) && (t = .fault 1) then some (.held n, 0) else some (t, 0)
  | none =>
    match (SMap.get [] s.chip.l1 c).find? (fun e => e.covers fn va) with
    | some e => some (e.use s va write, 0)
    | none => ((SMap.get [] s.chip.tlb (c / 256)).find? (fun e => e.covers fn va)).map (fun e => (e.use s va write, 8))

/-- A translation made at once, as an engine's access uses it. -/
def translateNow (s : State) (c fn va pick : Nat) (write : Bool) : Translation :=
  match translateFast s c fn va write with
  | some r => r.1
  | none => match walkNow s fn va pick with | some e => e.use s va write | none => .fault 0

/-- A list of entries with one more, the oldest dropped beyond the capacity (R243; log 11). -/
def tlbInsert (cap : Nat) (l : List TlbEntry) (e : TlbEntry) : List TlbEntry := (e :: l.filter (fun x => x ≠ e)).take cap

/-- Fills the TLBs of core c and its die (R243). -/
def fillTlbs (c : Nat) (e : TlbEntry) (h : Chip) : Chip :=
  { h with l1 := SMap.set [] h.l1 c (tlbInsert 64 (SMap.get [] h.l1 c) e)
           tlb := SMap.set [] h.tlb (c / 256) (tlbInsert 8192 (SMap.get [] h.tlb (c / 256)) e) }

/-- The device addresses of the table entries that a walk reads, as far as it goes (R242). -/
def walkPlaces (s : State) (va pick : Nat) : Nat → Nat → List Nat
  | k, table =>
    let idx := levelIndex va k
    let at_ := pickedIndex s va pick k table
    let p := tableEntry s table at_
    if !backed s (table + 8 * idx) then []
    else
      (if at_ = idx then [table + 8 * idx] else [table + 8 * idx, table + 8 * at_]) ++ (match k with
        | 0 => []
        | k + 1 => if p % 4 = 1 then walkPlaces s va pick k (p / 2 ^ 12 % 2 ^ 28 * 4096) else [])

/-- The table entries of a walk of function fn. -/
def tablePlaces (s : State) (fn va pick : Nat) : List Nat :=
  let root := SMap.get 0 s.chip.roots fn
  if root.getLsbD 0 then walkPlaces s va pick 3 ((root.extractLsb' 20 20).toNat * 2 ^ 20) else []

/-- The pages that n bytes from va touch: their start and length, split at 4 KiB. -/
def splitPages : Nat → Nat → Nat → List (Nat × Nat)
  | 0, _, _ => []
  | fuel + 1, va, n =>
    if n = 0 then []
    else
      let k := min n (4096 - va % 4096)
      (va, k) :: splitPages fuel (va + k) (n - k)

/-- The parts of n bytes at va that an engine of core c accesses, page by page, with the translations that need no walk (R243). -/
def engineParts (s : State) (c fn va n : Nat) (write : Bool) : List PagePart :=
  (splitPages (n / 4096 + 2) va n).map (fun p => ⟨p.1, p.2, match translateFast s c fn p.1 write with | some r => r.1 | none => .waiting⟩)

/-- Of n bytes at va, the addresses of the pages that still need a walk for core c (R243). -/
def unmapped (s : State) (c fn va n : Nat) (write : Bool) : List Nat :=
  ((splitPages (n / 4096 + 2) va n).filter (fun p => (translateFast s c fn p.1 write).isNone)).map (fun p => p.1)

/-- Whether what the SL4, a reducer or the JNE reads or writes of n bytes at va needs no walk any more: all pages translate without one, or the
first that does not has been walked and met a fault (R243; log 84). -/
def mapped (s : State) (c fn va n : Nat) (write : Bool) : Bool :=
  match unmapped s c fn va n write with
  | [] => true
  | a :: _ => s.work.failed.contains (c / 256, fn, a / 4096)

/-- The address and SUB of the first fault among parts. -/
def firstPartFault (l : List PagePart) : Option (Nat × Nat) :=
  l.findSome? (fun p => match p.trans with | .fault k => some (k, p.va) | _ => none)

/-- The bytes of device memory at translated parts, with their poison. -/
def readParts (s : State) (l : List PagePart) : List Byte × List Bool :=
  l.foldl (fun a p => match p.trans with | .done pa => (a.1 ++ s.readBytes .hbm pa p.n, a.2 ++ s.readPoison .hbm pa p.n) | _ => a) ([], [])

/-- Bytes of device virtual memory as an engine reads them, or the SUB and address of the fault (R245, R299). -/
def readDevice (s : State) (c fn va n pick : Nat) : Except (Nat × Nat) (List Byte × List Bool) :=
  (splitPages (n / 4096 + 2) va n).foldl (fun acc p =>
    match acc with
    | .error e => .error e
    | .ok (bs, ps) =>
      match translateNow s c fn p.1 pick false with
      | .done pa => .ok (bs ++ s.readBytes .hbm pa p.2, ps ++ s.readPoison .hbm pa p.2)
      | .fault k => .error (k, p.1)
      | _ => .error (0, p.1)) (.ok ([], []))

/-- Writes of device virtual memory by an engine, or the fault they meet; a held store counts as one that waits (R253). -/
def writeDevice (s : State) (c fn va pick : Nat) (bs : List Byte) (ps : List Bool) : Except (Nat × Nat) (List Act) :=
  (splitPages (bs.length / 4096 + 2) va bs.length).foldl (fun acc p =>
    match acc with
    | .error e => .error e
    | .ok l =>
      match translateNow s c fn p.1 pick true with
      | .done pa => .ok (l ++ [.write .hbm pa ((bs.drop (p.1 - va)).take p.2) ((ps.drop (p.1 - va)).take p.2)])
      | .fault k => .error (k, p.1)
      | _ => .error (3, p.1)) (.ok [])

/-- Whether a store of n bytes meets a page whose stores wait for a migration (R246). -/
def heldWrite (s : State) (fn va n : Nat) : Bool :=
  (splitPages (n / 4096 + 2) va n).any (fun p => match translateFast s 0 fn p.1 true with | some (.held _, _) => true | _ => false)

/-! Latency formulas (R256). -/

/-- The distance of two numbers. -/
def dist (a b : Nat) : Nat := a - b + (b - a)

/-- Hops between two cores of one die. -/
def meshHops (c d : Nat) : Nat := dist (c % 256 / 16) (d % 256 / 16) + dist (c % 16) (d % 16) + 2

/-- Hops to stack k, 0 to 2, of the core's own die. -/
def stackHops (c k : Nat) : Nat := c % 256 / 16 + dist (c % 16) (2 + 5 * k) + 2

/-- The formula of a stack, with q commands queued ahead. -/
def stackBound (c stack q : Nat) : Nat :=
  if c / 256 = stack / 3 then 140 + 2 * stackHops c (stack % 3) + 4 * q else 140 + 2 * 32 + 4 * q + 40

/-- The remote scratchpad bound of R256, from core c to n bytes at core d. -/
def remoteBound (c d n : Nat) : Nat :=
  if d / 256 = c / 256 then 10 + 2 * meshHops c d + (n + 63) / 64 else 10 + 2 * 32 + (n + 63) / 64 + 40

/-- The formula bound of an access by core c to n bytes at a, for q commands queued at its stack (R256). -/
def formula (s : State) (c a n q : Nat) (t : Translation) : Nat :=
  match windowOf a with
  | 1 =>
    match t with
    | .done pa => max (stackBound c (stackOf s pa) q) (stackBound c (stackOf s (pa + n - 1)) q)
    | .held k =>
      let pa := rangePa (SMap.get 0 s.chip.ranges k) a
      max (stackBound c (stackOf s pa) q) (stackBound c (stackOf s (pa + n - 1)) q)
    | _ => stackBound c (3 * (c / 256)) q
  | 2 => if syncOff a + n ≤ Config.syeSram then 68 else 68 + 140 + 2 * 30 + 4 * q
  | 3 =>
    let d := clusterCore a
    if d = c then 6 else remoteBound c d n
  | _ => 6

/-- What a stack's refresh and retrain add (R257): 40 cycles above 4 times nominal; while a retrain runs the open choice k. -/
def stackExtra (s : State) (t : Translation) (k : Nat) : Nat :=
  match t with
  | .done pa =>
    let st := s.stackAt (stackOf s pa)
    (if (List.range 16).any (fun l => 4 < st.rate l) then 40 else 0) + (if st.retrain then s.choice k else 0)
  | _ => 0

end Sys2Proof.Machine
end

