-- ==== Sys2Proof/Machine/Access.lean ====
section
/-! DEFINITION. Memory accesses: what holds one back, issuing loads and stores, performing them at their homes, deferred faults
(8 R207 to R211, 10 R253 to R257, 11 R258 to R268, 13 R299). -/

namespace Sys2Proof.Machine

/-- Each step's open choices are numbered from the counter that this advances (log 2). -/
def bump : Act := .work (fun w => { w with free := w.free + 65536 })

/-! What holds an access back. -/

/-- Where an untranslated access to device memory is to go, as the tables stand: by the walk it waits for or the range that holds it; without
either, above device memory. -/
def Access.expected (s : State) (a : Access) : Nat :=
  match a.trans with
  | .waiting => (match walkNow s a.fn a.va 0 with | some e => e.pa + (a.va - e.base) | none => a.va + 2 ^ 40)
  | .held n => rangePa (SMap.get 0 s.chip.ranges n) a.va
  | _ => a.va + 2 ^ 40

/-- Where an access's unit lies. -/
def Access.place (s : State) (a : Access) : Home × Nat :=
  match a.kind, a.trans with
  | .column off, _ => (.bos (a.q / 4), off)
  | _, .done pa => (.hbm, pa)
  | _, _ => if windowOf a.va = 1 then (.hbm, a.expected s) else locate s (a.q / 4) a.va

/-- The cycle in which an access's bundle issued (R262). -/
def Access.bundle (a : Access) : Nat := a.heldAt.getD a.issue

/-- Whether an access's home is its own core's scratchpad. -/
def Access.own (s : State) (a : Access) : Bool := (a.place s).1 = .spd (a.q / 4)

/-- Whether two ranges of bytes meet. -/
def rangesMeet (a n b m : Nat) : Bool := a < b + m && b < a + n

/-- Whether two accesses touch one byte, whatever their windows (R264). -/
def Access.meets (s : State) (a b : Access) : Bool :=
  let p := a.place s
  let r := b.place s
  (p.1 = r.1 && rangesMeet p.2 a.size r.2 b.size) ||
    (windowOf a.va = windowOf b.va && (windowOf a.va = 1 || windowOf a.va = 2) && rangesMeet a.va a.size b.va b.size)

/-- The work of a hold that is not yet done (R218, R265). -/
def pendingOf (s : State) (h : Hold) : List Access :=
  s.work.accesses.filter (fun a => !a.performed && (h.accs.contains a.id || (match a.origin with | some o => h.cmds.contains o | none => false)))

/-- Whether a result stands still while a handler runs: a drain of its program does not hold the handler's accesses back for it. -/
def Flight.suspended (f : Flight) : Bool := match f.mode with | .live | .returning _ => false | _ => true

/-- Whether every copy, command, element and result of a hold is done. -/
def holdEnginesDone (s : State) (h : Hold) : Bool :=
  !(s.work.copies.any (fun y => h.copies.contains y.id)) && !(s.work.commands.any (fun y => h.cmds.contains y.id)) &&
    !(s.chip.elements.any (fun e => h.elems.contains e.id)) &&
    !(s.chip.srds.any (fun e => e.2.any (fun y => h.cmds.contains y.id && y.entry.getLsbD 3 && y.entry.getLsbD 7))) &&
    !(s.work.flights.any (fun f => h.results.contains f.id && !f.suspended))

/-- Whether a hold holds nothing any more. -/
def holdClear (s : State) (h : Hold) : Bool := (pendingOf s h).isEmpty && holdEnginesDone s h

/-- The place of a write among those of one cycle to one unit (R258): sequencers' writes by die, core, sequencer and slot, then those of engines, by
copy channel, the MXE last; between the copies and the MXE those of the engines that have no channel. Writes of one rank, those of one channel
number of two cores, of two MXEs or of two of the other engines, go in the order in which they were made (DESIGN CHOICE, log 4: R258 gives
none). -/
def accessRank (s : State) (a : Access) : Nat :=
  if !a.engine then 8 * a.q + a.slot
  else
    match s.work.copies.find? (fun y => a.origin = some y.id) with
    | some y => 2 ^ 24 + 2 * y.ch
    | none => if a.origin.isNone then 2 ^ 24 + 7 else 2 ^ 24 + 8

/-- The ranks of the other engines' writes, and of the MXE's. -/
def engineRank : Nat := 2 ^ 24 + 7
def mxeRank : Nat := 2 ^ 24 + 8

/-- Notes a write that an event of this cycle performs (R258). -/
def noteWrite (rank : Nat) (h : Home) (off n : Nat) : Act := .work (fun w => { w with wrote := w.wrote ++ [(h.code off, n, rank)] })

/-- Whether a write of a rank comes too late in this cycle: one that R258 places after it in a cycle has performed on a byte of it, so that it
performs in a later cycle. -/
def overtaken (s : State) (rank : Nat) (h : Home) (off n : Nat) : Bool := s.work.wrote.any (fun e => rank < e.2.2 && rangesMeet e.1 e.2.1 (h.code off) n)

/-- Whether an access by sequencer q to its own scratchpad performs at issue (R263; log 5): no drain holds it, no earlier
access of the core to that scratchpad is still to perform, and no write to the scratchpad that R258 places after it has performed in this cycle. -/
def ownFree (s : State) (q : Nat) : Bool :=
  holdClear s (s.seqOf q).hold && !(s.work.accesses.any (fun a => !a.engine && !a.performed && a.q / 4 = q / 4 && a.own s)) &&
    !(overtaken s (8 * q + 7) (.spd (q / 4)) 0 Config.spdBytes)

/-- The dependences of a new access (R262 to R265): the sequencer's drains, its earlier accesses to the same bytes, the core's
earlier accesses to its own scratchpad, and for a store elsewhere the non-local loads of its bundle. -/
def depsOf (s : State) (w : Work) (a : Access) : Hold :=
  let h := (s.seqOf a.q).hold
  let before := w.accesses.filter (fun b => !b.performed && !b.engine &&
    ((b.q = a.q && b.meets s a) || (b.q / 4 = a.q / 4 && b.own s && a.own s) ||
      (b.q = a.q && b.issue = a.bundle && b.kind = .load && !(b.own s) && !(a.own s) && (match a.kind with | .load | .column _ => false | _ => true))))
  { h with accs := h.accs ++ before.map (fun b => b.id) }

/-- The work with one more access, named. -/
def Work.pushAccess (w : Work) (s : State) (a : Access) : Work :=
  { w with accesses := w.accesses ++ [{ a with id := w.nextId, deps := depsOf s w a }], nextId := w.nextId + 1 }

/-- The work without an access. -/
def Work.dropAccess (w : Work) (id : Nat) : Work := { w with accesses := w.accesses.filter (fun a => a.id ≠ id) }

/-- A page walk that an access waits for: it joins one in flight to its page, or begins, or waits its turn behind 64 others (R243). -/
def Work.walkFor (w : Work) (s : State) (c fn va at_ : Nat) (waiter : Option Nat) : Work :=
  let page := walkNow s fn va 0
  let hit := fun (x : Walk) => x.die = c / 256 && x.fn = fn &&
    (x.page = va / 4096 || (match page with | some e => e.covers fn (4096 * x.page) | none => false))
  let add := waiter.toList
  if w.walks.any hit then { w with walks := w.walks.map (fun x => if hit x then { x with waiters := x.waiters ++ add } else x) }
  else
    let started := (w.walks.filter (fun x => x.die = c / 256 && x.started)).length < 64
    { w with walks := w.walks ++ [⟨w.nextId, c / 256, c, fn, va / 4096, at_, started, add⟩], nextId := w.nextId + 1 }

/-- The walks that parts of an engine's access wait for (R243). -/
def walksFor (s : State) (c fn k : Nat) (l : List PagePart) : Act :=
  .work (fun w => l.foldl (fun w p => if p.trans = .waiting then w.walkFor s c fn p.va (s.cyc + 1 + s.choice k) none else w) w)

/-- The places in device memory that an access uses: physical address and length. -/
def Access.devicePlaces (a : Access) : List (Nat × Nat) :=
  (match a.trans with | .done pa => [(pa, a.size)] | _ => []) ++
    a.pieces.filterMap (fun p => match p.trans with | .done pa => some (pa, p.n) | _ => none)

/-! Deferred events (R299). -/

/-- What a migration fault of function fn at an address asks for (R246, R368): in hardware mode the page service hands the page over
to the device at a free cycle, in host-assisted mode the host driver does (log 72). -/
def migrationNeed (s : State) (fn va : Nat) : List Act :=
  if s.chip.duty.getLsbD 0 then askHost s 0
  else [.work (fun w => { w with agenda := w.agenda ++ [(s.cyc + 1 + s.choice (50000 + va / 2 ^ 16 % 4096), .pageHandover fn va false)] })]

/-- A deferred event for sequencer q; a 65th ends the launch on the core as a double fault. -/
def pushEvent (s : State) (q : Nat) (e : Pending) : List Act :=
  (if e.sub = 2 then migrationNeed s (s.fnOf (q / 4)) e.addr else []) ++
    (if 64 ≤ (s.seqOf q).events.length + (s.seqOf q).orderFaults.length then doubleFault s (q / 4) else [.seq q (fun y => { y with events := y.events ++ [e] })])

/-- The deferred store fault of a store (R208, R299): at most 8 bytes go into the event, more into the frame's fault data row when it is
free, else they are lost. -/
def storeFault (s : State) (q slot addr va : Nat) (bytes : List Byte) (sub : Nat) : List Act :=
  let wide := 8 < bytes.length
  let free := !(s.seqOf q).fdBusy
  pushEvent s q { code := 0x21, slot := slot, sub := sub, faddr := addr, addr := va, info := bytes.length
                  data := if wide then 0 else BitVec.ofNat 64 (leValue bytes), fdrow := wide && free, dlost := wide && !free } ++
    (if wide && free then [.seq q (fun y => { y with fdBusy := true }), putBytes (q / 4) (frameOff q + 0x3800) (bytes.take 2048)] else [])

/-! Reads of memory. -/

/-- n bytes at a home, where a range of a SYE that runs past its SRAM goes on in the die's overflow area (R237). -/
def pieces (s : State) (h : Home) (off n : Nat) : List (Home × Nat × Nat) :=
  match h with
  | .sye d =>
    if off < Config.syeSram && Config.syeSram < off + n then
      [(h, off, Config.syeSram - off), (.hbm, ovfBase s d, off + n - Config.syeSram)]
    else [(h, off, n)]
  | _ => [(h, off, n)]

/-- What the ECC check of a read does to a unit with flipped bits (R235, R254, R359): one bit is corrected and counted; several poison a unit
of device memory, with its event. -/
def eccUnit (s : State) (fn : Nat) (h : Home) (u : Nat) (m : UnitMark) : List Act :=
  match m, h with
  | .flip, .hbm => [.mark h u .clear, post s 0x02 fn (stackOf s (8 * u)) (8 * u) 0]
  | .flip, .sye _ => [.mark h u .clear, post s 0x01 fn (256 * (8 * u / Config.syeSram)) (8 * u % Config.syeSram) 0]
  | .flip, .spd _ => let c := 8 * u / Config.spdBytes; [.mark h u .clear, post s 0x01 (s.fnOf c) c 0 0]
  | .flip, .bos _ => let c := 8 * u / Config.bosBytes; [.mark h u .clear, post s 0x01 (s.fnOf c) c 0 0]
  | .flips, .hbm => [.mark h u .error, post s 0x11 fn (stackOf s (8 * u)) (8 * u) 0]
  | .flips, _ => [.mark h u .error]
  | _, _ => []

/-- The ECC check of a read for function fn of the listed places: home, offset and bytes (R254, R359, R364, R378). -/
def eccChecks (s : State) (l : List (Home × Nat × Nat)) (fn : Nat) : List Act :=
  [Home.spd 0, .bos 0, .sye 0, .hbm].flatMap fun h =>
    ((s.marks h).filter (fun e => (e.2 = .flip || e.2 = .flips) &&
      (l.flatMap (fun p => pieces s p.1 p.2.1 p.2.2)).any (fun p => p.1.code 0 / 2 ^ 64 = h.code 0 / 2 ^ 64 && 0 < p.2.2 &&
        p.1.key p.2.1 / 8 ≤ e.1 && e.1 ≤ (p.1.key p.2.1 + p.2.2 - 1) / 8))).flatMap (fun e => eccUnit s fn h e.1 e.2)

/-- The single flips that a read of rows of core c corrects and counts (R359). -/
def rowChecks (s : State) (c : Nat) (rows : List Nat) : List Act :=
  let flip := fun (r : Nat) => (s.rowOf c r).flip
  (rows.eraseDups.filter (fun r => flip r ≠ 0)).flatMap (fun r =>
    .flipRow c r 0 :: ((List.range 256).filter (flip r).getLsbD).map (fun _ => post s 0x01 (s.fnOf c) c 0 0))

/-- The bytes of a home's range, each with its poison. -/
def readHome (s : State) (h : Home) (off n : Nat) : List (Byte × Bool) :=
  (pieces s h off n).flatMap (fun p => (s.readBytes p.1 p.2.1 p.2.2).zip (s.readPoison p.1 p.2.1 p.2.2))

/-- Whether a load that an own store's release waits for is still to perform (R262). -/
def Unreleased.outstanding (s : State) (u : Unreleased) : Bool := s.work.accesses.any (fun a => !a.performed && u.loads.contains a.id)

/-- Whether an own store not released when it performed covers byte off of core c's scratchpad. -/
def Unreleased.covers (u : Unreleased) (c off : Nat) : Bool := u.core = c && u.off ≤ off && off < u.off + u.old.length

/-- A byte of core c's scratchpad as others see it, from the newest store on: what the newest released one has left there (R262). -/
def foreignByte (s : State) (c off : Nat) (b : Byte × Bool) : List Unreleased → Byte × Bool
  | [] => b
  | u :: l =>
    if !u.covers c off then foreignByte s c off b l
    else if u.outstanding s then foreignByte s c off (u.old.getD (off - u.off) b) l
    else b

/-- A scratchpad's bytes as a party sees them: stores whose bundle's loads are outstanding are released to the core's own sequencers
only (R262); reader is the core whose sequencers read, none for an engine or the host. -/
def readForeign (s : State) (h : Home) (off n : Nat) (reader : Option Nat) : List (Byte × Bool) :=
  let base := readHome s h off n
  match h with
  | .spd c =>
    if some c = reader then base
    else if s.work.unreleased.isEmpty then base
    else base.mapIdx (fun i b => foreignByte s c (off + i) b s.work.unreleased.reverse)
  | _ => base

/-- Where each of n bytes at va lies for core c, as the tables stand, whatever its window (R264); an address without a translation lies
nowhere but at itself. -/
def bytePlaces (s : State) (c va n : Nat) : List (Home × Nat) :=
  if windowOf va = 1 then
    (splitPages (n / 4096 + 2) va n).flatMap (fun p =>
      let a := match translateNow s c (s.fnOf c) p.1 0 false with | .done pa => pa | _ => p.1 + 2 ^ 40
      (List.range p.2).map (fun i => (Home.hbm, a + i)))
  else
    let h := locate s c va
    (pieces s h.1 h.2 n).flatMap (fun p => (List.range p.2.2).map (fun i => (p.1, p.2.1 + i)))

/-- What a load takes from the stores its sequencer holds in a commit window, later stores winning (R125), through whatever address each was
made (R264). -/
def windowBytes (s : State) (q va n : Nat) : List (Nat × Byte × Bool) :=
  let mine := bytePlaces s (q / 4) va n
  ((s.seqOf q).frozen.window ++ (s.seqOf q).window).flatMap fun h =>
    let there := bytePlaces s (q / 4) h.va h.bytes.length
    (mine.mapIdx (fun i p => (i, p))).filterMap (fun e =>
      (there.findIdx? (fun p => p = e.2)).map (fun j => (e.1, h.bytes.getD j 0, h.poison.getD j false)))

/-- Bytes with those taken from the window put over them. -/
def overWindow (fwd : List (Nat × Byte × Bool)) (l : List (Byte × Bool)) : List (Byte × Bool) :=
  fwd.foldl (fun l f => modifyAt f.1 (fun _ => f.2) l) l

/-! Results of loads. -/

/-- A row write with another over it. -/
def RowWrite.over (w p : RowWrite) : RowWrite :=
  ⟨(w.data &&& ~~~p.dataMask) ||| (p.data &&& p.dataMask), w.dataMask ||| p.dataMask,
    (w.poison &&& ~~~p.poisonMask) ||| (p.poison &&& p.poisonMask), w.poisonMask ||| p.poisonMask,
    (w.mark &&& ~~~p.markMask) ||| (p.mark &&& p.markMask), w.markMask ||| p.markMask, w.lane⟩

/-- A result with the bytes of one unit arrived at offset off; poisoned bytes give zero data (R107, R211). -/
def Flight.deliver (f : Flight) (off : Nat) (l : List (Byte × Bool)) : Flight :=
  let ps := l.map (fun b => b.2)
  match f.val with
  | .rows ws =>
    let w := writeRowBytes off (l.map (fun b => if b.2 then 0 else b.1)) ps
    { f with val := .rows (modifyAt 0 (fun v => v.over w) ws), missing := f.missing - 1
             got := f.got ||| ((1 : MaskBits) <<< (8 * off / f.gotWidth)) }
  | _ =>
    let p := ps.any (fun b => b)
    { f with val := .word (if p then 0 else BitVec.ofNat 64 (leValue (l.map (fun b => b.1)))) p, missing := f.missing - 1 }

/-- Changes one result. -/
def modFlight (id : Nat) (g : Flight → Flight) : Act :=
  .work (fun w => { w with flights := w.flights.map (fun f => if f.id = id then g f else f) })

/-- A load of pass p of a LOOPP body has met an uncorrectable error (R126, R127): the loop rolls back at the end of this pass, or
escalates; after the loop it escalates at the next boundary. While the sequencer is in a handler, a load that hnd says the interrupted
program issued concerns that program's loop, which is frozen (R129). Of several such loads before the rollback the lowest pass counts (log 94). -/
def poisonedLoad (q p : Nat) (hnd : Bool) : Act :=
  let least := fun (r : Option Nat) => some (match r with | some r => min r p | none => p)
  .seq q (fun y =>
    if y.hnd && !hnd then
      let z := y.frozen
      { y with frozen := if y.savedLoops.any (fun e => e.pipe) then { z with rollback := least z.rollback, rollEsc := z.rollEsc || z.rolledBack }
                         else { z with escalate := true } }
    else if y.loops.any (fun e => e.pipe) then { y with rollback := least y.rollback, rollEsc := y.rollEsc || y.rolledBack }
    else { y with escalate := true })

/-- Whether one of n bytes of a home, but for those that the window gives, lies in a unit that an uncorrectable error marks (R126). -/
def errorIn (s : State) (h : Home) (off n : Nat) (fwd : List (Nat × Byte × Bool)) : Bool :=
  (pieces s h off n).any (fun p => (List.range p.2.2).any (fun i => (s.unitMark p.1 (p.2.1 + i)).fromError && !(p.1 = h && fwd.any (fun f => off + f.1 = p.2.1 + i))))

/-! Issue. -/

/-- One unit of an access: its address, its size, and its offset in the destination or source. -/
structure Part where
  va : Nat
  size : Nat
  off : Nat

/-- n bytes cut into aligned units of u bytes. -/
def parts (va n u : Nat) : List Part := (List.range (n / u)).map (fun i => ⟨va + u * i, u, u * i⟩)

/-- The pass of the LOOPP body in which the bundle at a sequencer's counter stands, if it stands in one (R124). -/
def passOf (y : Seq) : Option Nat :=
  match y.loops.getLast? with
  | some e => if e.pipe && e.start ≤ y.pc && y.pc < e.stop then some e.index else none
  | none => none

/-- The pass that a load belongs to: that of the body it stands in, or in a prologue that a rollback has re-entered the pass to be
repeated (R124, R126). -/
def loadPass (y : Seq) : Option Nat :=
  if y.reent then (match y.loops.getLast? with | some e => if e.pipe then some e.index else none | none => none) else passOf y

/-- Whether a sequencer's core runs a TIMED launch (R268). -/
def timedLaunch (s : State) (c : Nat) : Bool :=
  match (s.coreOf c).owner with
  | some n => match s.launchOf c n with | some l => !l.task | none => false
  | none => false

/-- The launch a core runs. -/
def runningLaunch (s : State) (c : Nat) : Option Nat :=
  match (s.coreOf c).owner with
  | some n => ((s.coreOf c).queues.getD n {}).launch
  | none => none

/-- A unit's translation at issue and what its TLB lookup adds, none while a walk goes on (R240, R243, R257). -/
def unitTrans (x : Ctx) (s : State) (u : Part) (write : Bool) : Option (Translation × Nat) :=
  if windowOf u.va = 1 then translateFast s x.core (s.fnOf x.core) u.va write else some (.none, 0)

/-- The entries of the die's last-level TLB that units find there and the core's L1 TLB does not hold go into the L1 TLB (R243). -/
def l1Fills (x : Ctx) (s : State) (vas : List Nat) : List Act :=
  let fn := s.fnOf x.core
  let l1 := SMap.get [] s.chip.l1 x.core
  let found := vas.filterMap fun va =>
    if windowOf va = 1 && (rangeHit s fn va).isNone && !(l1.any (fun e => e.covers fn va)) then
      (SMap.get [] s.chip.tlb (x.core / 256)).find? (fun e => e.covers fn va)
    else none
  found.eraseDups.map (fun e => .chip (fun h => { h with l1 := SMap.set [] h.l1 x.core (tlbInsert 64 (SMap.get [] h.l1 x.core) e) }))

/-- The formula bound of an access of slot x with the given units (R256; log 65): B counts the bytes of all of them, and the largest
bound holds; k numbers the first unit's choice of q. -/
def groupBound (x : Ctx) (s : State) (us : List Part) (write : Bool) (k : Nat) : Nat :=
  let n := us.foldl (fun n u => n + u.size) 0
  (us.mapIdx (fun i u =>
    formula s x.core u.va (if windowOf u.va = 1 then u.size else n) (s.choice (k + 4 * i))
      (match unitTrans x s u write with | some r => r.1 | none => .waiting))).foldl max 0

/-- The place in device memory that n bytes at va reach: translated, or in the overflow part of a die's sync memory (R237). -/
def reached (s : State) (c va n : Nat) (t : Translation) : Translation :=
  if windowOf va ≠ 2 then t
  else match locate s c va with
    | (.hbm, pa) => .done pa
    | (.sye d, off) => if Config.syeSram < off + n then .done (ovfBase s d) else t
    | _ => t

/-- The access of one unit of slot x, its times chosen inside the formula bound f (R256, R257, R260); k numbers its choices. A store of
a TIMED launch whose home is not the own scratchpad owes a timing fault when it is late, whatever has held it back (R268; log 68). -/
def newAccess (x : Ctx) (s : State) (kind : AccessKind) (u : Part) (bytes : List Byte) (ps : List Bool) (write : Bool)
    (due k f : Nat) : Access :=
  let c := x.core
  let fn := s.fnOf c
  let tr := unitTrans x s u write
  let t := match tr with | some r => r.1 | none => .waiting
  let extra := (match tr with | some r => r.2 | none => 0) + stackExtra s (reached s c u.va u.size t) (k + 1)
  let total := 1 + s.choice (k + 2) % (f + extra)
  let at_ := if write then s.cyc + total else s.cyc + 1 + s.choice (k + 3) % total
  { id := 0, q := x.q, fn := fn, launch := runningLaunch s c, slot := x.slot, addr := x.addr, kind := kind, va := u.va, size := u.size
    bytes := bytes, poison := ps, offset := u.off, issue := s.cyc, at_ := at_, bound := f, extra := extra
    lost := !write && due < s.cyc + total, timed := write && timedLaunch s c && !(windowOf u.va ≠ 1 && (locate s c u.va).1 = .spd c)
    fwd := if write then [] else windowBytes s x.q u.va u.size, trans := t, pass := loadPass (s.seqOf x.q), hnd := (s.seqOf x.q).hnd }

/-- Whether slot x's core reaches a unit in its own scratchpad. -/
def ownPart (x : Ctx) (s : State) (u : Part) : Bool := windowOf u.va ≠ 1 && (locate s x.core u.va).1 = .spd x.core

/-- Issues a load of a list of units into a destination (R208): from the own scratchpad at issue, otherwise as accesses; a fault
found at once poisons the destination at its bound and is delivered as a deferred load fault. -/
def issueLoad (x : Ctx) (s : State) (d : Dest) (val : Value) (got : MaskBits) (gotWidth lat : Nat) (us : List Part) : List Act :=
  let due := s.cyc + 8 * 2 ^ lat
  let f : Flight := { id := 0, q := x.q, dest := d, val := val, issue := s.cyc, due := due, slot := x.slot, addr := x.addr
                      missing := us.length, got := got, gotWidth := gotWidth, hnd := (s.seqOf x.q).hnd }
  if us.all (ownPart x s) && (us.isEmpty || ownFree s x.q) then
    let reads := us.map (fun u =>
      let p := locate s x.core u.va
      (u, overWindow (windowBytes s x.q u.va u.size) ((s.readBytes p.1 p.2 u.size).zip (s.readPoison p.1 p.2 u.size))))
    let g := reads.foldl (fun g r => g.deliver r.1.off r.2) f
    eccChecks s (us.map (fun u => let p := locate s x.core u.va; (p.1, p.2, u.size))) (s.fnOf x.core) ++ .work (fun w => w.push { g with got := BitVec.allOnes 1024 }) ::
      (match loadPass (s.seqOf x.q) with
       | some p =>
         if us.any (fun u => let h := locate s x.core u.va; errorIn s h.1 h.2 u.size (windowBytes s x.q u.va u.size)) then
           [poisonedLoad x.q p (s.seqOf x.q).hnd]
         else []
       | none => [])
  else
    let bound := groupBound x s us false (x.ck 8)
    let as := us.mapIdx (fun i u => newAccess x s .load u [] [] false due (x.ck 8 + 4 * i) bound)
    match as.find? (fun a => match a.trans with | .fault _ => true | _ => false) with
    | some a =>
      l1Fills x s (us.map Part.va) ++ .work (fun w => w.push f.poisonAll) ::
        pushEvent s x.q { code := 0x20, slot := x.slot, sub := match a.trans with | .fault k => k | _ => 0, faddr := x.addr, addr := a.va }
    | none =>
      l1Fills x s (us.map Part.va) ++ [.work (fun w =>
        let id := w.nextId
        let w := w.push f
        as.foldl (fun w a =>
          let w' := w.pushAccess s { a with flight := some id }
          if a.trans = .waiting then w'.walkFor s x.core a.fn a.va (s.cyc + 1 + s.choice (x.ck 7)) (some w.nextId) else w') w)]

/-- Marks a scratchpad block write-pending in this cycle and the next (R188). -/
def pendWrite (s : State) (h : Home) (off n : Nat) : List Act :=
  match h with
  | .spd c =>
    [.core c (fun y => { y with writePending :=
      (y.writePending.filter (fun e => s.cyc ≤ e.2 + 1)) ++
        (List.range ((off + n - 1) / 4096 - off / 4096 + 1)).map (fun i => (off / 4096 + i, s.cyc)) })]
  | _ => []

/-- The loads issued by sequencer q in cycle t, not to its own scratchpad, that have still to perform (R262). -/
def bundleLoads (s : State) (w : Work) (q t : Nat) : List Nat :=
  (w.accesses.filter (fun a => !a.performed && a.q = q && a.issue = t && a.kind = .load && !(a.own s))).map (fun a => a.id)

/-- Bytes written to core c's scratchpad at off that everybody sees from now on, later than the own stores not yet released (R262). -/
def Work.shown (w : Work) (c off : Nat) (bs : List Byte) (ps : List Bool) : Work :=
  { w with unreleased := w.unreleased.map (fun u =>
      if u.core = c then { u with old := u.old.mapIdx (fun i b =>
        if off ≤ u.off + i && u.off + i < off + bs.length then (bs.getD (u.off + i - off) 0, ps.getD (u.off + i - off) false) else b) } else u) }

/-- A store of sequencer q, issued in cycle t, performs at off of its own scratchpad: the core's sequencers see it at once, others the old bytes
until the loads of its bundle have performed (R262). -/
def ownWrite (s : State) (q t off : Nat) (bs : List Byte) (ps : List Bool) : List Act :=
  let c := q / 4
  [.write (.spd c) off bs ps,
   .work (fun w =>
    let loads := bundleLoads s w q t
    if loads.isEmpty then w.shown c off bs ps
    else { w with unreleased := w.unreleased ++ [⟨c, q, off, (s.readBytes (.spd c) off bs.length).zip (s.readPoison (.spd c) off bs.length), loads⟩] })]

/-- The pass whose commit window a store of the bundle at a sequencer's counter is held in (R125): a handler's stores are not held (R129). -/
def storePass (y : Seq) : Option Nat := if y.hnd then none else passOf y

/-- Issues a store of one group of units (R208): in a LOOPP body it is held in the commit window, and the walks it needs begin (R125); into the own scratchpad
it performs at issue, and other cores see it once its bundle's non-local loads have performed (R262); a fault found at once
performs nothing. k0 numbers its first unit among those of the slot, f is the slot's formula bound. -/
def issueStore (x : Ctx) (s : State) (k0 f : Nat) (us : List (Part × List Byte × List Bool)) : List Act :=
  match storePass (s.seqOf x.q) with
  | some p =>
    .seq x.q (fun y => { y with window := y.window ++ us.map (fun u => ⟨p, u.1.va, u.2.1, u.2.2, x.slot, x.addr, s.cyc, k0⟩) }) ::
      (us.filter (fun u => (unitTrans x s u.1 true).isNone)).map (fun u =>
        .work (fun w => w.walkFor s x.core (s.fnOf x.core) u.1.va (s.cyc + 1 + s.choice (x.ck 7)) none))
  | none =>
    if us.all (fun u => ownPart x s u.1) && ownFree s x.q && !x.lateOwn then
      us.flatMap fun u =>
        let p := locate s x.core u.1.va
        ownWrite s x.q s.cyc p.2 u.2.1 u.2.2 ++ pendWrite s p.1 p.2 u.1.size
    else
      let as := us.mapIdx (fun i u => newAccess x s .store u.1 u.2.1 u.2.2 true 0 (x.ck 8 + 4 * (k0 + i)) f)
      match as.find? (fun a => match a.trans with | .fault _ => true | _ => false) with
      | some a =>
        l1Fills x s (us.map (fun u => u.1.va)) ++ storeFault s x.q x.slot x.addr ((us.head?.map (fun u => u.1.va)).getD 0) (us.flatMap (fun u => u.2.1))
          (match a.trans with | .fault k => k | _ => 0)
      | none =>
        l1Fills x s (us.map (fun u => u.1.va)) ++ .work (fun w =>
          let g := w.nextId
          as.foldl (fun w a =>
            let w' := w.pushAccess s { a with origin := some g }
            if a.trans = .waiting then w'.walkFor s x.core a.fn a.va (s.cyc + 1 + s.choice (x.ck 7)) (some w.nextId) else w')
            { w with nextId := w.nextId + 1 }) ::
          as.flatMap (fun a => if windowOf a.va = 1 then [] else let p := locate s x.core a.va; pendWrite s p.1 p.2 a.size)

/-! Waiting sequencers (R220, R222, R271). -/

/-- Sends the request of a BARWAIT or WAITV that a sequencer waits in, to be compared at its arrival (R220, R222, R228). -/
def requestWait (s : State) (q : Nat) (w : Wait) (k : Nat) : List Act :=
  let send := fun (kind : AccessKind) (va n slot addr : Nat) =>
    [Act.work (fun w => w.pushAccess s
      { id := 0, q := q, fn := s.fnOf (q / 4), launch := runningLaunch s (q / 4), slot := slot, addr := addr, kind := kind, va := va
        size := n, issue := s.cyc, at_ := s.cyc + 1 + s.choice k % Config.syeDelay, bound := 68 })]
  match w with
  | .barwait o p slot addr => send (.barWait p) o 16 slot addr
  | .waitv loc v size cond slot addr => send (.waitVal v size cond) loc size slot addr
  | _ => []

/-- A sequencer leaves WAIT: it runs, or enters the next wait of its bundle (R17; log 21). -/
def endWait (q : Nat) : List Act := [.seq q Seq.proceed]

/-- The PHASE bit of a barrier object or tree header. -/
def phaseAt (s : State) (h : Home) (off : Nat) : Bool := ((s.readByte h (off + 6)).getLsbD 0)

/-- Whether a wait's condition holds, with its poison report; none while it does not. -/
def waitMet (s : State) (c : Nat) (w : Wait) : Option Bool :=
  match w with
  | .barwait o p _ _ => let l := locate s c o; if phaseAt s l.1 l.2 = p then some false else none
  | .waitv loc v size cond _ _ =>
    let l := locate s c loc
    if (s.readPoison l.1 l.2 size).any id then some true
    else if icond (8 * size) cond (leValue (s.readBytes l.1 l.2 size)) (v.toNat % 2 ^ (8 * size)) then some false
    else none
  | _ => none

/-- Whether a request is that of a wait (R220, R222). -/
def Wait.asks (w : Wait) (a : Access) : Bool :=
  match w, a.kind with
  | .barwait o p _ _, .barWait p' => o = a.va && p = p'
  | .waitv l v n c _ _, .waitVal v' n' c' => l = a.va && v = v' && n = n' && c = c'
  | _, _ => false

/-- The bytes a wait looks at. -/
def waitPlace (s : State) (c : Nat) (w : Wait) : Option (Home × Nat × Nat) :=
  match w with
  | .barwait o _ _ _ => let l := locate s c o; some (l.1, l.2, 16)
  | .waitv loc _ size _ _ _ => let l := locate s c loc; some (l.1, l.2, size)
  | _ => none

/-- The report that a write to these bytes gives an armed wait of core c which it satisfies, within 32 cycles (R220, R222); k numbers the
choice. -/
def wakeReport (s : State) (c : Nat) (h : Home) (off n k : Nat) (w : Wait) (armed : Bool) (report : Option (Nat × Bool)) : Option (Nat × Bool) :=
  match report, waitPlace s c w with
  | none, some (h', o, m) =>
    if armed && h' = h && rangesMeet o m off n then (waitMet s c w).map (fun p => (s.cyc + 1 + s.choice k % 32, p)) else none
  | r, _ => r

/-- Reports to the sequencers whose armed waits a write to these bytes has satisfied (R220, R222). -/
def wakes (s : State) (h : Home) (off n : Nat) : List Act :=
  s.seqs.filterMap fun e =>
    let report := wakeReport s (e.1 / 4) h off n (40000 + 8 * (e.1 % 4096)) e.2.wait e.2.armed e.2.report
    let more := e.2.more.map (fun w => { w with report := wakeReport s (e.1 / 4) h off n (40004 + 8 * (e.1 % 4096)) w.wait w.armed w.report })
    if report = e.2.report && more = e.2.more then none else some (.seq e.1 (fun y => { y with report := report, more := more }))

/-- A write to a home with what follows from it: unreleased stores it covers are seen changed, and waits are woken. -/
def writeHome (s : State) (h : Home) (off : Nat) (bytes : List Byte) (ps : List Bool) : List Act :=
  let cut := fun (p : Home × Nat × Nat) => if p.1 = h then 0 else bytes.length - p.2.2
  let ls := pieces s h off bytes.length
  let l : List Act := ls.map (fun p => .write p.1 p.2.1 ((bytes.drop (cut p)).take p.2.2) ((ps.drop (cut p)).take p.2.2)) ++
    (match h with
     | .spd c => [.work (fun w => w.shown c off bytes ps)]
     | _ => [])
  l ++ ls.flatMap (fun p => wakes (applyActs l s) p.1 p.2.1 p.2.2)

/-- Whether a home is a fenced scratchpad seen from another core (R255). -/
def fencedFrom (s : State) (h : Home) (c : Nat) : Bool := match h with | .spd d => d ≠ c && (s.coreOf d).fenced | _ => false

/-- The ECC checks of the device memory that an engine reads at va, and of the table entries of a page that no TLB holds (R254, R359, R364). -/
def deviceChecks (s : State) (c fn va n pick : Nat) : List Act :=
  let ps := splitPages (n / 4096 + 2) va n
  eccChecks s ((ps.filter (fun p => (translateFast s c fn p.1 false).isNone)).flatMap (fun p => (tablePlaces s fn p.1 pick).map (fun a => (Home.hbm, a, 8)))) 0 ++
    eccChecks s (ps.filterMap (fun p =>
      match translateNow s c fn p.1 pick false with | .done pa => some (.hbm, pa, p.2) | _ => none)) fn

/-- The ECC checks of translated parts. -/
def partChecks (s : State) (fn : Nat) (l : List PagePart) : List Act :=
  eccChecks s (l.filterMap (fun p => match p.trans with | .done pa => some (.hbm, pa, p.n) | _ => none)) fn

/-- The access named id. -/
def State.accessOf (s : State) (id : Nat) : Option Access := s.work.accesses.find? (fun a => a.id = id)

/-- A completion of a function under reset is dropped, and counted in its NDROP (R353, R356). -/
def countDropped (fn : Nat) : Act :=
  .chip (fun h =>
    let r := SMap.get {} h.vfr fn
    if r.busy then { h with vfr := SMap.set {} h.vfr fn { r with ndrop := min (r.ndrop + 1) 0xFFFF } } else h)

/-- A load's unit performs and its data arrive (R208, R258): lost data are discarded at the bound instead. -/
def loadArrives (s : State) (a : Access) : List Act :=
  let p := a.place s
  let pre := eccChecks s [(p.1, p.2, a.size)] a.fn
  let s1 := applyActs pre s
  let l := if fencedFrom s p.1 (a.q / 4) then List.replicate a.size ((0 : Byte), true) else readForeign s1 p.1 p.2 a.size (some (a.q / 4))
  let l := overWindow a.fwd l
  pre ++ [.work (fun w => w.dropAccess a.id)] ++
    (match a.flight with | some f => [modFlight f (fun f => if f.missing ≤ 1 then f else { f with reads := (p.1.code p.2, a.size) :: f.reads })] | none => []) ++
    (if a.lost then [countDropped a.fn]
     else
      (match a.flight with | some f => [modFlight f (fun f => f.deliver a.offset l)] | none => []) ++
      (match a.pass with
       | some n => if errorIn s1 p.1 p.2 a.size a.fwd && !fencedFrom s p.1 (a.q / 4) then [poisonedLoad a.q n a.hnd] else []
       | none => []))

/-- A drain's row is about to be written to the given places, home, offset and bytes, one for each page it touches: a load that has read a unit
of the row, but not all it reads of it, takes the rest as it stands (R203). -/
def keepRowWhole (s : State) (l : List (Home × Nat × Nat)) : Act :=
  .work (fun w => { w with accesses := w.accesses.map (fun a =>
    let p := a.place s
    let met := fun (f : Flight) => l.any (fun d => f.reads.any (fun r => rangesMeet r.1 r.2 (d.1.code d.2.1) d.2.2))
    match a.kind, a.flight.bind (fun f => w.flights.find? (fun g => g.id = f)) with
    | .load, some f =>
      if !a.performed && met f then
        { a with fwd := (l.filter (fun d => d.1 = p.1 && rangesMeet p.2 a.size d.2.1 d.2.2)).flatMap (fun d =>
            ((readHome s d.1 p.2 a.size).mapIdx (fun i b => (i, b.1, b.2))).filter (fun e => d.2.1 ≤ p.2 + e.1 && p.2 + e.1 < d.2.1 + d.2.2)) ++ a.fwd }
      else a
    | _, _ => a) })

/-- A store performs, or is discarded at a fenced scratchpad; one later than its formula bound owes a timing fault (R255, R268). -/
def storePerforms (s : State) (a : Access) : List Act :=
  let p := a.place s
  let late := a.timed && a.issue + a.bound < s.cyc
  noteWrite (accessRank s a) p.1 p.2 a.size ::
  (if a.own s && !a.engine then ownWrite s a.q a.bundle p.2 a.bytes a.poison
   else if fencedFrom s p.1 (a.q / 4) then [] else writeHome s p.1 p.2 a.bytes a.poison) ++
    [.work (fun w => if late then { w with accesses := w.accesses.map (fun b => if b.id = a.id then { b with performed := true } else b) }
                     else w.dropAccess a.id)]

/-- A fault of an access's translation (R208, R245): a load's destination is poisoned at its bound, a store performs nothing. -/
def accessFault (s : State) (a : Access) (sub : Nat) : List Act :=
  match a.kind with
  | .load =>
    match a.flight with
    | some f =>
      [modFlight f (fun g => { g.poisonAll with faulted := true }),
       .work (fun w => { w with accesses := w.accesses.filter (fun b => b.flight ≠ some f) })] ++
        pushEvent s a.q { code := 0x20, slot := a.slot, sub := sub, faddr := a.addr, addr := a.va, flight := some f }
    | none => .work (fun w => w.dropAccess a.id) :: (if a.lost then [countDropped a.fn] else [])
  | _ =>
    let group := s.work.accesses.filter (fun b => b.id = a.id || (a.origin ≠ none && b.origin = a.origin && !b.engine))
    [.work (fun w => { w with accesses := w.accesses.filter (fun b => !(group.any (fun g => g.id = b.id))) })] ++
      storeFault s a.q a.slot a.addr ((group.head?.map (fun b => b.va)).getD a.va) (group.flatMap (fun b => b.bytes)) sub

end Sys2Proof.Machine
end

