-- ==== Sys2Proof/Machine/Sched.lean ====
section
/-! DEFINITION. Queues, slices and the arbiter (13 R284 to R291, R380, R381, 19 R375). -/

namespace Sys2Proof.Machine

/-- The start and length of the slice in progress on a core at cycle t: a core whose queues hold nothing keeps its slices
without further notice (R380). -/
def sliceNow (y : Core) (t : Nat) : Nat × Nat :=
  match y.stretched with
  | some e => (y.sliceStart, e - y.sliceStart)
  | none =>
    if t < y.sliceStart + y.slice then (y.sliceStart, y.slice)
    else
      let b := y.sliceStart + y.slice
      (b + (t - b) / y.nextSlice * y.nextSlice, y.nextSlice)

/-- Cycles left in the slice (R286). -/
def sliceLeft (y : Core) (t : Nat) : Nat := let p := sliceNow y t; p.1 + p.2 - t

/-- A core with its slice fields brought up to cycle t. -/
def Core.atSlice (y : Core) (t : Nat) : Core :=
  let p := sliceNow y t
  if y.stretched.isSome then y else { y with sliceStart := p.1, slice := p.2 }

/-- Whether a queue holds a launch that may run (R286). -/
def Queue.ready (q : Queue) : Bool := q.launch.isSome && !q.done && !q.quiesced && !q.ended && q.grace.isNone

/-- The rank a queue competes with (R286). -/
def Queue.eff (q : Queue) : Nat := if q.pass = 16 then 7 else q.rank

/-- The better of two queues: the higher effective rank, then the running one, then the higher PASS, then the lower number. -/
def better (run : Option Nat) (a b : Nat × Queue) : Nat × Queue :=
  let key := fun (x : Nat × Queue) => x.2.eff * 2 ^ 20 + (if run = some x.1 then 2 ^ 12 else 0) + x.2.pass * 16 + (8 - x.1)
  if key a < key b then b else a

/-- The best of a list of queues. -/
def bestQueue (run : Option Nat) : List (Nat × Queue) → Option Nat
  | [] => none
  | a :: l => some (l.foldl (better run) a).1

/-- What the arbiter decides (R286): a queue; at a slice reset one whose run exceeds the slice; or nothing. -/
inductive Decision where
  | grant (n : Nat)
  | long (n : Nat)
  | idle
  deriving DecidableEq, Repr

/-- The arbiter's choice on a core at cycle t, with the running queue; a core out of service runs nothing (R363). -/
def arbitrate (y : Core) (t : Nat) (run : Option Nat) (reset : Bool) : Decision :=
  let ready := if y.outOfService then [] else (y.queues.mapIdx (fun i q => (i, q))).filter (fun e => e.2.ready)
  let rem := sliceLeft y t
  match bestQueue run (ready.filter (fun e => e.2.run ≤ rem)) with
  | some n => .grant n
  | none =>
    match (if reset then bestQueue run ready else none) with
    | some n => .long n
    | none => .idle

/-- The cycles of an idle grant while the average power exceeds the cap: up to one slice (R375); none below it. -/
def idleGrant (s : State) (y : Core) (k : Nat) : Option Nat :=
  if s.chip.cap < s.chip.meas then some (s.cyc + 1 + s.choice k % y.slice) else none

/-- The state of every sequencer of a core that a switch, a start or an end leaves stopped. -/
def stopCore (c : Nat) : List Act :=
  (List.range 4).map (fun i => Act.seq (4 * c + i) (fun q => { q with run := .idle, wait := .none, more := [], armed := false, report := none }))

/-- Fixes the start of the launch of queue n, which core c has just taken: for a TIMED launch once every other core of its set
is owned by it, at a multiple of 4 (R283). -/
def fixStart (s : State) (c n : Nat) : List Act :=
  match s.launchOf c n with
  | none => []
  | some l =>
    let owned := fun (d : Nat) => d = c || ((s.coreOf d).switching = none &&
      (match (s.coreOf d).owner with | some m => ((s.coreOf d).queues.getD m {}).launch = some l.id | none => false))
    let at_ := (s.cyc + 1 + s.choice 50001 + 3) / 4 * 4
    if l.task then
      (if l.startAt.isSome then [] else [.work (fun w => { w with launches := w.launches.map (fun k => if k.id = l.id then { k with startAt := some at_ } else k) })])
    else if l.cores.all owned then
      [.work (fun w => { w with launches := w.launches.map (fun k => if k.id = l.id then { k with startAt := some at_ } else k) })]
    else []

/-- Whether nothing of a launch is under way any more on a core: results landed, commands and accesses done, tile rows come, copies at a chunk's
boundary. -/
def settledCore (s : State) (c : Nat) : Bool :=
  !(s.work.flights.any (fun f => f.q / 4 = c)) && !(s.work.flagPosts.any (fun p => p.q / 4 = c)) && !(s.work.commands.any (fun y => y.q / 4 = c)) &&
    !(s.work.accesses.any (fun a => a.q / 4 = c && !a.performed)) && !(s.work.copies.any (fun y => y.q / 4 = c && (!y.chunks.isEmpty || y.fault.isSome))) &&
    !(s.chip.srds.any (fun e => e.2.any (fun y => y.q / 4 = c && y.entry.getLsbD 3 && y.entry.getLsbD 7))) &&
    !(s.work.agenda.any (fun e => match e.2 with | .tileRowArrival d _ _ => d = c | _ => false))

/-- Grants core c to queue n (R283, R286, R287): the running queue goes on; over another one's state it is switched in, over a
finite time; a free core it takes at once, one on which work of an ended launch still completes after that (R291). -/
def grantQueue (s : State) (c n : Nat) : List Act :=
  let y := s.coreOf c
  let q := y.queues.getD n {}
  let granted := modQueue c n (fun q => { q with pass := 0, ownedSlice := true })
  if y.owner = some n then [granted]
  else if y.owner.isSome || q.started || !settledCore s c then
    [granted, .core c (fun y => { y with switching := some (some n, s.cyc + 1 + s.choice 50000) })]
  else [granted, .core c (fun y => { y with owner := some n })] ++ fixStart s c n

/-- Whether a core issues nothing at cycle t by the arbiter's word (R286, R375). -/
def coreIdle (y : Core) (t : Nat) : Bool := match y.idleUntil with | some u => t < u | none => false

/-- Carries out a decision (R286): a run longer than the slice stretches it and posts a warning; no queue leaves the core idle
until the slice reset. -/
def decide' (s : State) (c : Nat) (d : Decision) : List Act :=
  let y := s.coreOf c
  let p := sliceNow y s.cyc
  match d with
  | .grant n => grantQueue s c n
  | .long n =>
    grantQueue s c n ++
      [.core c (fun y => { y with stretched := some (s.cyc + (y.queues.getD n {}).run), stretchFor := some n }), post s 0x30 (s.fnOf c) c 0 0]
  | .idle => [.core c (fun y => { y with idleUntil := some (p.1 + p.2) })]

/-- The lead of a core: its lowest-numbered sequencer that is not IDLE (R285). -/
def leadOf (s : State) (c : Nat) : Option Nat := (List.range 4).find? (fun i => (s.seqOf (4 * c + i)).run ≠ .idle)

/-- Whether every sequencer of a function's cores has stopped for a cut: idle or quiesced, no switch under way (R303 step 1). -/
def stoppedFn (s : State) (fn : Nat) : Bool :=
  s.cores.all (fun e => e.2.mapFn ≠ fn || (e.2.switching.isNone && (List.range 4).all (fun i =>
    let r := (s.seqOf (4 * e.1 + i)).run
    r = .idle || r = .quiesced)))

/-- The save that core c makes in a switch from a launch with a budget, and so with a deadline, by the cycle its switch names (R252, R287, R291). -/
def deadlineSave (s : State) (c : Nat) : Option Nat :=
  match (s.coreOf c).switching, (s.coreOf c).owner with
  | some (_, t), some n =>
    if !((s.coreOf c).queues.getD n {}).ended && (match s.launchOf c n with | some l => l.budget ≠ 0 | none => false) then some t else none
  | _, _ => none

/-- Whether a Quiesce holds a function's copies at their chunk boundaries: its sequencers have stopped (R303 step 3). -/
def copiesHeld (s : State) (fn : Nat) : Bool := s.chip.quiesces.any (fun z => z.fn = fn) && stoppedFn s fn

/-- Whether a Quiesce of a core's function is under way (R303). -/
def quiescing (s : State) (c : Nat) : Bool := s.chip.quiesces.any (fun z => z.fn = s.fnOf c && !z.cut)

/-- Whether another queue of a core than the running one is ready (R285). -/
def rivalReady (y : Core) (run : Option Nat) : Bool :=
  (y.queues.mapIdx (fun i q => (i, q))).any (fun e => run ≠ some e.1 && e.2.ready)

/-- The run that a lead's YIELD states for its queue, from which the queue's owned cycles are counted again (R286, R288); the run before it, that
a stretched slice has waited for, has ended. -/
def stateRun (y : Core) (c r : Nat) : List Act :=
  match y.owner with
  | some n => [modQueue c n (fun x => { x with run := r, sinceYield := 0, overrun := false }), .core c (fun y => { y with stretchFor := none })]
  | none => []

/-- A YIELD of sequencer q with stated run r (R285, R286, R303, R375): a sibling parks; the lead releases the parked and calls the
arbiter, which keeps the queue while a sibling runs and where no other queue is ready; under a Quiesce the sequencer stops for the cut. -/
def yieldActs (s : State) (q r : Nat) : List Act :=
  let c := q / 4
  let y := s.coreOf c
  if quiescing s c then
    .seq q (fun z => { z with run := .quiesced }) ::
      (if leadOf s c = some (q % 4) then
        (List.range 4).map (fun i => Act.seq (4 * c + i) (fun z => if z.run = .parked then { z with run := .quiesced } else z)) ++ stateRun y c r
       else [])
  else if leadOf s c ≠ some (q % 4) then [.seq q (fun z => { z with run := .parked })]
  else
    let release := (List.range 4).map (fun i => Act.seq (4 * c + i) (fun z =>
      if z.run = .parked then z.proceed else if z.hnd then { z with released := true } else z))
    let busy := (List.range 4).any (fun i =>
      i ≠ q % 4 && (let z := (s.seqOf (4 * c + i)).run; z ≠ .idle && z ≠ .parked))
    let power := match idleGrant s y 50002 with
      | some t => [.core c (fun y => { y with idleUntil := some (max t (y.idleUntil.getD 0)) }),
                   .chip (fun h => { h with idleGrants := min (h.idleGrants + 1) (2 ^ 32 - 1) })]
      | none => []
    release ++ stateRun y c r ++
      (if busy || y.owner.isNone || !rivalReady y y.owner then (if busy then [] else power) else decide' s c (arbitrate { y with queues := match y.owner with
          | some n => modifyAt n (fun x => { x with run := r }) y.queues
          | none => y.queues } s.cyc y.owner false) ++ power)

/-- What a HALT of sequencer q does, to its siblings too: when it was the lead and the next is parked, that one runs (R17, R285). In a handler it
ends that: the frame's HND is cleared, and what was held for it is discarded (R296, R350; log 61). -/
def haltActs (s : State) (q : Nat) : List Act :=
  let c := q / 4
  let next := (List.range 4).find? (fun i => i ≠ q % 4 && (s.seqOf (4 * c + i)).run ≠ .idle)
  (if (s.seqOf q).hnd then [putBytes c (frameOff q + 0x10) (leBytes 8 (frameField s q 0x10 0 64 / 2 * 2))] else []) ++
  .seq q (fun z => { z with deadline := z.deadline && !z.hnd, run := .idle, wait := .none, more := [], loops := [], rep := none, hnd := false
                            events := if z.hnd then [] else z.events, orderFaults := if z.hnd then [] else z.orderFaults, delivered := [], savedLoops := [], savedRep := none
                            savedWait := .none, savedMore := [], savedSync := none, sync := none, savedFevAt := 0, frozen := {}
                            window := if z.hnd then [] else z.window }) ::
    .work (fun w => { w with flights := w.flights.filterMap (fun f => if f.q = q then f.freed else some f) }) ::
    (match next with
     | some i =>
       if leadOf s c = some (q % 4) then
         [.seq (4 * c + i) (fun z => if z.run = .parked then z.proceed else if z.hnd then { z with released := true } else z)]
       else []
     | none => [])

/-- Whether a core has nothing of the launch of queue n in progress: R284, leaving aside the task queue. -/
def restsOn (s : State) (c n : Nat) : Bool :=
  match s.launchOf c n with
  | none => false
  | some l =>
    (List.range 4).all (fun i => (s.seqOf (4 * c + i)).run = .idle) &&
      !(s.work.commands.any (fun x => x.q / 4 = c)) && !(s.work.copies.any (fun x => x.q / 4 = c && x.launch = some l.id)) &&
      !(s.chip.srds.any (fun e => e.2.any (fun x => x.q / 4 = c && x.launch = some l.id))) &&
      !(s.chip.emits.any (fun e => !e.silent && e.q / 4 = c && e.launch = some l.id))

/-- Whether the launch of queue n is done on core c (R284). -/
def doneOn (s : State) (c n : Nat) : Bool :=
  let q := (s.coreOf c).queues.getD n {}
  q.started && q.tasks.isEmpty && restsOn s c n

/-- The queue that counts an owned cycle of a core at cycle t: its owner, unless the core is idle, switching or its launch has not begun. -/
def countsFor (y : Core) (t : Nat) : Option Nat :=
  match y.owner with
  | some n => if (y.queues.getD n {}).started && y.switching.isNone && !coreIdle y t then some n else none
  | none => none

/-- Whether a cycle puts off the end of a slice stretched to the end of a queue's run (R286): that run, which counts owned cycles, has not ended,
and the cycle is none of them. -/
def putsOff (y : Core) (t : Nat) : Bool :=
  match y.stretchFor with
  | some n => let q := y.queues.getD n {}; y.stretched.isSome && countsFor y t ≠ some n && q.launch.isSome && !q.done && !q.ended
  | none => false

/-- The counters of one cycle (R286, R288, R291). -/
def countCycle (s : State) : List Act :=
  s.cores.flatMap fun e =>
    (match countsFor e.2 s.cyc with
     | some n => [modQueue e.1 n (fun q => { q with owned := q.owned + 1, sinceYield := q.sinceYield + 1, ownedSlice := true })]
     | none => []) ++
    (if putsOff e.2 s.cyc then [.core e.1 (fun y => { y with stretched := y.stretched.map (fun t => t + 1) })] else [])

end Sys2Proof.Machine
end

