-- ==== Sys2Proof/Machine/Control.lean ====
section
/-! DEFINITION. The control operations: branches, loops, REP, sequencer control, poison checks, traps, system registers, the
time base (06 R119 to R154). -/

namespace Sys2Proof.Machine

/-! Branches (R76, R119). -/

/-- A relative target: words of two bytes from the branch's own index word (R76). -/
def relTarget (x : Ctx) (off : Int) : Int := (x.addr : Int) + 2 * off

/-- A branch to a relative target while the condition holds; a poisoned operand among l raises poison-consumed (R109). -/
def branchOp (reads : Ctx → State → List SReg) (taken : List SReg → Bool) (target : Ctx → List SReg → Int) (leaves : Bool) : Op where
  cause := fun x s => firstCause [((reads x s).any (fun r => r.poison), cPoison)]
  next := fun x s =>
    let l := reads x s
    if taken l then (if leaves then .free (target x l) else .branch (target x l)) else .seq

def opBr (f : SB) : Op := branchOp (fun _ _ => []) (fun _ => true) (fun x _ => relTarget x f.off24.toInt) false

def opBrc (f : SB) : Op :=
  branchOp (fun x s => [x.scalar s f.a.toNat 0, x.scalar s f.b.toNat 1])
    (fun l => icond 64 f.cond.toNat (l.getD 0 {}).val.toNat (l.getD 1 {}).val.toNat) (fun x _ => relTarget x f.off24.toInt) false

def opBri (f : SB) : Op :=
  branchOp (fun x s => [x.scalar s f.a.toNat 0]) (fun _ => true) (fun _ l => (l.getD 0 {}).val.toNat) false

/-- CALL writes the address after its bundle to s63 with bound 1 (R119). -/
def opCall (f : SB) : Op :=
  { branchOp (fun _ _ => []) (fun _ => true) (fun x _ => relTarget x f.off24.toInt) true with
    dests := keyScalar 63
    nres := 1
    acts := fun x s => [scalarResult x s 63 false (BitVec.ofNat 64 ((x.addr + x.size) % 2 ^ 32)) 1 true 0] }

def opRet (_f : SB) : Op :=
  branchOp (fun x s => [x.scalar s 63 0]) (fun _ => true) (fun _ l => (l.getD 0 {}).val.toNat) true

/-! Loops (R120 to R128). -/

/-- The count of a loop: imm12, or s[a] when imm12 is 0xFFF. -/
def loopCount (imm12 : BitVec 12) (r : SReg) : Nat := if imm12 = 0xFFF then r.val.toNat else imm12.toNat

/-- Pushes a loop-stack entry (R38). -/
def pushLoop (q : Nat) (e : LoopEntry) : Act := .seq q (fun y => { y with loops := y.loops ++ [e] })

def opLoop (f : SL) : Op where
  cause := fun x s =>
    let r := x.scalar s f.a.toNat 0
    let n := loopCount f.imm12 r
    lowestCause
      [(f.imm12 = 0xFFF && !r.poison && 2 ^ 32 ≤ n, cIllegalEncoding), (f.off18.toInt ≤ 0, cIllegalEncoding),
       (f.imm12 = 0xFFF && r.poison, cPoison), (Config.loopDepth ≤ (s.seqOf x.q).loops.length, cLoopOver)]
  acts := fun x s =>
    let n := loopCount f.imm12 (x.scalar s f.a.toNat 0)
    if n = 0 then [] else [pushLoop x.q { start := x.addr + x.size, stop := (relTarget x f.off18.toInt).toNat, index := 0, count := n }]
  next := fun x s =>
    if loopCount f.imm12 (x.scalar s f.a.toNat 0) = 0 then .zeroLoop (relTarget x f.off18.toInt) else .seq

/-- LOOPP: issued with the re-entry flag set it pushes nothing, so six entries held do not stop it, and the body starts at the saved INDEX
(R38, R124; log 59). -/
def opLoopp (f : SL) : Op where
  cause := fun x s =>
    let r := x.scalar s f.a.toNat 0
    let y := s.seqOf x.q
    lowestCause
      [(!r.poison && 2 ^ 32 ≤ r.val.toNat, cIllegalEncoding), (f.off18.toInt ≤ 0, cIllegalEncoding), (r.poison, cPoison),
       (!y.reent && Config.loopDepth ≤ y.loops.length, cLoopOver)]
  acts := fun x s =>
    let y := s.seqOf x.q
    let n := (x.scalar s f.a.toNat 0).val.toNat
    if y.reent then [.seq x.q (fun y => { y with reent := false })]
    else if n = 0 then []
    else
      [pushLoop x.q { start := x.addr + x.size, stop := (relTarget x f.off18.toInt).toNat, index := 0, count := n, pipe := true
                      stage := f.sub.toNat % 8, prologue := (x.addr + 2 ^ 32 - 2 * f.imm12.toNat) % 2 ^ 32 }]
  next := fun x s =>
    if !(s.seqOf x.q).reent && (x.scalar s f.a.toNat 0).val = 0 then .zeroLoop (relTarget x f.off18.toInt) else .seq

/-- Whether two held units belong to one store. -/
def Held.with_ (g h : Held) : Bool := g.issue = h.issue && g.slot = h.slot && g.part = h.part

/-- A held unit as an access that performs before the sequencer's next bundle; its walk, begun at its issue, ends now at the latest (log 83). -/
def Held.access (s : State) (q : Nat) (us : List Held) (k : Nat) (h : Held) : Access :=
  let x : Ctx := { q := q, slot := h.slot, addr := h.addr, size := 2 }
  let a := newAccess x s .store ⟨h.va, h.bytes.length, 0⟩ h.bytes h.poison true 0 k
    (groupBound x s (us.map (fun g => ⟨g.va, g.bytes.length, 0⟩)) true (4096 * 9))
  { a with pass := none, heldAt := some h.issue, at_ := s.cyc
           trans := if a.trans = .waiting then translateNow s x.core a.fn h.va (s.choice (4096 * 9 + 1)) true else a.trans }

/-- Performs held stores, in issue order, before the sequencer's next bundle (R123, R125, R273): into the own scratchpad at once, elsewhere as
accesses due now; a store of which a unit meets a fault performs nothing of itself. The names taken first are those of the stores. -/
def releaseHeld (s : State) (q : Nat) (l : List Held) : List Act :=
  .work (fun w => { w with nextId := w.nextId + l.length }) :: (l.mapIdx (fun i h => (i, h))).flatMap fun e =>
    let h := e.2
    let x : Ctx := { q := q, slot := h.slot, addr := h.addr, size := 2 }
    let us := l.filter (Held.with_ h)
    let first := (l.findIdx? (Held.with_ h)).getD e.1
    if ownPart x s ⟨h.va, h.bytes.length, 0⟩ && ownFree s q then
      let p := locate s (q / 4) h.va
      ownWrite s q h.issue p.2 h.bytes h.poison ++ pendWrite s p.1 p.2 h.bytes.length
    else
      match us.findSome? (fun g => match (g.access s q us (4096 * 9 + 4 * e.1)).trans with | .fault k => some k | _ => none) with
      | some k => if first = e.1 then storeFault s q h.slot h.addr h.va (us.flatMap (fun g => g.bytes)) k else []
      | none => [.work (fun w => w.pushAccess s { h.access s q us (4096 * 9 + 4 * e.1) with origin := some (s.work.nextId + first) })]

def opLexit (f : SL) : Op where
  cause := fun x s =>
    let r := x.scalar s f.a.toNat 0
    lowestCause [(f.a ≠ 0 && r.poison, cPoison),
      ((f.a = 0 || r.val ≠ 0) && (s.seqOf x.q).loops.length < f.imm12.toNat % 8 + 1, cLoopUnder)]
  next := fun x s =>
    if f.a = 0 || (x.scalar s f.a.toNat 0).val ≠ 0 then .lexit (f.imm12.toNat % 8 + 1) (relTarget x f.off18.toInt) else .seq

/-! REP (R130 to R133). -/

/-- The count of a REP: imm12, or s[a] when imm12 is 0xFFF (R130). -/
def repCount (f : RP) (x : Ctx) (s : State) : Nat := loopCount f.imm12 (x.scalar s f.a.toNat 0)

/-- REP's own checks; the bundle it stands in does the repeating (R131, R132). -/
def opRep (f : RP) : Op where
  cause := fun x s =>
    let r := x.scalar s f.a.toNat 0
    lowestCause [(f.imm12 = 0xFFF && !r.poison && 2 ^ 24 ≤ r.val.toNat, cIllegalEncoding), (f.imm12 = 0xFFF && r.poison, cPoison)]

/-! Sequencer control (R134 to R138, R350). -/

/-- SPAWN (R134); a form with n above 8, or with a register but no argument, is refused at issue, ranking as item 5 of R91, since R90 does not
name it (DESIGN CHOICE, log 81). -/
def opSpawn (f : SL) : Op where
  cause := fun x s =>
    let n := f.imm12.toNat % 16
    let t := f.sub.toNat % 4
    lowestCause
      [(8 < n || (n ≠ 0 && 63 < f.a.toNat + n - 1) || (f.a ≠ 0 && n = 0) || t = x.seqId || (s.coreOf x.core).width ≤ t, cIllegalEncoding),
       ((s.seqOf (4 * x.core + t)).run ≠ .idle, cSpawnBusy)]
  acts := fun x s =>
    let t := 4 * x.core + f.sub.toNat % 4
    (List.range (f.imm12.toNat % 16)).map (fun i => Act.scalar t (1 + i) (x.scalar s (f.a.toNat + i) i)) ++
      [.seq t (fun y => { y with pc := (BitVec.ofInt 32 (relTarget x f.off18.toInt)).toNat, run := .run, loops := [], rep := none
                                 fmt := s.fmt x.q, resumeAt := s.cyc + 1 })]

/-- YIELD (R136); a stated run of 0 is refused at issue, ranking as item 5 of R91, since R90 does not name it (DESIGN CHOICE, log 81). -/
def opYield (f : SL) : Op where
  cause := fun x s =>
    let y := s.seqOf x.q
    firstCause [(y.hnd || (match y.loops.getLast? with
      | some e => e.pipe || x.addr + x.size ≠ e.stop
      | none => false), cIllegalSlot), (f.imm12 = 0, cIllegalEncoding)]
  acts := fun x s => yieldActs s x.q (f.imm12.toNat * 2 ^ f.sub.toNat)

/-- HALT; in a handler it also ends the handler, and the results the frame held land as they stand (R350). -/
def opHalt (_f : SX) : Op where
  acts := fun x s => haltActs s x.q

/-! Poison checks (R139, R140). -/

def opChk (f : SB) : Op where
  next := fun x s =>
    let p := if f.cond = 0 then (x.scalar s f.a.toNat 0).poison else (x.mask s (f.a.toNat % 16) 0).poison
    if p then .free (relTarget x f.off24.toInt) else .seq

def opChkm (f : SB) : Op where
  rows := fun _ _ => [f.b.toNat % 8 * 64 + f.a.toNat]
  next := fun x s =>
    let lw := actWidth (fmtAct (s.fmt x.q))
    let m := x.mask s f.cond.toNat 0
    let r := x.row s (f.b.toNat % 8 * 64 + f.a.toNat) lw 1
    if m.poison || (List.range (laneCount lw)).any (fun i => m.val.getLsbD i && r.lanePoison lw i)
    then .free (relTarget x f.off24.toInt) else .seq

/-! Traps (R141 to R144). -/

/-- TRAP: taken at the boundary after its bundle (R141). -/
def opTrap (f : SX) : Op where
  acts := fun x _ => [.seq x.q (fun y => { y with sync := some ⟨0x32, some x.slot, false, f.imm12.toNat, x.addr⟩ })]

/-- The ECC checks of the part of a frame that RETT reads (R235, R359). -/
def frameChecks (s : State) (q : Nat) : List Act := eccChecks s [(.spd (q / 4), frameOff q, 0x1640)] (s.fnOf (q / 4))

/-- RETT: outside a handler it is an illegal encoding (R142), a poisoned frame is poison consumed (log 87); the resume address is checked like a
branch target (R76). -/
def opRett (_f : SX) : Op where
  cause := fun x s => firstCause [(!(s.seqOf x.q).hnd, cIllegalEncoding), (framePoisoned s x.q, cPoison)]
  acts := fun x s => frameChecks s x.q ++ leaveTrap s x.q ++ requestWait s x.q (frameWait s x.q).2 (x.ck 10) ++
    (frameMore s x.q).flatMap (fun w => requestWait s x.q w.wait (x.ck 11))
  next := fun x s => if (s.seqOf x.q).hnd then .resume (frameEpc s x.q) else .seq

/-! System registers (R33, R145, R146). -/

/-- Whether a system register index is assigned (R33, R36, R275, R327, R335). -/
def sysAssigned (i : Nat) : Bool :=
  i ≤ 0x003 || (0x008 ≤ i && i ≤ 0x00D) || (0x010 ≤ i && i ≤ 0x013) || (0x018 ≤ i && i ≤ 0x01C) || (0x020 ≤ i && i ≤ 0x022) ||
    (0x028 ≤ i && i ≤ 0x02A) || i = 0x030 || i = 0x031 || i = 0x038 || (0x040 ≤ i && i ≤ 0x047) || (0x080 ≤ i && i ≤ 0x083) ||
    (0x088 ≤ i && i ≤ 0x08D) || (0x100 ≤ i && i ≤ 0x11F && i % 8 < 6)

/-- Whether an index names a lane-flag register, and which: 6 times the slot code plus the flag code (R36). -/
def laneIndex (i : Nat) : Option Nat := if 0x100 ≤ i && i ≤ 0x11F && i % 8 < 6 then some (6 * ((i - 0x100) / 8) + i % 8) else none

/-- MPAIR to MCUR (R335). -/
def Journal.register (j : Journal) (k : Nat) : Word :=
  match k with
  | 0 => BitVec.ofNat 64 (j.partner + (if j.pval then 2 ^ 10 else 0) + 2 ^ 11 * j.state + (if j.ract then 2 ^ 13 else 0) +
      2 ^ 14 * j.rseed + 2 ^ 32 * j.ackb)
  | 1 => j.spares
  | 2 => BitVec.ofNat 64 (j.ringBase + 2 ^ 24 * j.ringLog + 2 ^ 32 * j.localBase)
  | 3 => BitVec.ofNat 64 (j.hostBase + 2 ^ 24 * j.hostLog + (if j.hv then 2 ^ 29 else 0) + (if j.wfail then 2 ^ 30 else 0) + 2 ^ 32 * j.writer)
  | 4 => BitVec.ofNat 64 j.tail
  | 5 => BitVec.ofNat 64 j.dur
  | 6 => BitVec.ofNat 64 j.head
  | _ => BitVec.ofNat 64 j.cur

/-- TBSTAT and TBERR (R327). -/
def Tbu.stat (t : Tbu) : Word :=
  BitVec.ofNat 64 ((if t.lock then 1 else 0) + (if t.isRef then 2 else 0) + 4 * (t.src % 32) + 2 ^ 8 * (t.hops % 256))
def Tbu.err (t : Tbu) : Word :=
  BitVec.ofNat 64 (min t.theta 0xFFFF + 2 ^ 16 * (t.asym % 2 ^ 16) + 2 ^ 32 * min t.resid 0xFFFF + 2 ^ 48 * min t.ptheta 0xFFFF)

/-- The FLS registers and FEV with the posts that a read may see already (R27, R37). -/
def seenFlags (x : Ctx) (s : State) : State := applyActs (flagActsAll s (seenPosts s x.q (x.ck 60))) s

/-- A system register as it stands at issue (R33, R145). YLD reads the slice of a core that a queue owns (R286) and zero on one that none
owns, as after a reset (DEDUCED, log 82: R33 resets it to zero, R380 runs slices from CYC 0). -/
def sysRead (x : Ctx) (s : State) (i : Nat) : Word :=
  let y := s.seqOf x.q
  let c := s.coreOf x.core
  let z := (seenFlags x s).seqOf x.q
  if i = 0x000 then y.fmt
  else if i = 0x001 then y.tb
  else if i = 0x002 then BitVec.ofNat 64 s.cyc
  else if i = 0x003 then BitVec.ofNat 64 s.gtime
  else if i = 0x008 then BitVec.ofNat 64 x.seqId
  else if i = 0x009 then BitVec.ofNat 64 (x.core % 256)
  else if i = 0x00A then BitVec.ofNat 64 (x.core / 256)
  else if i = 0x00B then BitVec.ofNat 64 s.chip.modId
  else if i = 0x00C then c.launchId
  else if i = 0x00D then c.seed
  else if i = 0x010 then c.allot.getD x.seqId 0
  else if i = 0x011 then BitVec.ofNat 64 c.budget
  else if i = 0x012 then
    (match c.owner with | some n => BitVec.ofNat 64 (sliceLeft c s.cyc % 2 ^ 32 + 2 ^ 32 * (c.queues.getD n {}).pass) | none => 0)
  else if i = 0x013 then BitVec.ofNat 64 c.det
  else if i = 0x018 then z.fls0.setWidth 64
  else if i = 0x019 then z.fls1.setWidth 64
  else if i = 0x01A then z.fev
  else if i = 0x01B then z.fls2.setWidth 64
  else if i = 0x01C then z.fls3.setWidth 64
  else if i = 0x020 then BitVec.ofNat 64 (frameField s x.q 8 0 64) &&& 0xFFFFFFFF0FFF1FFF
  else if i = 0x021 then BitVec.ofNat 64 (0xFF00000000000000 + frameOff x.q)
  else if i = 0x022 then BitVec.ofNat 64 (frameField s x.q 0 0 32)
  else if i = 0x028 then BitVec.ofNat 64 c.ptBase
  else if i = 0x029 then BitVec.ofNat 64 c.ptSize
  else if i = 0x02A then BitVec.ofNat 64 c.cktol
  else if i = 0x030 then s.chip.tbu.stat
  else if i = 0x031 then s.chip.tbu.err
  else if i = 0x038 then y.tcmp
  else if 0x040 ≤ i && i ≤ 0x047 then s.chip.journal.register (i - 0x040)
  else if 0x080 ≤ i && i ≤ 0x083 then (s.readGlint x.q (i - 0x080) (x.ck 59)).val
  else if 0x088 ≤ i && i ≤ 0x08D then BitVec.ofNat 64 (match y.loops[i - 0x088]? with | some e => e.index | none => 0)
  else 0

/-- The units of the frame that a read of TCAUSE or EPC reads: home, offset, length (R33, R294). -/
def sysFrame (q i : Nat) : List (Home × Nat × Nat) :=
  if i = 0x020 then [(.spd (q / 4), frameOff q + 8, 8)] else if i = 0x022 then [(.spd (q / 4), frameOff q, 8)] else []

/-- SYSRD (R33, R144), which checks the ECC of what it reads of the frame (R235); an unassigned index, and a lane-flag index with d[5:4] set, is refused at issue, ranking as item 5 of R91 (DESIGN CHOICE,
log 81). -/
def opSysrd (f : SX) : Op where
  dests := match laneIndex f.sysreg.toNat with
    | some _ => keyMask (f.d.toNat % 16)
    | none => keyScalar f.d.toNat
  nres := 1
  cause := fun _ _ => firstCause
    [(!sysAssigned f.sysreg.toNat || ((laneIndex f.sysreg.toNat).isSome && 16 ≤ f.d.toNat), cIllegalEncoding)]
  acts := fun x s =>
    match laneIndex f.sysreg.toNat with
    | some k => [result x s (.mask (f.d.toNat % 16)) (.mask ((seenFlags x s).laneFlag x.q k) false) 1 {}]
    | none =>
      let l := sysFrame x.q f.sysreg.toNat
      eccChecks s l (s.fnOf x.core) ++ [scalarResult x s f.d.toNat (l.any (fun p => s.unitPoisoned p.1 p.2.1)) (sysRead x s f.sysreg.toNat) 1 true 0]

/-- The flag posts of a sequencer that have been set before this cycle, and that a write-1-to-clear clears with the rest (R27, R148). -/
def dropEarly (x : Ctx) (s : State) : Act :=
  let l := earlyPosts s x.q (x.ck 60)
  .work (fun w => { w with flagPosts := w.flagPosts.filter (fun p => !(l.contains p)) })

/-- The posts set before this cycle taken in, so that a write-1-to-clear clears them; one that is set in this very cycle comes after it, and its
bit stays set (R146). -/
def takeEarly (x : Ctx) (s : State) : List Act := flagActsAll s (earlyPosts s x.q (x.ck 60)) ++ [dropEarly x s]

/-- What SYSWR of v does (R146); an RO register or field ignores it. -/
def sysWrite (x : Ctx) (s : State) (i : Nat) (v : SReg) : List Act :=
  let q := x.q
  let c := x.core
  let ptInvalid := (List.range 1024).map (fun k => Act.ptt c k {}) ++ [Act.core c (fun y => { y with rr := 0 })]
  if i = 0x001 then [.seq q (fun y => { y with tb := v.val })]
  else if i = 0x018 then takeEarly x s ++ [.seq q (fun y => { y with fls0 := y.fls0 &&& ~~~(v.val.setWidth 5) })]
  else if i = 0x019 then takeEarly x s ++ [.seq q (fun y => { y with fls1 := y.fls1 &&& ~~~(v.val.setWidth 5) })]
  else if i = 0x01B then takeEarly x s ++ [.seq q (fun y => { y with fls2 := y.fls2 &&& ~~~(v.val.setWidth 5) })]
  else if i = 0x01C then takeEarly x s ++ [.seq q (fun y => { y with fls3 := y.fls3 &&& ~~~(v.val.setWidth 5) })]
  else if i = 0x020 then [putBytes c (frameOff q + 8) (leBytes 8 (v.val &&& 0xFFFFFFFF0FFF1FFF).toNat)]
  else if i = 0x022 then [putBytes c (frameOff q) (leBytes 8 (v.val &&& 0xFFFFFFFF).toNat)]
  else if i = 0x028 then .core c (fun y => { y with ptBase := (v.val &&& 0x3FF000).toNat }) :: ptInvalid
  else if i = 0x029 then .core c (fun y => { y with ptSize := (v.val &&& 0x7FF000).toNat }) :: ptInvalid
  else if i = 0x02A then [.core c (fun y => { y with cktol := v.val.toNat % 64 })]
  else if i = 0x038 then [.seq q (fun y => { y with tcmp := v.val &&& 0x1FFFFFFFFFFFF })]
  else if 0x080 ≤ i && i ≤ 0x083 then [.glint q (i - 0x080) v]
  else []

/-- SYSWR (R33, R144); an unassigned index, and a lane-flag index with a[5:4] set, is refused at issue, ranking as item 5 of R91 (DESIGN CHOICE,
log 81). -/
def opSyswr (f : SX) : Op where
  dests := if 0x080 ≤ f.sysreg.toNat && f.sysreg.toNat ≤ 0x083 then keyGlint (f.sysreg.toNat - 0x080) else []
  cause := fun x s =>
    let i := f.sysreg.toNat
    let glint := 0x080 ≤ i && i ≤ 0x083
    match laneIndex i with
    | some _ => lowestCause [(16 ≤ f.a.toNat, cIllegalEncoding), ((x.mask s (f.a.toNat % 16) 0).poison, cPoison)]
    | none => lowestCause [(!sysAssigned i, cIllegalEncoding), (!glint && (x.scalar s f.a.toNat 0).poison, cPoison)]
  acts := fun x s =>
    match laneIndex f.sysreg.toNat with
    | some k =>
      let m := (x.mask s (f.a.toNat % 16) 0).val
      let t := applyActs (takeEarly x s) s
      takeEarly x s ++ [.lanes x.q k (t.laneFlag x.q k &&& ~~~m)] ++
        (if k % 6 = 4 then [.lanes x.q (k + 1) (t.laneFlag x.q (k + 1) &&& ~~~m)] else [])
    | none => sysWrite x s f.sysreg.toNat (x.scalar s f.a.toNat 0)

/-- SETFMT: the value of s[a] applies from the fourth cycle on (R30, R31). -/
def opSetfmt (f : SX) : Op where
  nres := 1
  cause := fun x s =>
    let r := x.scalar s f.a.toNat 0
    lowestCause [(!r.poison && fmtRefused r.val, cIllegalEncoding), (r.poison, cPoison)]
  acts := fun x s => [result x s .fmt (.word (x.scalar s f.a.toNat 0).val false) 4 {}]

def opFlclr (_f : SX) : Op where
  acts := fun x s => takeEarly x s ++ clearFlags x.q

def opGlchk (f : SX) : Op where
  cause := fun x s =>
    let g := s.readGlint x.q (f.sysreg.toNat - 0x080) (x.ck 59)
    let r := x.scalar s f.a.toNat 0
    firstCause [(g.poison || r.poison || g.val ≠ r.val, cMismatch)]

/-! The time base (R150 to R153). -/

def opSettb (f : SL) : Op where
  cause := fun x s => firstCause [((x.scalar s f.a.toNat 0).poison, cPoison)]
  acts := fun x s =>
    let t := BitVec.ofNat 64 s.cyc + (x.scalar s f.a.toNat 0).val + f.imm12.setWidth 64
    [.seq x.q (fun y => { y with tb := t })]

def opTwait (f : SL) : Op where
  cause := fun x s => firstCause [((x.scalar s f.a.toNat 0).poison, cPoison)]
  acts := fun x s =>
    let v := (x.scalar s f.a.toNat 0).val
    if v.toNat ≤ s.gtime then [] else [.seq x.q (fun y => { y with run := .wait, wait := .twait v })]

/-- TREALIGN (R153); an exponent above 24 is refused at issue, ranking as item 5 of R91 (DESIGN CHOICE, log 81). -/
def opTrealign (f : SL) : Op where
  cause := fun _ _ => firstCause [(24 < f.imm12.toNat % 32, cIllegalEncoding)]
  acts := fun x _ => [.seq x.q (fun y => { y with run := .wait, wait := .trealign (f.imm12.toNat % 32) })]

end Sys2Proof.Machine
end

