-- ==== Sys2Proof/Machine/MemOps.lean ====
section
/-! DEFINITION. The memory operations of the M slots: loads, stores, gathers, PROBE and PREF (08 R207 to R214). -/

namespace Sys2Proof.Machine

/-- The address of an MA access (R207). -/
def maAddr (f : MA) (x : Ctx) (s : State) : Nat := ((x.scalar s f.a.toNat 0).val + f.off21.signExtend 64).toNat

/-- The cause of an access to n bytes at an address held in a register (R207, R232). -/
def accessCause (x : Ctx) (s : State) (r : SReg) (a n align : Nat) (u : Use) : Option Nat :=
  if r.poison then some cPoison else classify s x.core a n align u

/-- A scalar load of n bytes (R209). -/
def loadOp (f : MA) (n : Nat) : Op where
  dests := keyScalar (f.d.toNat % 64)
  nres := 1
  isLoad := true
  cause := fun x s => accessCause x s (x.scalar s f.a.toNat 0) (maAddr f x s) n n .load
  acts := fun x s => issueLoad x s (.scalar (f.d.toNat % 64)) (.word 0 false) 0 512 f.lat.toNat [⟨maAddr f x s, n, 0⟩]

def opLd8 (f : MA) : Op := loadOp f 1
def opLd16 (f : MA) : Op := loadOp f 2
def opLd32 (f : MA) : Op := loadOp f 4
def opLd64 (f : MA) : Op := loadOp f 8

/-- A scalar store of n bytes; a poisoned register stores poisoned zeros (R209, R211). -/
def storeOp (f : MA) (n : Nat) : Op where
  cause := fun x s => accessCause x s (x.scalar s f.a.toNat 0) (maAddr f x s) n n .store
  acts := fun x s =>
    let v := x.scalar s (f.d.toNat % 64) 1
    issueStore x s 0 (groupBound x s [⟨maAddr f x s, n, 0⟩] true (x.ck 8)) [(⟨maAddr f x s, n, 0⟩, leBytes n (if v.poison then 0 else v.val.toNat), List.replicate n v.poison)]

def opSt8 (f : MA) : Op := storeOp f 1
def opSt16 (f : MA) : Op := storeOp f 2
def opSt32 (f : MA) : Op := storeOp f 4
def opSt64 (f : MA) : Op := storeOp f 8

/-- A whole row to be loaded, with nothing arrived. -/
def emptyRow : RowWrite := writeRowBytes 0 (List.replicate 2048 0) []

/-- The indivisible unit of a row access: 64 bytes, in the sync window the whole row (R237, R259). -/
def rowUnit (a : Nat) : Nat := if windowOf a = 2 then 2048 else 64

/-- Loads a row unit by unit (R209, R259). -/
def loadRow (x : Ctx) (s : State) (d lat a : Nat) : List Act :=
  issueLoad x s (.rows d) (.rows [emptyRow]) 0 (8 * rowUnit a) lat (parts a 2048 (rowUnit a))

def opVld (f : MA) : Op where
  rows := fun _ _ => [f.d.toNat]
  nres := 1
  isLoad := true
  cause := fun x s => accessCause x s (x.scalar s f.a.toNat 0) (maAddr f x s) 2048 64 .load
  acts := fun x s => loadRow x s f.d.toNat f.lat.toNat (maAddr f x s)

def opVst (f : MA) : Op where
  rows := fun _ _ => [f.d.toNat]
  cause := fun x s => accessCause x s (x.scalar s f.a.toNat 0) (maAddr f x s) 2048 64 .store
  acts := fun x s =>
    let b := (x.row s f.d.toNat 32 1).bytes 0 2048
    let us := parts (maAddr f x s) 2048 (rowUnit (maAddr f x s))
    issueStore x s 0 (groupBound x s us true (x.ck 8)) (us.map (fun u => (u, (b.1.drop u.off).take u.size, (b.2.drop u.off).take u.size)))

/-- The address and the expected tag of a VLDT (R210). -/
def vldtAddr (f : MA) (x : Ctx) (s : State) : Nat :=
  (((x.scalar s f.a.toNat 0).val &&& 0xFF0000FFFFFFFFFF) + f.off21.signExtend 64).toNat
def vldtTag (f : MA) (x : Ctx) (s : State) : BitVec 16 := (x.scalar s f.a.toNat 0).val.extractLsb' 40 16

def opVldt (f : MA) : Op where
  rows := fun _ _ => [f.d.toNat]
  nres := 1
  isLoad := true
  cause := fun x s =>
    let a := vldtAddr f x s
    let r := x.scalar s f.a.toNat 0
    match minCause (accessCause x s r a 2048 2048 .load) (if r.poison || windowOf a = 4 then none else some cAddress) with
    | some c => some c
    | none => firstCause [(SMap.get 0 s.tags (1024 * x.core + a % 2 ^ 22 / 4096) ≠ vldtTag f x s, cSchedule)]
  acts := fun x s => loadRow x s f.d.toNat f.lat.toNat (vldtAddr f x s)

/-- Lane j from bytes o to o + 3 of slice j of core c's BOS (R210, R234). -/
def columnRow (s : State) (c o : Nat) : RowWrite :=
  writeLanes 32 ((List.range 512).map (fun j =>
    let p := s.unitPoisoned (.bos c) (4096 * j + o)
    some ({ bits := if p then 0 else leValue (s.readBytes (.bos c) (4096 * j + o) 4), poison := p } : LaneOut)))

/-- The bytes of the BOS that a VLDB reads. -/
def columnPlaces (c o : Nat) : List (Home × Nat × Nat) := (List.range 512).map (fun j => (.bos c, 4096 * j + o, 4))

/-- What a VLDB's read asks of its LOOPP pass when an uncorrectable error marks what it reads (R126, R211). -/
def columnError (s : State) (q o : Nat) (pass : Option Nat) (hnd : Bool) : List Act :=
  match pass with
  | some p => if (columnPlaces (q / 4) o).any (fun e => errorIn s e.1 e.2.1 e.2.2 []) then [poisonedLoad q p hnd] else []
  | none => []

/-- VLDB: a BOS column, read at issue, or when what an earlier drain of the sequencer covers is done (R210, R218, R234). -/
def opVldb (f : MA) : Op where
  rows := fun _ _ => [f.d.toNat]
  nres := 1
  isLoad := true
  cause := fun x s =>
    let o := maAddr f x s
    lowestCause [((x.scalar s f.a.toNat 0).poison, cPoison), (4092 < o || o % 4 ≠ 0, cAddress)]
  acts := fun x s =>
    let o := maAddr f x s
    let y := s.seqOf x.q
    if holdClear s y.hold then
      eccChecks s (columnPlaces x.core o) (s.fnOf x.core) ++
        [result x s (.rows f.d.toNat) (.rows [columnRow s x.core o]) (8 * 2 ^ f.lat.toNat) {}] ++ columnError s x.q o (loadPass y) y.hnd
    else
      let fl : Flight := { id := 0, q := x.q, dest := .rows f.d.toNat, val := .rows [emptyRow], issue := s.cyc, due := s.cyc + 8 * 2 ^ f.lat.toNat
                           missing := 1, slot := x.slot, addr := x.addr, got := 0, hnd := y.hnd }
      [.work (fun w => (w.push fl).pushAccess s
        { id := 0, q := x.q, fn := s.fnOf x.core, launch := runningLaunch s x.core, slot := x.slot, addr := x.addr, kind := .column o
          va := 0xFF00000000000000 + 2 ^ 22, size := 4, flight := some w.nextId, issue := s.cyc, at_ := s.cyc + 1, bound := 6
          pass := loadPass y, hnd := y.hnd })]

/-- The address of each element of a gather or scatter that is not skipped, with its lane and its index lane's poison (R212). -/
def elements (f : MI) (x : Ctx) (s : State) : List (Nat × Nat × Bool) :=
  let ix := x.row s f.x.toNat 32 1
  let base := (x.scalar s f.a.toNat 0).val + f.off12.signExtend 64
  (List.range 512).filterMap fun i =>
    if ix.lanePoison 32 i then some (i, 0, true)
    else if ix.lane 32 i = 0xFFFFFFFF then none
    else some (i, (base + BitVec.ofNat 64 (4 * ix.lane 32 i)).toNat, false)

/-- The causes of the elements of a gather or scatter (R212). -/
def elementCause (f : MI) (x : Ctx) (s : State) (u : Use) : Option Nat :=
  if (x.scalar s f.a.toNat 0).poison then some cPoison
  else
    ((elements f x s).filter (fun e => !e.2.2)).foldl (fun a e =>
      match a, classify s x.core e.2.1 4 4 u with
      | none, c => c
      | some b, some c => some (min b c)
      | some b, none => some b) none

def opVgath (f : MI) : Op where
  rows := fun _ _ => [f.d.toNat, f.x.toNat]
  nres := 1
  isLoad := true
  cause := fun x s => elementCause f x s .load
  acts := fun x s =>
    let es := elements f x s
    let lanes := (List.range 512).map (fun i =>
      (es.find? (fun e => e.1 = i)).map (fun e => if e.2.2 then LaneOut.poisoned else { bits := 0 }))
    let got := packBits ((List.range 512).map (fun i => es.any (fun e => e.1 = i && e.2.2)))
    issueLoad x s (.rows f.d.toNat) (.rows [writeLanes 32 lanes]) (BitVec.ofNat 1024 got) 32 f.lat.toNat
      ((es.filter (fun e => !e.2.2)).map (fun e => ⟨e.2.1, 4, 4 * e.1⟩))

def opVscat (f : MI) : Op where
  rows := fun _ _ => [f.d.toNat, f.x.toNat]
  cause := fun x s =>
    if (elements f x s).any (fun e => e.2.2) then some cPoison else elementCause f x s .store
  acts := fun x s =>
    let r := x.row s f.d.toNat 32 2
    let es := elements f x s
    let bound := groupBound x s (es.map (fun e => ⟨e.2.1, 4, 0⟩)) true (x.ck 8)
    es.flatMap fun e =>
      let p := r.lanePoison 32 e.1
      issueStore x s e.1 bound [(⟨e.2.1, 4, 0⟩, leBytes 4 (if p then 0 else r.lane 32 e.1), List.replicate 4 p)]

/-! PROBE and PREF (R213, R214, R238, R239). -/

/-- The 4 KiB block a PROBE looks up. -/
def probeBlock (f : MA) (x : Ctx) (s : State) : Nat := (x.scalar s f.a.toNat 0).val.toNat / 4096 * 4096

/-- The number of slots of a core's probe region, and its first block. -/
def probeSlots (y : Core) : Nat := y.ptSize / 4096
def probeFirst (y : Core) : Nat := y.ptBase / 4096

/-- The slot that holds a block, if one does. -/
def probeHit (s : State) (c block : Nat) : Option Nat :=
  (List.range (probeSlots (s.coreOf c))).find? (fun i =>
    let e := SMap.get {} s.ptt (1024 * c + i)
    e.valid && e.block = block)

def opProbe (f : MA) : Op where
  dests := keyScalar (f.d.toNat % 64)
  nres := 1
  cause := fun x s =>
    let y := s.coreOf x.core
    lowestCause [((x.scalar s f.a.toNat 0).poison, cPoison),
      (probeSlots y = 0 || 0x3E0 < probeFirst y + probeSlots y || windowOf (probeBlock f x s) ≠ 1, cAddress)]
  acts := fun x s =>
    let c := x.core
    let y := s.coreOf c
    let n := probeSlots y
    let block := probeBlock f x s
    let slot := match probeHit s c block with | some i => i | none => y.rr % n
    let v : Word := BitVec.ofNat 64 (0xFF00000000000000 + y.ptBase + 4096 * slot + (x.scalar s f.a.toNat 0).val.toNat % 4096)
    scalarResult x s (f.d.toNat % 64) false v (8 * 2 ^ f.lat.toNat) true 0 ::
      (match probeHit s c block with
       | some _ => []
       | none =>
         [.ptt c slot ⟨true, block⟩, .core c (fun y => { y with rr := (y.rr + 1) % n }),
          .work (fun w => { w with
            copies := w.copies ++ [{ id := w.nextId, q := x.q, fn := s.fnOf c, launch := runningLaunch s c, op := 0x11, ch := 3
                                     src := block, dst := 0xFF00000000000000 + y.ptBase + 4096 * slot, len := 4096
                                     tag := BitVec.ofNat 16 (block / 4096 % 2 ^ 16), bar := 0, start := s.cyc + 1
                                     probe := some slot, slot := x.slot, addr := x.addr, hold := (s.seqOf x.q).hold }]
            nextId := w.nextId + 1 })])
  next := fun x s =>
    match probeHit s x.core (probeBlock f x s) with
    | some _ => .seq
    | none => .free (relTarget x f.off21.toInt)

def opPref (f : MA) : Op where
  acts := fun x s =>
    let a := maAddr f x s
    let fn := s.fnOf x.core
    if (x.scalar s f.a.toNat 0).poison || windowOf a ≠ 1 then []
    else if (translateFast s x.core fn a false).isSome then l1Fills x s [a]
    else [.work (fun w => w.walkFor s x.core fn a (s.cyc + 1 + s.choice (x.ck 7)) none)]

end Sys2Proof.Machine
end

