-- ==== Sys2Proof/Machine/SyncOps.lean ====
section
/-! DEFINITION. Drains, barriers, atomics, waits, copies (08 R215 to R222). -/

namespace Sys2Proof.Machine

/-! Drains (R218, R265). -/

/-- The narrowest scope that holds a home, seen from core c: 0 core, 1 cluster, 2 module (R265). -/
def scopeOf (c : Nat) (h : Home) : Nat :=
  match h with
  | .spd d => if d = c then 0 else if d / 256 = c / 256 then 1 else 2
  | .bos _ => 0
  | .sye d => if d = c / 256 then 1 else 2
  | .hbm => 2
  | .host => 4

/-- The base address of a drain target's first row (R200). -/
def drainTarget (t : Word) : Nat := windowBase (let w := (t.extractLsb' 48 2).toNat; if w = 0 then 1 else w + 1) + (t.extractLsb' 0 48).toNat

/-- The narrowest scope, seen from core c, that holds what an address names: the overflow part of a die's sync memory belongs to its SYE. -/
def addressScope (s : State) (c a : Nat) : Nat :=
  if windowOf a = 1 then 2 else if windowOf a = 2 then scopeOf c (.sye (syncDie a)) else scopeOf c (locate s c a).1

/-- Whether an address lies in the scratchpad of core c. -/
def ownAddress (s : State) (c a : Nat) : Bool := (windowOf a = 3 || windowOf a = 4) && (locate s c a).1 = .spd c

/-- The first address that a command's drain rows go to. -/
def Command.target (x : Command) : Option Nat := match x.kind with | .drain _ _ _ _ _ t _ => some (drainTarget t) | _ => none

/-- Whether a command writes the core's scratchpad or its ACS (R218): a routine, MZERO, a drain into the own scratchpad, a step
that keeps an error-feedback buffer there, by its descriptor and channel entry as they stand (R325). -/
def Command.writesLocal (s : State) (x : Command) : Bool :=
  match x.kind with
  | .mcall _ | .zero _ _ => true
  | .drain .. => (match x.target with | some a => ownAddress s (x.q / 4) a | none => false)
  | .srd _ _ d => let e := SMap.get 0 s.cht (256 * (x.q / 4) + (s.readByte (.spd (x.q / 4)) (d % 2 ^ 22 + 28)).toNat); e.getLsbD 3 && e.getLsbD 7
  | _ => false

/-- What an access does to its home, as drains see it: a store, an atomic, a barrier's or tree's operation, an update of a record. -/
def AccessKind.stores : AccessKind → Bool
  | .load | .barWait _ | .waitVal _ _ _ | .column _ => false
  | .record op => (match op with | .amax _ _ | .scale => true | _ => false)
  | _ => true

/-- What a DRAINR covers of what accesses do: stores, atomics, contributions and row adds, drain rows, updates of records; no request to a
barrier and no engine's addition to one (R218, R265). -/
def AccessKind.drained : AccessKind → Bool
  | .barInit _ | .treeInit _ | .arrive _ => false
  | k => k.stores

/-- The loads that the own stores of sequencer q which others do not see yet wait for (R262). -/
def unreleasedLoads (s : State) (q : Nat) : List Nat := (s.work.unreleased.filter (fun u => u.q = q)).flatMap (fun u => u.loads)

/-- Two holds as one. -/
def Hold.and (a b : Hold) : Hold := ⟨a.accs ++ b.accs, a.copies ++ b.copies, a.cmds ++ b.cmds, a.elems ++ b.elems, a.results ++ b.results⟩

/-- The part of a hold that is not yet done. -/
def Hold.left (s : State) (h : Hold) : Hold :=
  ⟨h.accs.filter (fun i => s.work.accesses.any (fun a => a.id = i && !a.performed)),
    h.copies.filter (fun i => s.work.copies.any (fun y => y.id = i)),
    h.cmds.filter (fun i => s.work.commands.any (fun y => y.id = i) || s.work.accesses.any (fun a => a.origin = some i) ||
      s.chip.srds.any (fun e => e.2.any (fun y => y.id = i))),
    h.elems.filter (fun i => s.chip.elements.any (fun e => e.id = i)),
    h.results.filter (fun i => s.work.flights.any (fun f => f.id = i))⟩

/-- What a DRAINL covers: the sequencer's writes to its own scratchpad and ACS, results in flight to its rows and its engine commands' writes
included (R218). -/
def localHold (s : State) (q : Nat) : Hold where
  accs := (s.work.accesses.filter (fun a => a.q = q && a.kind.stores && a.own s)).map (fun a => a.id) ++ unreleasedLoads s q
  copies := (s.work.copies.filter (fun y => y.q = q && (y.op = 0x11 || y.op = 0x13) && ownAddress s (q / 4) y.dst)).map (fun y => y.id)
  cmds := (s.work.commands.filter (fun y => y.q = q && y.writesLocal s)).map (fun y => y.id)
  results := (s.work.flights.filter (fun f => f.q = q && (match f.dest with | .rows _ => true | _ => false))).map (fun f => f.id)

/-- What a DRAINR of a scope covers: stores, atomics, scatter elements, channel elements and drain rows, but those into the own scratchpad,
whose home lies in the scope (R218, R265, R272). -/
def scopeHold (s : State) (q scope : Nat) : Hold where
  accs := (s.work.accesses.filter (fun a => a.q = q && a.kind.drained && addressScope s (q / 4) a.va ≤ scope &&
      (!a.engine || (!(a.own s) && !(s.work.copies.any (fun y => a.origin = some y.id)))))).map (fun a => a.id) ++
    (if scope = 0 then [] else unreleasedLoads s q)
  cmds := (s.work.commands.filter (fun y => y.q = q && (match y.target with | some a => !ownAddress s (q / 4) a && addressScope s (q / 4) a ≤ scope | none => false))).map
    (fun y => y.id)
  elems := (s.chip.elements.filter (fun e => e.q = some q &&
    (match e.remote with | some _ => 3 | none => scopeOf (q / 4) (.spd e.element.core)) ≤ scope)).map (fun e => e.id)

/-- A drain: later accesses and engine starts of the sequencer wait for the work (R218). -/
def drainOp (h : State → Nat → Hold) : Op where
  acts := fun x s => let n := h s x.q; [.seq x.q (fun y => { y with hold := (Hold.left s y.hold).and n })]

def opDrainl (_f : MS) : Op := drainOp localHold
def opDrainr (f : MS) : Op := drainOp (fun s q => scopeHold s q f.sub.toNat)
def opDrainc (f : MS) : Op :=
  drainOp (fun s q => { copies := (s.work.copies.filter (fun y => y.q / 4 = q / 4 && y.ch = f.sub.toNat)).map (fun y => y.id) })

/-! Requests to the SYE (R220 to R222, R228). -/

/-- The cause of a sync-window operation on n bytes: outside the sync window an address fault, the lowest code
(R91 item 5, R221, R232). -/
def syncCause (x : Ctx) (s : State) (r : SReg) (n align : Nat) : Option Nat :=
  if r.poison then some cPoison
  else
    minCause (classify s x.core r.val.toNat n align .store) (if windowOf r.val.toNat = 2 then none else some cAddress)

/-- Sends a request that reaches the SYE between t+1 and t+32 (R228). -/
def sendSye (x : Ctx) (s : State) (kind : AccessKind) (va n : Nat) (bytes : List Byte) (ps : List Bool) : Act :=
  .work (fun w => w.pushAccess s
    { id := 0, q := x.q, fn := s.fnOf x.core, launch := runningLaunch s x.core, slot := x.slot, addr := x.addr, kind := kind, va := va
      size := n, bytes := bytes, poison := ps, issue := s.cyc, at_ := s.cyc + 1 + s.choice (x.ck 10) % Config.syeDelay, bound := 68 })

/-- Puts a sequencer in WAIT; a second wait of the same bundle follows the first, and one that a YIELD of the bundle has stopped waits when
it goes on (log 21); one that a HALT of the bundle has stopped stays IDLE (R138). -/
def enterWait (q : Nat) (w : Wait) : Act :=
  .seq q (fun y =>
    match y.run with
    | .idle => y
    | .run => { y with run := .wait, wait := w, armed := false, report := none }
    | .wait | .parked | .quiesced => { y with more := y.more ++ [{ wait := w }] })

def opBarinit (f : MS) : Op where
  cause := fun x s =>
    let b := x.scalar s f.b.toNat 1
    minCause (syncCause x s (x.scalar s f.a.toNat 0) 16 16)
      (lowestCause [(!b.poison && b.val.extractLsb' 0 48 = 0, cIllegalEncoding), (b.poison, cPoison)])
  acts := fun x s =>
    [sendSye x s (.barInit ((x.scalar s f.b.toNat 1).val.extractLsb' 0 48).toNat) (x.scalar s f.a.toNat 0).val.toNat 16 [] []]

/-- The fields of a tree object's header (R219). -/
structure TreeHead where
  dies : Nat
  core0 : Nat
  ncore : Nat
  lanes : Nat
  kind : Nat
  deriving DecidableEq, Repr

def treeHead (v : Nat) : TreeHead := ⟨v % 16, v / 2 ^ 4 % 256, v / 2 ^ 12 % 512, v / 2 ^ 21 % 4 + 1, v / 2 ^ 23 % 4⟩

/-- The contributors of a tree object, and the bytes E of one node (R219). -/
def TreeHead.count (h : TreeHead) : Nat := popCountTo h.dies 4 * h.ncore * h.lanes
def TreeHead.node (h : TreeHead) : Nat := if h.kind = 0 then 4 else if h.kind = 1 then 16 else 2048

/-- The bytes of the whole object. -/
def TreeHead.bytes (h : TreeHead) : Nat := 64 + h.count * h.node

/-- BARINIT.tree (R220): a KIND of 3, an NCORE above 256 or a bit of [63:49] set is an illegal encoding (log 96). -/
def opBarinitTree (f : MS) : Op where
  cause := fun x s =>
    let b := x.scalar s f.b.toNat 1
    let v := b.val.toNat
    let h := treeHead v
    let bad := v / 2 ^ 25 % 2 ^ 23 ≠ 0 || v / 2 ^ 49 ≠ 0 || h.kind = 3 || 256 < h.ncore || h.count = 0 || 4096 < h.count
    minCause (syncCause x s (x.scalar s f.a.toNat 0) h.bytes 64) (lowestCause [(!b.poison && bad, cIllegalEncoding), (b.poison, cPoison)])
  acts := fun x s =>
    let v := (x.scalar s f.b.toNat 1).val &&& 0x1FFFFFF
    [sendSye x s (.treeInit (leBytes 64 v.toNat)) (x.scalar s f.a.toNat 0).val.toNat (treeHead v.toNat).bytes [] []]

def opBararv (f : MS) : Op where
  cause := fun x s =>
    minCause (syncCause x s (x.scalar s f.a.toNat 0) 16 16) (firstCause [((x.scalar s f.b.toNat 1).poison, cPoison)])
  acts := fun x s =>
    [sendSye x s (.arrive ((x.scalar s f.b.toNat 1).val.extractLsb' 0 48).toNat) (x.scalar s f.a.toNat 0).val.toNat 16 [] []]

/-- BARWAIT: in WAIT from the next cycle until the SYE's report (R220). -/
def opBarwait (f : MS) : Op where
  cause := fun x s =>
    minCause (syncCause x s (x.scalar s f.a.toNat 0) 16 16) (firstCause [((x.scalar s f.b.toNat 1).poison, cPoison)])
  acts := fun x s =>
    let a := (x.scalar s f.a.toNat 0).val.toNat
    let p := (x.scalar s f.b.toNat 1).val.getLsbD 0
    [sendSye x s (.barWait p) a 16 [] [], enterWait x.q (.barwait a p x.slot x.addr)]

/-- The bytes of a location of code sz (R82): 4, 8 or 16. -/
def szBytes (sz : BitVec 2) : Nat := 4 * 2 ^ sz.toNat

/-- WAITV: the compare is made when its request reaches the SYE (R222). -/
def opWaitv (f : MS) : Op where
  cause := fun x s =>
    minCause (syncCause x s (x.scalar s f.a.toNat 0) (szBytes f.sz) (szBytes f.sz)) (firstCause [((x.scalar s f.b.toNat 1).poison, cPoison)])
  acts := fun x s =>
    let a := (x.scalar s f.a.toNat 0).val.toNat
    let v := (x.scalar s f.b.toNat 1).val
    [sendSye x s (.waitVal v (szBytes f.sz) (f.sub.toNat % 16)) a (szBytes f.sz) [] [],
     enterWait x.q (.waitv a v (szBytes f.sz) (f.sub.toNat % 16) x.slot x.addr)]

/-- An atomic that returns a value to s[d] (R221): performed at the SYE at a cycle between t+1 and t+32, its value back within the
formula bound, or poisoned at the class bound; whole is the length of the indivisible unit it is part of (R259). -/
def atomicOp (f : MS) (n : Nat) (reads : Nat) (kind : Ctx → State → AccessKind) (whole : Nat := n) : Op where
  dests := keyScalar f.d.toNat
  nres := 1
  cause := fun x s => syncCause x s (x.scalar s f.a.toNat 0) n n
  acts := fun x s =>
    let a := (x.scalar s f.a.toNat 0).val.toNat
    let b := x.scalar s f.b.toNat 1
    let c := x.scalar s f.c.toNat 2
    let poison := (1 ≤ reads && b.poison) || (2 ≤ reads && c.poison)
    let due := s.cyc + 8 * 2 ^ f.lat.toNat
    let at_ := s.cyc + 1 + s.choice (x.ck 10) % Config.syeDelay
    let back := at_ + s.choice (x.ck 11) % (formula s x.core a n (s.choice (x.ck 12)) .none + stackExtra s (reached s x.core a n .none) (x.ck 13) - Config.syeDelay)
    let fl : Flight := { id := 0, q := x.q, dest := .scalar f.d.toNat, val := .word 0 false, issue := s.cyc, due := due, slot := x.slot
                         addr := x.addr, missing := 1, hnd := (s.seqOf x.q).hnd }
    [.work (fun w =>
      let id := w.nextId
      (w.push fl).pushAccess s
        { id := 0, q := x.q, fn := s.fnOf x.core, launch := runningLaunch s x.core, slot := x.slot, addr := x.addr
          kind := kind x s, va := a, size := whole, poison := [poison], flight := some id, issue := s.cyc, at_ := at_
          bound := due, lost := due < back })]

/-- An integer atomic of code op. -/
def intAtomic (f : MS) (op reads : Nat) : Op :=
  atomicOp f (szBytes f.sz) reads (fun x s =>
    .atomic op (szBytes f.sz) (x.scalar s f.b.toNat 1).val (x.scalar s f.c.toNat 2).val (f.sub.toNat % 4))

def opAadd (f : MS) : Op := intAtomic f 0x1B 1
def opAmin (f : MS) : Op := intAtomic f 0x1C 1
def opAmax (f : MS) : Op := intAtomic f 0x1D 1
def opAand (f : MS) : Op := intAtomic f 0x1E 1
def opAor (f : MS) : Op := intAtomic f 0x1F 1
def opAxor (f : MS) : Op := intAtomic f 0x20 1
def opAswp (f : MS) : Op := intAtomic f 0x21 1
def opAcas (f : MS) : Op := intAtomic f 0x22 2
def opAfaddu (f : MS) : Op := atomicOp f 4 1 (fun x s => .atomic 0x24 4 (x.scalar s f.b.toNat 1).val 0 0)
def opAxadd (f : MS) : Op :=
  atomicOp f 32 2 (fun x s => .atomic 0x25 32 (x.scalar s f.b.toNat 1).val (x.scalar s f.c.toNat 2).val (f.sub.toNat % 4))
def opAstat (f : MS) : Op :=
  atomicOp f 16 2 (fun x s => .atomic 0x2E 16 (x.scalar s f.b.toNat 1).val (x.scalar s f.c.toNat 2).val 0)

/-- A contribution to a tree object whose operand is carried in b and c (R219, R221); the header is 64 bytes aligned to 64, of
which the instruction's own location must meet R221. Its unit is the one that a round's completion writes: header and result (R259). -/
def contributeOp (f : MS) (n reads op : Nat) : Op :=
  atomicOp f n reads (fun x s => .atomic op n (x.scalar s f.b.toNat 1).val (x.scalar s f.c.toNat 2).val 0) (64 + (if n = 4 then 4 else 16))

def opAfaddo (f : MS) : Op := contributeOp f 4 1 0x23
def opAstatO (f : MS) : Op := contributeOp f 16 2 0x2F

/-! Copies (R215). -/

/-- The start cycle an engine command fixes at issue: TB plus its offset (R151, R186). -/
def startCycle (x : Ctx) (s : State) (at_ : Nat) : Nat := ((s.seqOf x.q).tb.toNat + at_) % 2 ^ 64

/-- The cause of a copy's source or destination: outside the windows allowed an address fault, else R232 (R215). -/
def copyRange (x : Ctx) (s : State) (a n : Nat) (windows : List Nat) : Option Nat :=
  if !(windows.contains (windowOf a)) then some cAddress
  else if windowOf ((a + n - 1) % 2 ^ 64) ≠ windowOf a then some cCrossing
  else if !validPart s x.core a n .engine then some cAddress
  else none

/-- The first of a list of causes. -/
def firstOf : List (Option Nat) → Option Nat
  | [] => none
  | some c :: _ => some c
  | none :: l => firstOf l

/-- A copy of code op: its checks in the order of R215, and its record. -/
def copyOp (f : MC) (op : Nat) (srcs dsts : List Nat) : Op where
  share := [3000 + f.ch.toNat]
  cause := fun x s =>
    let a := x.scalar s f.a.toNat 0
    let b := x.scalar s f.b.toNat 1
    let l := x.scalar s f.l.toNat 2
    let bar := x.scalar s f.bar.toNat 3
    let len := (l.val.extractLsb' 0 40).toNat
    let n := max len 1
    let bos := op = 0x14
    let off := (b.val.extractLsb' 0 12).toNat
    let busy := (s.work.copies.filter (fun y => y.q / 4 = x.core && y.ch = f.ch.toNat)).length + (if x.prior.contains (3000 + f.ch.toNat) then 1 else 0)
    firstOf
      [firstCause [((!l.poison && l.val.extractLsb' 40 8 ≠ 0) || (bos && !b.poison && b.val.extractLsb' 12 52 ≠ 0), cIllegalEncoding),
         (a.poison || b.poison || l.poison || (f.bar ≠ 0 && bar.poison), cPoison)],
       copyRange x s a.val.toNat n srcs,
       if bos then firstCause [(4096 < off + len / 512, cAddress)] else copyRange x s b.val.toNat n dsts,
       firstCause [(a.val.toNat % 64 ≠ 0 || b.val.toNat % 64 ≠ 0 || len % 64 ≠ 0 || (bos && len % 512 ≠ 0), cAlignment)],
       if f.bar = 0 then none
       else firstCause [(windowOf bar.val.toNat ≠ 2 || !syncValid s (s.fnOf x.core) bar.val.toNat 16, cAddress),
                        (bar.val.toNat % 16 ≠ 0, cAlignment)],
       firstCause [(startCycle x s f.at14.toNat ≤ s.cyc || 8 ≤ busy, cTiming)]]
  acts := fun x s =>
    let l := (x.scalar s f.l.toNat 2).val
    let len := (l.extractLsb' 0 40).toNat
    if len = 0 then []
    else
      [.work (fun w => { w with
        copies := w.copies ++ [{ id := w.nextId, q := x.q, fn := s.fnOf x.core, launch := runningLaunch s x.core, op := op
                                 ch := f.ch.toNat, src := (x.scalar s f.a.toNat 0).val.toNat, dst := (x.scalar s f.b.toNat 1).val.toNat
                                 len := len, tag := l.extractLsb' 48 16
                                 bar := if f.bar = 0 then 0 else (x.scalar s f.bar.toNat 3).val.toNat
                                 start := startCycle x s f.at14.toNat, slot := x.slot, addr := x.addr, hold := (s.seqOf x.q).hold }]
        nextId := w.nextId + 1 })]

def opCpygs (f : MC) : Op := copyOp f 0x11 [1] [3, 4]
def opCpysg (f : MC) : Op := copyOp f 0x12 [3, 4] [1]
def opCpyss (f : MC) : Op := copyOp f 0x13 [3, 4] [3, 4]
def opCpyb (f : MC) : Op := copyOp f 0x14 [1, 4] []

end Sys2Proof.Machine
end

