-- ==== Sys2Proof/Machine/Link.lean ====
section
/-! DEFINITION. The channel table, channel elements, and what a port sends (8 R223, 15 R310 to R319). -/

namespace Sys2Proof.Machine

/-! The channel table (R315). -/

/-- w bits of an entry from bit b. -/
def chtField (e : BitVec 128) (b w : Nat) : Nat := (e.extractLsb' b w).toNat

/-- A word with w bits from bit b replaced. -/
def setField {n : Nat} (e : BitVec n) (b w v : Nat) : BitVec n :=
  (e &&& ~~~(BitVec.ofNat n ((2 ^ w - 1) * 2 ^ b))) ||| BitVec.ofNat n (v % 2 ^ w * 2 ^ b)

/-- Entry n of core c. -/
def State.chtOf (s : State) (c n : Nat) : BitVec 128 := SMap.get 0 s.cht (256 * c + n)

/-- Whether an entry is valid and of a kind: 0 receive, 1 send, 2 collective. -/
def chtValid (e : BitVec 128) (kind : Nat) : Bool := e.getLsbD 0 && chtField e 1 2 = kind

/-- The bytes of an entry's element: its lanes, of 4 bytes for types 0 to 2 and of 2 bytes for the others. -/
def chtBytes (e : BitVec 128) : Nat := (chtField e 52 11 + 1) * (if chtField e 48 4 < 3 then 4 else 2)

def chtSlots (e : BitVec 128) : Nat := chtField e 64 5 + 1
def chtCount (e : BitVec 128) : Nat := chtField e 80 6
def chtHead (e : BitVec 128) : Nat := chtField e 86 5
def chtLane (e : BitVec 128) : Nat := chtField e 4 3
/-- The peer: module, and core of that module (256 x die + core). -/
def chtModule (e : BitVec 128) : Nat := chtField e 8 10
def chtPeer (e : BitVec 128) : Nat := 256 * chtField e 18 2 + chtField e 20 8

/-- The scratchpad offset of the k-th slot from the oldest of a receive entry's ring. -/
def ringOff (e : BitVec 128) (k : Nat) : Nat :=
  Config.ringArea + 64 * chtField e 69 11 + (chtHead e + k) % chtSlots e * chtBytes e

/-- The entry after k elements have been taken. -/
def chtTake (e : BitVec 128) (k : Nat) : BitVec 128 :=
  setField (setField e 86 5 ((chtHead e + k) % chtSlots e)) 80 6 (chtCount e - k)

/-- The entry with one more element. -/
def chtPut (e : BitVec 128) : BitVec 128 := setField e 80 6 (chtCount e + 1)

/-- The entry with its overflow bit set or clear (R223). -/
def chtOverflow (e : BitVec 128) (b : Bool) : BitVec 128 := setField e 91 1 (if b then 1 else 0)

/-! Flits (R310). -/

/-- A flit header without its link sequence number, which the port gives. -/
def flitHeader (dmod ddie dcore ent seq ty vl fix pmask : Nat) : BitVec 128 :=
  BitVec.ofNat 128 (dmod % 2 ^ 10 + 2 ^ 10 * (ddie % 4) + 2 ^ 12 * (dcore % 256) + 2 ^ 20 * (ent % 256) + 2 ^ 28 * (seq % 2 ^ 24) +
    2 ^ 52 * (ty % 4) + 2 ^ 54 * (vl % 8) + 2 ^ 57 * (fix % 8) + 2 ^ 72 * (pmask % 2 ^ 32))

/-- A field of a flit's header. -/
def flitField (f : Flit) (b w : Nat) : Nat := (f.header.extractLsb' b w).toNat
def flitDest (f : Flit) : Nat := flitField f 0 10
def flitKind (f : Flit) : Nat := flitField f 52 2
def flitLane (f : Flit) : Nat := flitField f 54 3
def flitFix (f : Flit) : Nat := flitField f 57 3
def flitLseq (f : Flit) : Nat := flitField f 60 12

/-- The flits of one element or transfer chunk: 256 bytes each, the last padded with zeros, with each 8 bytes' poison; the first
carries the extension (R310, R321). -/
def flitsOf (fn source dmod ddie dcore ent seq ty vl : Nat) (ext : Option (BitVec 128)) (bytes : List Byte) (ps : List Bool) : List Flit :=
  (List.range ((bytes.length + 255) / 256)).map fun i =>
    let b := (bytes.drop (256 * i)).take 256
    let p := (ps.drop (256 * i)).take 256
    let mask := packBits ((chunks 8 32 p).map (fun l => l.any (fun x => x)))
    { header := flitHeader dmod ddie dcore ent seq ty vl i mask, ext := if i = 0 then ext else none
      payload := BitVec.ofNat 2048 (leValue b), source := source, size := bytes.length, fn := fn }

/-- The bytes and poison a flit carries. -/
def flitData (f : Flit) : List Byte × List Bool :=
  (leBytes 256 f.payload.toNat, (List.range 256).map (fun i => f.header.getLsbD (72 + i / 8)))

/-! Routes and ports (R311 to R314). -/

/-- A port. -/
def Chip.port (h : Chip) (k : Nat) : Port := SMap.get {} h.ports k

/-- The number of ports (R309). -/
def portCount : Nat := 24

/-- The egress port toward a module, if a route to one of the ports exists and its link is up. -/
def Chip.route (h : Chip) (m : Nat) : Option Nat :=
  let r := SMap.get 0 h.routes m
  let k := (r.extractLsb' 0 5).toNat
  if r.getLsbD 7 && k < portCount && (h.port k).up then some k else none

/-- The reset status of a VF. -/
def Chip.vfReset (h : Chip) (v : Nat) : VfReset := SMap.get {} h.vfr v

/-- Whether a flit was made by function v of this module (R348). -/
def flitOf (h : Chip) (v : Nat) (f : Flit) : Bool := f.fn = v && f.source / 1024 = h.modId

/-- The tag of a flit whose function's reset has ended its drain before the flit was acknowledged (log 90). -/
def noFunction : Nat := 32

/-- Whether a flit of an element or a transfer must not leave again, its function being or having been reset (R353). -/
def Chip.dead (h : Chip) (f : Flit) : Bool :=
  f.source / 1024 = h.modId && flitKind f ≠ 2 && (f.fn = noFunction || (h.vfReset f.fn).busy)

/-- A port's retry buffer without the flits from index i on that are gone: what follows them is numbered on from the first of them, where the
receiver is about to take up a replay (R311, R353; log 90). -/
def Port.purge (p : Port) (i : Nat) (gone : Flit → Bool) : Port :=
  let first := match p.retry[i]? with | some e => e.1 | none => p.lseq
  let kept := ((p.retry.drop i).filter (fun e => !gone e.2.1)).mapIdx (fun k e =>
    ((first + k) % 4096, { e.2.1 with header := setField e.2.1.header 60 12 ((first + k) % 4096) }, e.2.2))
  { p with retry := p.retry.take i ++ kept, lseq := (first + kept.length) % 4096 }

/-- Whether a port has flits for a module that the next hop has not acknowledged. -/
def Port.carries (p : Port) (m : Nat) : Bool := p.waiting.any (fun e => flitDest e.1 = m) || p.retry.any (fun e => flitDest e.2.1 = m)

/-- Whether new flits for a module are held: no route, earlier ones held, or earlier ones on another port (R314). -/
def Chip.holds (h : Chip) (m : Nat) : Bool :=
  match h.route m with
  | none => true
  | some k => !(SMap.get [] h.routeHold m).isEmpty || h.ports.any (fun e => e.1 ≠ k && e.2.carries m)

/-- Flits enter the port of their module's route, or are held, each with the element it belongs to. -/
def Chip.send (h : Chip) (m : Nat) (fs : List (Flit × Nat)) : Chip :=
  match h.holds m, h.route m with
  | false, some k => { h with ports := SMap.set {} h.ports k { h.port k with waiting := (h.port k).waiting ++ fs } }
  | _, _ => { h with routeHold := SMap.set [] h.routeHold m (SMap.get [] h.routeHold m ++ fs) }

/-- Whether flits of an element are still to leave, or to leave once more in a replay. -/
def Chip.travels (h : Chip) (id : Nat) : Bool :=
  h.ports.any (fun e => e.2.waiting.any (fun f => f.2 = id) ||
    (match e.2.resend with | some k => (e.2.retry.drop k).any (fun f => f.2.2 = id) | none => false)) ||
    h.routeHold.any (fun e => e.2.any (fun f => f.2 = id))

/-- Held flits leave on the route once the earlier ones are acknowledged (R314). -/
def Chip.release (h : Chip) (m : Nat) : Chip :=
  let l := SMap.get [] h.routeHold m
  match h.route m with
  | none => h
  | some k =>
    if h.ports.any (fun e => e.1 ≠ k && e.2.carries m) then h
    else
      { h with routeHold := SMap.set [] h.routeHold m []
               ports := SMap.set {} h.ports k { h.port k with waiting := (h.port k).waiting ++ l } }

/-- Whether a lane is paused. -/
def Port.isPaused (p : Port) (lane : Nat) : Bool := p.paused.any (fun e => e.1 = lane)

/-- The line is taken for n bytes from cycle t: 1.7 Tb/s are 425 half-bytes in a cycle (R309). -/
def Port.occupy (p : Port) (t n : Nat) : Port := { p with freeAt := max p.freeAt (425 * t) + 2 * n }

/-- A beat of 16 bytes leaves between flits (R310). -/
def Port.beat (p : Port) (t : Nat) (o : LinkOut) : Port := { p with out := p.out ++ [o] }.occupy t 16

/-- The bytes of a flit: header, payload and CRC, and the extension of one that has it (R310). -/
def flitBytes (f : Flit) : Nat := if f.ext.isSome then 296 else 280

/-- What a port begins to send in cycle t, when the line is free (R309, R311, R312; log 33): the next flit of a replay, else the first waiting
flit whose lane is not paused, as long as the retry buffer has room. -/
def Port.cycle (p : Port) (t : Nat) : Port :=
  if !p.up || 425 * (t + 1) ≤ p.freeAt then p
  else
    match p.resend with
    | some k =>
      match p.retry[k]? with
      | some e =>
        if p.isPaused (flitLane e.2.1) then p else { p with out := p.out ++ [LinkOut.flit e.2.1], resend := some (k + 1) }.occupy t (flitBytes e.2.1)
      | none => { p with resend := none }
    | none =>
      if 128 ≤ p.retry.length then p
      else
        match p.waiting.find? (fun e => !p.isPaused (flitLane e.1)) with
        | some e =>
          let f := { e.1 with header := setField e.1.header 60 12 p.lseq }
          { p with waiting := p.waiting.erase e, retry := p.retry ++ [(p.lseq, f, e.2)], lseq := (p.lseq + 1) % 4096
                   out := p.out ++ [LinkOut.flit f] }.occupy t (flitBytes f)
        | none => p

/-- How many flits a lane's receive queue holds. -/
def Port.queued (p : Port) (lane : Nat) : Nat := (p.queues.filter (fun r => r.lane = lane)).length

/-- 64 flit times and 128 flit times in cycles: a flit is 280 bytes at 1.7 Tb/s (R309, R310; log 33). -/
def pauseRepeat : Nat := 84
def pauseLength : Nat := 169

/-- Pause beats go out again while the lane's queue holds 16 flits or more, a retry beat while the replay has not come (R311, R312). -/
def Port.repeatBeats (p : Port) (t : Nat) : Port :=
  let keep := p.pausing.filter (fun e => 16 ≤ p.queued e.1)
  let q := (keep.filter (fun e => e.2 ≤ t)).foldl (fun q e => q.beat t (.pause e.1))
    { p with pausing := keep.map (fun e => if e.2 ≤ t then (e.1, t + pauseRepeat) else e) }
  if p.discarding && p.retryAt ≤ t then { q with retryAt := t + pauseRepeat }.beat t (.retry p.expect) else q

/-- The link's work of cycle t: held flits, then every port that is up. -/
def Chip.linkCycle (h : Chip) (t : Nat) : Chip :=
  let h := h.routeHold.foldl (fun h e => h.release e.1) h
  { h with ports := h.ports.map (fun e => (e.1, if e.2.up && e.1 < portCount then (e.2.repeatBeats t).cycle t else e.2)) }

/-! Sending an element (R223, R317, R318). -/

/-- The latest cycle, counted from the send, at which an element of n bytes reaches core d of this module: the remote bound, for the sending
core itself too (R318). -/
def elementBound (c d n : Nat) : Nat := remoteBound c d n

/-- A chip with one more element on its way. -/
def Chip.pushElement (h : Chip) (e : Sent) : Chip := { h with elements := h.elements ++ [{ e with id := h.nextElem }], nextElem := h.nextElem + 1 }

/-- The element that sequencer q sends on channel ch; those of one channel arrive in the order sent (R317). -/
def sentElement (s : State) (q fn ch : Nat) (bytes : List Byte) (ps : List Bool) (hold : Hold) (k : Nat) (h : Chip) : Sent :=
  let e := s.chtOf (q / 4) ch
  let el : Element := ⟨1024 * s.chip.modId + q / 4, chtPeer e, ch, bytes, ps⟩
  if chtModule e = s.chip.modId then
    let last := (h.elements.filter (fun x => x.remote.isNone && x.element.source = el.source && x.element.core = el.core && x.element.channel = ch)).foldl
      (fun m x => max m x.at_) 0
    { at_ := max last (s.cyc + 1 + s.choice k % elementBound (q / 4) (chtPeer e) bytes.length), element := el, id := 0, fn := fn, hold := hold }
  else { at_ := s.cyc + 1 + s.choice k, element := el, id := 0, fn := fn, hold := hold, remote := some (chtModule e, chtLane e) }

/-- The flits of an element for another module. -/
def Sent.flits (x : Sent) : List (Flit × Nat) :=
  match x.remote with
  | none => []
  | some (m, vl) =>
    (flitsOf x.fn x.element.source m (x.element.core / 256) (x.element.core % 256) x.element.channel 0 0 vl none x.element.bytes x.element.poison).map
      (fun f => (f, x.id))

/-- Whether two elements are of one channel of one sender. -/
def sameSender (x y : Sent) : Bool := x.element.source = y.element.source && x.element.channel = y.element.channel

/-- Elements for other modules whose drained work is done leave, those of one channel in the order sent (R272); one whose flits have left is
enqueued at its receiver, and gone, at a free cycle after that (R269, R314; log 38). -/
def elementsLeave (s : State) (h : Chip) : Chip :=
  h.elements.foldl (fun h x =>
    match x.remote with
    | none => h
    | some (m, _) =>
      if x.started then (if h.travels x.id || s.cyc < x.at_ then h else { h with elements := h.elements.filter (fun y => y.id ≠ x.id) })
      else if holdClear s x.hold && !(h.elements.takeWhile (fun y => y.id ≠ x.id)).any (fun y => !y.started && sameSender x y) then
        { (h.send m x.flits) with elements := h.elements.map (fun y => if y.id = x.id then { y with started := true } else y) }
      else h) h

/-! CHSEND and CHRECV (R223). -/

def opChsend (f : MH) : Op where
  rows := fun _ _ => [f.v.toNat]
  cause := fun x s => firstCause [(!chtValid (s.chtOf x.core f.ch.toNat) 1, cIllegalEncoding)]
  acts := fun x s =>
    let b := (x.row s f.v.toNat 32 1).bytes 0 (chtBytes (s.chtOf x.core f.ch.toNat))
    [.chip (fun h => h.pushElement { sentElement s x.q (s.fnOf x.core) f.ch.toNat b.1 b.2 (s.seqOf x.q).hold (x.ck 10) h with q := some x.q })]

/-- The oldest but k of a receive entry's elements as a result in row v. -/
def takeElement (x : Ctx) (s : State) (e : BitVec 128) (k v bound : Nat) : List Act :=
  let h := Home.spd x.core
  let n := chtBytes e
  let ps := s.readPoison h (ringOff e k) n
  let read := eccChecks s [(h, ringOff e k, n)] (s.fnOf x.core)
  read ++ [result x s (.rows v) (.rows [writeRowBytes 0 ((s.readBytes h (ringOff e k) n).mapIdx (fun i b => if ps.getD i false then 0 else b)) ps]) bound {}]

def opChrecv (f : MH) : Op where
  rows := fun _ _ => [f.v.toNat]
  nres := 1
  share := [4000 + f.ch.toNat]
  cause := fun x s =>
    let e := s.chtOf x.core f.ch.toNat
    lowestCause [(!chtValid e 0, cIllegalEncoding), (e.getLsbD 91, cOverflow)]
  acts := fun x s =>
    let e := s.chtOf x.core f.ch.toNat
    let k := if x.prior.contains (4000 + f.ch.toNat) then 1 else 0
    if k < chtCount e then
      takeElement x s e k f.v.toNat (8 * 2 ^ f.lat.toNat) ++ [.cht x.core f.ch.toNat (chtTake e (k + 1))]
    else [enterWait x.q (.chrecv f.ch.toNat f.v.toNat f.lat.toNat x.slot x.addr)]
  onTrap := fun cause x s =>
    if cause = cOverflow then [.cht x.core f.ch.toNat (chtOverflow (s.chtOf x.core f.ch.toNat) false)] else []

end Sys2Proof.Machine
end

