-- ==== Sys2Proof/Machine/Journal.lean ====
section
/-! DEFINITION. The Mirror journal: records, the journal instructions, emissions (8 R225, R226, 11 R269, 16 R331 to R333, 17 R335 to
R346). -/

namespace Sys2Proof.Machine

/-! Records (R336). -/

/-- One bit of CRC-32C (Castagnoli, reflected). -/
def crcBit (r : Nat) : Nat := if r % 2 = 1 then Nat.xor (r / 2) 0x82F63B78 else r / 2

/-- CRC-32C of bytes, initial and final value all ones. -/
def crc32c (bs : List Byte) : Nat :=
  Nat.xor (bs.foldl (fun r b => crcBit (crcBit (crcBit (crcBit (crcBit (crcBit (crcBit (crcBit (Nat.xor r b.toNat))))))))) 0xFFFFFFFF) 0xFFFFFFFF

/-- The 64 bytes of a record. -/
def recordBytes (r : RingRecord) : List Byte :=
  let b := leBytes 8 r.number ++ leBytes 2 r.stream ++ leBytes 2 (r.kind % 16) ++ leBytes 2 r.orig ++ leBytes 2 (r.writer % 1024) ++
    leBytes 8 r.payload.toNat ++ leBytes 8 r.target.toNat ++ leBytes 4 r.launch ++ leBytes 24 0
  b ++ leBytes 4 (crc32c b)

/-- The record that 64 bytes hold, and whether their CRC holds. -/
def recordOf (bs : List Byte) : RingRecord × Bool :=
  let f := fun (o n : Nat) => leValue ((bs.drop o).take n)
  (⟨f 0 8, f 8 2, f 10 1 % 16, f 12 2 % 2 ^ 12, f 14 2 % 1024, BitVec.ofNat 64 (f 16 8), BitVec.ofNat 64 (f 24 8), f 32 4⟩,
    f 60 4 = crc32c (bs.take 60))

/-- The ring size of LOG2N, 10 to 24; other values leave the module unpaired (R335). -/
def ringSize (log : Nat) : Option Nat := if 10 ≤ log && log ≤ 24 then some (2 ^ log) else none

/-- Whether the module journals: paired, with a ring (R335, R339). -/
def Journal.paired (j : Journal) : Bool := j.state ≠ 0 && (ringSize j.ringLog).isSome

/-- Where record n of a ring of the given base lies (R336). -/
def ringPlace (base log n : Nat) : Nat := base * 2 ^ 16 + 64 * (n % 2 ^ log)

/-- The module the JNE sends records to: the partner, the spare being reseeded, none once the partner has failed (R337, R341). -/
def Journal.receiver (j : Journal) : Option Nat := if j.state = 1 then some j.partner else if j.state = 3 then some j.rseed else none

/-- Sends a record of function fn as one TYPE 2 flit on lane 6 (R337, R348). -/
def Chip.sendRecord (h : Chip) (fn : Nat) (bytes : List Byte) (ps : List Bool) : Chip :=
  match h.journal.receiver with
  | some m => h.send m ((flitsOf fn (1024 * h.modId) m 0 0 0 0 2 6 none bytes ps).map (fun f => (f, 0)))
  | none => h

/-- Sends a message of the journal toward a module in cycle t, on the port of its route. -/
def Chip.tell (h : Chip) (t m : Nat) (o : LinkOut) : Chip :=
  match h.route m with
  | some k => { h with ports := SMap.set {} h.ports k ((h.port k).beat t o) }
  | none => h

/-- The function of an unreleased record (R348). -/
def Journal.tagOf (j : Journal) (n : Nat) : Nat := ((j.tags.find? (fun e => e.1 = n)).map (fun e => e.2)).getD 0

/-- Sends the records from number a up to but not including b, from the local copy (R338, R341); one that reads poisoned there is
lost (R342). -/
def resendActs (s : State) (a b : Nat) : List Act :=
  let j := s.chip.journal
  (List.range (b - a)).flatMap fun i =>
    let p := ringPlace j.localBase j.ringLog (a + i)
    let found := eccChecks s [(.hbm, p, 64)] (j.tagOf (a + i))
    if ((applyActs found s).readPoison .hbm p 64).any (fun x => x) then found ++ [post s 0x21 0 0 p (a + i)]
    else found ++ [Act.chip (fun h => h.sendRecord (j.tagOf (a + i)) (s.readBytes .hbm p 64) (List.replicate 64 false))]

/-- HEAD after a change of a commit: one above the highest unreleased MARK that both sides have committed (R340). -/
def Journal.truncate (j : Journal) : Journal :=
  let l := j.marks.filter (fun m => m ≤ j.wcom && m ≤ j.pcom)
  match l.foldl (fun a m => some (max m (a.getD 0))) (none : Option Nat) with
  | some m => { j with head := m + 1, marks := j.marks.filter (fun k => m < k), tags := j.tags.filter (fun e => m < e.1) }
  | none => j

/-- The hosted record number n and whether it is good: its CRC holds and no unit of it is poisoned (R332, R342, R344). -/
def hostedRecord (s : State) (n : Nat) : RingRecord × Bool :=
  let j := s.chip.journal
  let p := ringPlace j.hostBase j.hostLog n
  let r := recordOf (s.readBytes .hbm p 64)
  (r.1, r.2 && !(s.readPoison .hbm p 64).any (fun b => b))

/-! Emissions (R226, R331, R339). -/

/-- The 8-byte store target or the channel of an emit target: bits [63:56] = 0xFC name a channel (R225). -/
def emitChannel (t : Word) : Option Nat := if t.extractLsb' 56 8 = 0xFC then some (t.extractLsb' 0 8).toNat else none

/-- The causes of an emit target (R226). -/
def emitCause (x : Ctx) (s : State) (t : Word) : Option Nat :=
  match emitChannel t with
  | some ch => if chtValid (s.chtOf x.core ch) 1 then none else some cIllegalEncoding
  | none => if windowOf t.toNat = 2 then some cAddress else classify s x.core t.toNat 8 8 .store

/-- An entry of the emit buffer for slot x. -/
def emitEntry (x : Ctx) (s : State) (number : Nat) (silent replay : Bool) (payload target : Word) : Emit :=
  { number := number, target := target, silent := silent, payload := payload, q := x.q, slot := x.slot, addr := x.addr
    fn := s.fnOf x.core, launch := runningLaunch s x.core, replay := replay, hold := (s.seqOf x.q).hold }

/-- The bits of R336's ORIG for sequencer q. -/
def origOf (q : Nat) : Nat := q % 4 + 4 * (q / 4 % 256) + 2 ^ 10 * (q / 4 / 256)

/-- Appends a record (R331, R336, R337, R339): to the local copy, to the emit buffer, then toward the partner. -/
def appendRecord (x : Ctx) (s : State) (number kind stream : Nat) (payload target : Word) (silent : Bool) : List Act :=
  let j := s.chip.journal
  let r : RingRecord := ⟨number, stream, kind, origOf x.q, s.chip.modId, payload, target, (s.coreOf x.core).launchId.toNat % 2 ^ 32⟩
  let b := recordBytes r
  [.write .hbm (ringPlace j.localBase j.ringLog number) b (List.replicate 64 false),
   .chip (fun h =>
     let k := h.journal
     { h with
       emits := h.emits ++ [emitEntry x s number silent false payload target]
       journal := { k with tail := number + 1, marks := if kind = 3 then k.marks ++ [number] else k.marks
                           sentAt := k.sentAt ++ [(number, s.cyc)], tags := k.tags ++ [(number, s.fnOf x.core)] } }.sendRecord (s.fnOf x.core) b (List.replicate 64 false))]

/-- The causes that a JEMIT or JMARK shares (R332, R339). -/
def appendCauses (x : Ctx) (s : State) (marks : Nat) : List (Bool × Nat) :=
  let j := s.chip.journal
  let k := if x.prior.contains 2000 then 1 else 0
  let full := !j.paired || 256 ≤ (s.chip.emits.filter (fun e => !e.replay)).length + k ||
    (match ringSize j.ringLog with | some n => n ≤ j.tail + k - j.head | none => false) || 64 ≤ marks
  [(j.ract, cDivergence), (full, cJournalFull)]

def opJemit (f : MJ) : Op where
  share := [2000]
  cause := fun x s =>
    let a := x.scalar s f.a.toNat 0
    let b := x.scalar s f.b.toNat 1
    let c := x.scalar s f.c.toNat 2
    minCause (if f.c = 0 then none else emitCause x s c.val)
      (lowestCause ((a.poison || b.poison || (f.c ≠ 0 && c.poison), cPoison) :: appendCauses x s 0))
  acts := fun x s =>
    appendRecord x s (s.chip.journal.tail + (if x.prior.contains 2000 then 1 else 0)) f.kind.toNat
      ((x.scalar s f.b.toNat 1).val.extractLsb' 0 16).toNat (x.scalar s f.a.toNat 0).val
      (if f.c = 0 then 0 else (x.scalar s f.c.toNat 2).val) (f.c = 0)

/-- JMARK; MARKs that a JTRUNC of another core has released in this cycle still count (R347). -/
def opJmark (f : MJ) : Op where
  share := [2000, 2002]
  cause := fun x s =>
    let k := (if x.prior.contains 2002 then 1 else 0) + (if s.chip.journal.freed.1 = s.cyc then s.chip.journal.freed.2 else 0)
    lowestCause (((x.scalar s f.a.toNat 0).poison || (x.scalar s f.b.toNat 1).poison, cPoison) ::
      appendCauses x s (s.chip.journal.marks.length + k))
  acts := fun x s =>
    appendRecord x s (s.chip.journal.tail + (if x.prior.contains 2000 then 1 else 0)) 3
      ((x.scalar s f.b.toNat 1).val.extractLsb' 0 16).toNat (x.scalar s f.a.toNat 0).val 0 true

/-- The number of the record that a JCMP compares with: M1's follows M0's (R332). -/
def cursorFor (x : Ctx) (s : State) : Nat := s.chip.journal.cur + (if x.prior.contains 2001 then 1 else 0)

/-- Whether the replay cursor is active for a JCMP: it has not passed the last durable record (R332, R344). -/
def cursorActive (x : Ctx) (s : State) : Bool := s.chip.journal.ract && cursorFor x s < s.chip.journal.hostedNext

/-- The check of the record at the cursor, which a JCMP reads in device memory (R254). -/
def cursorChecks (x : Ctx) (s : State) : List Act :=
  if cursorActive x s then eccChecks s [(.hbm, ringPlace s.chip.journal.hostBase s.chip.journal.hostLog (cursorFor x s), 64)] (s.fnOf x.core) else []

def opJcmp (f : MJ) : Op where
  share := [2001]
  cause := fun x s =>
    let a := x.scalar s f.a.toNat 0
    let b := x.scalar s f.b.toNat 1
    let c := x.scalar s f.c.toNat 2
    let r := hostedRecord s (cursorFor x s)
    let same := cursorActive x s && r.2 && r.1.kind = f.kind.toNat && r.1.stream = (b.val.extractLsb' 0 16).toNat && r.1.payload = a.val
    minCause (if f.c = 0 then none else emitCause x s c.val)
      (lowestCause [(a.poison || b.poison || (f.c ≠ 0 && c.poison), cPoison), (!same, cDivergence)])
  acts := fun x s =>
    let n := cursorFor x s
    let entry := emitEntry x s n false true (x.scalar s f.a.toNat 0).val (x.scalar s f.c.toNat 2).val
    cursorChecks x s ++ [.chip (fun h =>
      let j := h.journal
      { h with
        emits := if f.c = 0 then h.emits else h.emits ++ [entry]
        journal := { j with cur := n + 1, ract := n + 1 < j.hostedNext
                            matched := if f.kind = 3 && j.hostedMarks.contains n then j.matched ++ [n] else j.matched } })]
  onTrap := fun cause x s =>
    if cause = cDivergence then
      cursorChecks x s ++
        (if cursorActive x s && !(hostedRecord s (cursorFor x s)).2 then [post s 0x21 (s.fnOf x.core) 0 0 (cursorFor x s)] else [])
    else []

/-- Whether a JTRUNC of number n acts on the hosted ring (R333): its writer has failed, and n names an unreleased MARK of it. -/
def Journal.truncatesHosted (j : Journal) (n : Nat) : Bool := j.hv && j.wfail && j.hostedMarks.contains n

/-- JTRUNC (R333, R340). -/
def opJtrunc (f : MJ) : Op where
  cause := fun x s =>
    let a := x.scalar s f.a.toNat 0
    let j := s.chip.journal
    let n := a.val.toNat
    let ok := if j.truncatesHosted n then j.matched.contains n else j.marks.contains n
    lowestCause [(a.poison, cPoison), (!ok, cJournalMark)]
  acts := fun x s =>
    let n := (x.scalar s f.a.toNat 0).val.toNat
    [.chip (fun h =>
      let j := h.journal
      if s.chip.journal.truncatesHosted n then
        { h with journal := { j with hostedHead := max j.hostedHead (n + 1), hostedMarks := j.hostedMarks.filter (fun k => n < k)
                                     matched := j.matched.filter (fun k => n < k) } }
      else if n ≤ j.wcom then h
      else
        let k := { j with wcom := n }.truncate
        { h with journal := { k with freed := (s.cyc, (if j.freed.1 = s.cyc then j.freed.2 else 0) + (j.marks.length - k.marks.length)) } })]

end Sys2Proof.Machine
end

