-- ==== Sys2Proof/Machine/Srd.lean ====
section
/-! DEFINITION. The stack reducer commands (8 R224). -/

namespace Sys2Proof.Machine

/-- SRCMD of a step: the stack is s[b][3:0], the start TB + s[c][15:0], the descriptor 64 bytes of the own scratchpad (R186, R224). -/
def srcmdOp (f : MS) (step : Nat) : Op where
  cause := fun x s =>
    let a := x.scalar s f.a.toNat 0
    let b := x.scalar s f.b.toNat 1
    let c := x.scalar s f.c.toNat 2
    let place := minCause (classify s x.core a.val.toNat 64 64 .engine) (if windowOf a.val.toNat = 4 then none else some cAddress)
    minCause (if a.poison then none else place)
      (lowestCause [(!b.poison && 12 ≤ (b.val.extractLsb' 0 4).toNat, cIllegalEncoding), (a.poison || b.poison || c.poison, cPoison),
        (startCycle x s (c.val.extractLsb' 0 16).toNat ≤ s.cyc, cTiming)])
  acts := fun x s =>
    let start := startCycle x s ((x.scalar s f.c.toNat 2).val.extractLsb' 0 16).toNat
    [.work (fun w => { w with
      commands := w.commands ++ [{ id := w.nextId, q := x.q
                                   kind := .srd step ((x.scalar s f.b.toNat 1).val.extractLsb' 0 4).toNat (x.scalar s f.a.toNat 0).val.toNat
                                   issue := s.cyc, start := start, dur := 0, readAt := start, fmt := s.fmt x.q, slot := x.slot
                                   addr := x.addr, hold := (s.seqOf x.q).hold, fn := s.fnOf x.core }]
      nextId := w.nextId + 1 })]

def opSrcmdXadd (f : MS) : Op := srcmdOp f 0
def opSrcmdFaddo (f : MS) : Op := srcmdOp f 1
def opSrcmdFaddu (f : MS) : Op := srcmdOp f 2
def opSrcmdMax (f : MS) : Op := srcmdOp f 3
def opSrcmdMin (f : MS) : Op := srcmdOp f 4
def opSrcmdStato (f : MS) : Op := srcmdOp f 5
def opSrcmdStatu (f : MS) : Op := srcmdOp f 6
def opSrcmdFwd (f : MS) : Op := srcmdOp f 7
def opSrcmdBx4d (f : MS) : Op := srcmdOp f 8

end Sys2Proof.Machine
end

