-- ==== Sys2Proof/Machine/Matrix.lean ====
section
/-! DEFINITION. The matrix commands at issue: MCALL, the MDRAIN family, MZERO, MPSET, MUCLD, MBLD, THSET, MCHKS (8 R186 to R206). -/

namespace Sys2Proof.Machine

/-! Engine commands (R186, R187). -/

/-- Whether the operand formats of FMT are refused for an MXE command: a format of none, or BX mixed with another (R30, R59). -/
def formatsRefused (fmt : Word) : Bool := fmtA fmt = 0 || fmtB fmt = 0 || ((fmtA fmt = 3) != (fmtB fmt = 3))

/-- The XE commands of a core that are not complete. -/
def State.mxeCommands (s : State) (c : Nat) : List Command :=
  s.work.commands.filter (fun y => y.q / 4 = c && (match y.kind with | .srd _ _ _ => false | _ => true))

/-- The causes that every XE command has: its formats, a start not after its issue, an interval that meets an accepted one's. -/
def xeCauses (x : Ctx) (s : State) (at16 dur : Nat) : List (Bool × Nat) :=
  let start := startCycle x s at16
  [(formatsRefused (s.fmt x.q), cIllegalEncoding), (start ≤ s.cyc, cTiming),
   ((s.mxeCommands x.core).any (fun y => start < y.start + y.dur && y.start < start + dur), cTiming)]

/-- mp register i of a core (R21). -/
def State.mpOf (s : State) (c i : Nat) : Word := SMap.get 0 s.mps (8 * c + i)

/-- Accepts an XE command: its registers are read now (R186). A drain with ck = 1 compares with the checksums of the command given (R205). -/
def acceptCommand (x : Ctx) (s : State) (kind : CommandKind) (at16 dur : Nat) (compares : Option Nat := none) : Act :=
  let start := startCycle x s at16
  .work (fun w => { w with
    commands := w.commands ++ [{ id := w.nextId, q := x.q, kind := kind, issue := s.cyc, start := start, dur := dur
                                 readAt := start + s.choice (x.ck 20) % dur, fmt := s.fmt x.q
                                 mp := (List.range 8).map (s.mpOf x.core), slot := x.slot, addr := x.addr, hold := (s.seqOf x.q).hold
                                 compares := compares, fn := s.fnOf x.core, hnd := (s.seqOf x.q).hnd }]
    nextId := w.nextId + 1 })

/-! C descriptors and routines (R189 to R193). -/

def descRow0 (d : Word) : Nat := (d.extractLsb' 0 9).toNat
def descRows (d : Word) : Nat := (d.extractLsb' 9 9).toNat + 1
def descLayout (d : Word) : Nat := (d.extractLsb' 18 2).toNat

/-- The ACS rows of a C descriptor. -/
def descNames (d : Word) : List Nat := (List.range (descRows d * (if descLayout d = 1 then 4 else 1))).map (fun i => descRow0 d + i)

/-- Routine entry n of core c and its fields (R189). -/
def State.routineOf (s : State) (c n : Nat) : Word := SMap.get 0 s.routines (256 * c + n)
def entryFirst (e : Word) : Nat := (e.extractLsb' 0 12).toNat
def entryDur (e : Word) : Nat := (e.extractLsb' 16 16).toNat + 1
def entryMask (e : Word) : Nat := (e.extractLsb' 32 8).toNat
def entryCk (e : Word) : Bool := e.getLsbD 40

/-- Microword n of core c; indices count modulo 4,096 (R190). -/
def State.microword (s : State) (c n : Nat) : Word := SMap.get 0 s.ucode (4096 * c + n % 4096)

/-- The micro-operation code, P, and 32 low bits of a microword (R190). -/
def uwCode (w : Word) : Nat := (w.extractLsb' 60 4).toNat
def uwP (w : Word) : Nat := (w.extractLsb' 57 3).toNat

/-- Whether a microword is invalid: an unassigned code, a nonzero reserved bit, or N = 0 in MACK or ULOOP (R190). -/
def uwInvalid (w : Word) : Bool :=
  let v := w.toNat
  let n := v % 2 ^ 16
  match uwCode w with
  | 0 => v % 2 ^ 60 ≠ 0
  | 1 => v / 2 ^ 37 % 2 ^ 13 ≠ 0 || v % 2 ^ 32 ≠ 0 || (w.getLsbD 56 && uwP w ≠ 0)
  | 2 => v % 2 ^ 57 ≠ 0
  | 3 => v / 2 ^ 16 % 2 ^ 44 ≠ 0 || n = 0
  | 4 => v / 2 ^ 9 % 2 ^ 48 ≠ 0
  | 5 => v / 2 % 2 ^ 59 ≠ 0
  | 6 => v / 2 ^ 28 % 2 ^ 32 ≠ 0 || n = 0
  | 7 => v / 2 ^ 32 % 2 ^ 25 ≠ 0
  | 8 => v / 2 ^ 16 % 2 ^ 44 ≠ 0
  | _ => true

/-- The words that may follow word n of a routine that begins at first: the next one, and the target of a ULOOP (R191). -/
def wordsAfter (s : State) (c first n : Nat) : List Nat :=
  let w := s.microword c n
  match uwCode w with
  | 0 => []
  | 6 => [(n + 1) % 4096, (first + (w.extractLsb' 16 12).toNat) % 4096]
  | _ => if uwInvalid w then [] else [(n + 1) % 4096]

/-- The words of a routine: those that its first word leads to; todo are still to be looked at. -/
def routineWords (s : State) (c first : Nat) : Nat → List Nat → List Nat → List Nat
  | 0, seen, _ => seen
  | _, seen, [] => seen
  | fuel + 1, seen, n :: todo => if seen.contains n then routineWords s c first fuel seen todo else routineWords s c first fuel (n :: seen) (wordsAfter s c first n ++ todo)

/-- The tile handles that a routine's words name in AFEED (R197). -/
def handlesOf (s : State) (c first : Nat) : List Nat :=
  ((routineWords s c first 12288 [] [first]).reverse.filterMap (fun n =>
    let w := s.microword c n
    if uwCode w = 1 && w.getLsbD 56 then some (w.extractLsb' 50 6).toNat else none)).eraseDups

/-- The C descriptors that an MCALL checks (R193). -/
def mcallDescs (f : XC) (x : Ctx) (s : State) : List Word :=
  let m := entryMask (s.routineOf x.core f.rtn.toNat)
  ((List.range 8).filter (fun k => m.testBit k)).map (s.mpOf x.core)

/-- Starts the fetch of every row of tile handle h (R197): each arrives at an open cycle inside its
formula bound, a walk having none, and is late past the promise; the staging store keeps no row of the handle's last fetch. -/
def fetchTile (x : Ctx) (s : State) (h : Nat) : List Act :=
  let t := SMap.get 0 s.ths (64 * x.core + h)
  let rows := (t.extractLsb' 88 5).toNat + 1
  let bound := s.cyc + 8 * 2 ^ (t.extractLsb' 93 3).toNat
  let key := fun (r : Nat) => 32 * (64 * x.core + h) + r
  let fn := s.fnOf x.core
  let va := fun (r : Nat) => (t.extractLsb' 0 64).toNat + r * (t.extractLsb' 64 24).toNat
  let arrival := fun (r : Nat) =>
    let va := va r
    let k := s.choice (20000 + 32 * h + r)
    match translateFast s x.core fn va false with
    | some (tr, extra) =>
      s.cyc + 1 + k % (formula s x.core va 2048 (s.choice (30000 + 32 * h + r)) tr + extra + stackExtra s tr (40000 + 32 * h + r))
    | none => s.cyc + 1 + k
  let parts := fun (r : Nat) => engineParts s x.core fn (va r) 2048 false
  (List.range 32).map (fun r => Act.stage (key r) (if r < rows then { va := va r, parts := parts r, hold := (s.seqOf x.q).hold, bound := bound } else {})) ++
  [walksFor s x.core fn (10000 + h) ((List.range rows).flatMap parts)] ++
  [.work (fun w => { w with
    agenda := w.agenda.filter (fun e => !(List.range 32).any (fun r => e.2 = .tileRowArrival x.core h r)) ++
      (List.range rows).map (fun r => (arrival r, Instr.tileRowArrival x.core h r)) })]

def opMcall (f : XC) : Op where
  rows := fun x s => (mcallDescs f x s).flatMap descNames
  cause := fun x s =>
    let e := s.routineOf x.core f.rtn.toNat
    let ds := mcallDescs f x s
    let bad := ds.any (fun d => 2 ≤ descLayout d || d.toNat / 2 ^ 20 ≠ 0) ||
      (entryCk e && (1 < ds.length || ds.any (fun d => descLayout d = 1)))
    lowestCause ((!e.getLsbD 12 || bad, cIllegalEncoding) :: xeCauses x s f.at16.toNat (entryDur e))
  acts := fun x s =>
    let e := s.routineOf x.core f.rtn.toNat
    acceptCommand x s (.mcall f.rtn.toNat) f.at16.toNat (entryDur e) ::
      ((handlesOf s x.core (entryFirst e)).flatMap (fetchTile x s) ++
       (if entryCk e then
          let waited := fun (k : CkRecord) => (s.mxeCommands x.core).any (fun y => y.compares = some k.cmd)
          [.core x.core (fun y => { y with chk := { y.chk with
             records := y.chk.records.filter waited ++
               [{ cmd := s.work.nextId, row0 := ((mcallDescs f x s).map descRow0).headD 0, nrow := ((mcallDescs f x s).map descRows).headD 0
                  fmt := s.fmt x.q }] } })]
        else []))

/-! The drains (R200, R201, R205). -/

/-- The output rows of a drain, or none where FMT.ACT does not allow it (R200). -/
def drainOut (fmt : Word) (nrow : Nat) : Option Nat :=
  if fmtAct fmt = 0 then some nrow else if fmtAct fmt = 2 && nrow % 4 = 0 then some (nrow / 4) else none

/-- The address of output row r of a drain. -/
def drainRowAddr (t : Word) (r : Nat) : Nat := (drainTarget t + r * 64 * (t.extractLsb' 50 14).toNat) % 2 ^ 64

/-- The triple's row of an MDRAIN.N: mp((mpt + 1) mod 8)[8:0] (R201). -/
def drainTriple (f : XD) (x : Ctx) (s : State) : Word := s.mpOf x.core ((f.mpt.toNat + 1) % 8)

/-- A drain of form 0 MDRAIN, 1 MDRAIN.AO, 2 MDRAIN.AU, 3 MDRAIN.N. -/
def drainCmd (f : XD) (form : Nat) : Op where
  rows := fun x s =>
    (List.range (f.nrow.toNat + 1)).map (fun i => f.row0.toNat + i) ++
      (if form = 3 && (drainTriple f x s).toNat ≤ 509 then let t := (drainTriple f x s).toNat; [t, t + 1, t + 2] else [])
  cause := fun x s =>
    let fmt := s.fmt x.q
    let nrow := f.nrow.toNat + 1
    let t := s.mpOf x.core f.mpt.toNat
    let tr := (drainTriple f x s).toNat
    let named := match (s.coreOf x.core).chk.records.getLast? with | some k => k.row0 = f.row0.toNat && k.nrow = nrow | none => false
    let nout := (drainOut fmt nrow).getD 0
    let ck := f.ck = 1 && form % 3 = 0
    let dur := 4 + nout + (if ck then nout + 1024 else 0)
    let illegal := (drainOut fmt nrow).isNone || (form = 3 && 509 < tr) || (f.ck = 1 && (fmtAct fmt ≠ 0 || !named))
    let window := (form = 1 || form = 2) && (t.extractLsb' 48 2).toNat ≠ 1
    let places := (List.range nout).foldl (fun a r => minCause a (classify s x.core (drainRowAddr t r) 2048 64 .engine)) none
    minCause (if window then some cAddress else places)
      (lowestCause ((illegal, cIllegalEncoding) :: xeCauses x s f.at16.toNat dur))
  acts := fun x s =>
    let fmt := s.fmt x.q
    let nrow := f.nrow.toNat + 1
    let nout := (drainOut fmt nrow).getD 0
    [acceptCommand x s (.drain form f.row0.toNat nrow (f.clamp = 1) (f.ck = 1) (s.mpOf x.core f.mpt.toNat) ((drainTriple f x s).toNat % 512))
      f.at16.toNat (4 + nout + (if f.ck = 1 && form % 3 = 0 then nout + 1024 else 0))
      (if f.ck = 1 then ((s.coreOf x.core).chk.records.getLast?).map CkRecord.cmd else none)]

def opMdrain (f : XD) : Op := drainCmd f 0
def opMdrainAo (f : XD) : Op := drainCmd f 1
def opMdrainAu (f : XD) : Op := drainCmd f 2
def opMdrainN (f : XD) : Op := drainCmd f 3

/-! MZERO, MUCLD, MBLD (R196, R198, R199). -/

def opMzero (f : XZ) : Op where
  rows := fun _ _ => (List.range (f.nrow.toNat + 1)).map (fun i => f.row0.toNat + i)
  cause := fun x s => lowestCause (xeCauses x s f.at16.toNat (1 + (f.nrow.toNat + 16) / 16))
  acts := fun x s => [acceptCommand x s (.zero f.row0.toNat (f.nrow.toNat + 1)) f.at16.toNat (1 + (f.nrow.toNat + 16) / 16)]

/-- The cause of an engine's source of n bytes: one that does not begin in the own scratchpad, or for MUCLD (whole) one that
leaves it, raises the address fault, the lowest code (R91 item 5, R198, R199, R232). -/
def engineSource (x : Ctx) (s : State) (a n align : Nat) (whole : Bool) : Option Nat :=
  minCause (classify s x.core a n align .engine)
    (if windowOf a = 4 && !(whole && windowOf ((a + n - 1) % 2 ^ 64) ≠ 4) then none else some cAddress)

def mucldCount (b : Word) : Nat := (b.extractLsb' 20 12).toNat + 1

def opMucld (f : XU) : Op where
  cause := fun x s =>
    let a := x.scalar s f.a.toNat 0
    let b := x.scalar s f.b.toNat 1
    let n := mucldCount b.val
    minCause (if a.poison || b.poison then none else engineSource x s a.val.toNat (8 * n) 8 true)
      (lowestCause ((!b.poison && (4096 < (b.val.extractLsb' 8 12).toNat + n || b.val.toNat / 2 ^ 57 ≠ 0), cIllegalEncoding) ::
        (a.poison || b.poison, cPoison) :: xeCauses x s f.at16.toNat (4 + (n + 31) / 32)))
  acts := fun x s =>
    let b := (x.scalar s f.b.toNat 1).val
    [acceptCommand x s (.mucld (x.scalar s f.a.toNat 0).val.toNat b) f.at16.toNat (4 + (mucldCount b + 31) / 32)]

def mbldCount (b : Word) : Nat := (b.extractLsb' 12 12).toNat + 1

def opMbld (f : XU) : Op where
  cause := fun x s =>
    let a := x.scalar s f.a.toNat 0
    let b := x.scalar s f.b.toNat 1
    let n := mbldCount b.val
    minCause (if a.poison || b.poison then none else engineSource x s a.val.toNat (512 * n) 64 false)
      (lowestCause ((!b.poison && (4096 < (b.val.extractLsb' 0 12).toNat + n || b.val.toNat / 2 ^ 24 ≠ 0), cIllegalEncoding) ::
        (a.poison || b.poison, cPoison) :: xeCauses x s f.at16.toNat (4 + (n + 1) / 2)))
  acts := fun x s =>
    let b := (x.scalar s f.b.toNat 1).val
    [acceptCommand x s (.mbld (x.scalar s f.a.toNat 0).val.toNat (b.extractLsb' 0 12).toNat (mbldCount b)) f.at16.toNat (4 + (mbldCount b + 1) / 2)]

/-! MPSET, THSET, MCHKS (R196, R197, R206). -/

def opMpset (f : VR) : Op where
  dests := keyMp (f.d.toNat % 8)
  cause := fun x s => firstCause [((x.scalar s (f.a.toNat % 64) 0).poison, cPoison)]
  acts := fun x s => [.mp x.core (f.d.toNat % 8) (x.scalar s (f.a.toNat % 64) 0).val]

def opThset (f : VR) : Op where
  dests := keyTh (f.d.toNat % 64)
  cause := fun x s =>
    let a := x.scalar s (f.a.toNat % 64) 0
    let b := x.scalar s (f.b.toNat % 64) 1
    let base := a.val.toNat
    let pitch := (b.val.extractLsb' 0 24).toNat
    let rows := (b.val.extractLsb' 24 5).toNat
    lowestCause [((!b.poison && (b.val.toNat / 2 ^ 32 ≠ 0 || pitch % 64 ≠ 0)) || (!a.poison && base % 64 ≠ 0), cIllegalEncoding), (a.poison || b.poison, cPoison),
      (windowOf base ≠ 1 || windowOf (base + rows * pitch + 2047) ≠ 1, cAddress)]
  acts := fun x s => [.th x.core (f.d.toNat % 64) ((x.scalar s (f.b.toNat % 64) 1).val ++ (x.scalar s (f.a.toNat % 64) 0).val)]

/-- The checksum status word (R206). -/
def Checksum.word (k : Checksum) : Word :=
  BitVec.ofNat 64 (k.ccnt % 2 ^ 16 + 2 ^ 16 * (k.ucnt % 2 ^ 16) + 2 ^ 32 * (k.crow % 2 ^ 9) + 2 ^ 41 * (k.ccol % 2 ^ 9) +
    (if k.lastu then 2 ^ 50 else 0))

def opMchks (f : VR) : Op where
  dests := keyScalar (f.d.toNat % 64)
  nres := 1
  acts := fun x s =>
    [scalarResult x s (f.d.toNat % 64) false (s.coreOf x.core).chk.word 1 true 0,
     .core x.core (fun y => { y with chk := { y.chk with ccnt := 0, ucnt := 0 } })]

end Sys2Proof.Machine
end

