-- ==== Sys2Proof/Machine/Vector.lean ====
section
/-! DEFINITION. The vector lane operations: floating, integer, logical, FX32, conversions and moves (07 R155 to R167). -/

namespace Sys2Proof.Machine

/-- What a lane operation reads: the execution mask, FMT, and its rows. -/
structure VIn where
  m : MReg
  fmt : Word
  a : Row
  b : Row
  d : Row

/-- Which rows a VR operation reads besides writing d. -/
structure VUse where
  a : Bool := true
  b : Bool := true
  d : Bool := false

/-- The rows a VR operation names (R25, R158): d once as its destination and once as a source. -/
def vrRows (f : VR) (u : VUse) (writesD : Bool) : List Nat :=
  (if writesD then [f.d.toNat] else []) ++ (if u.a then [f.a.toNat] else []) ++ (if u.b then [f.b.toNat] else []) ++ (if u.d then [f.d.toNat] else [])

/-- The operands of a VR operation in lanes of lw bits (R156). -/
def vrRead (f : VR) (u : VUse) (x : Ctx) (s : State) (lw : Nat) : VIn where
  m := x.mask s f.m.toNat 0
  fmt := s.fmt x.q
  a := if u.a then x.row s f.a.toNat lw 1 else {}
  b := if u.b then x.row s f.b.toNat lw 2 else {}
  d := if u.d then x.row s f.d.toNat lw 3 else {}

/-- A poisoned execution mask raises the poison-consumed trap (R156). -/
def maskCause (m : Nat) (x : Ctx) (s : State) : Option Nat := firstCause [((x.mask s m 0).poison, cPoison)]

/-- The outputs of the enabled lanes below n, in a row of total lanes (R155). -/
def enabledLanes (m : MaskBits) (n total : Nat) (g : Nat → LaneOut) : List (Option LaneOut) :=
  (List.range total).map (fun i => if i < n && m.getLsbD i then some (g i) else none)

/-- A lane operation of fixed width lw whose result is row d (R155, R156). -/
def laneOp (f : VR) (lw bound : Nat) (u : VUse) (nf : Bool) (g : VIn → Nat → LaneOut) : Op where
  wrows := [f.d.toNat]
  rows := fun _ _ => vrRows f u true
  nres := 1
  cause := fun x s => maskCause f.m.toNat x s
  acts := fun x s =>
    let v := vrRead f u x s lw
    let outs := enabledLanes v.m.val (laneCount lw) (laneCount lw) (g v)
    [result x s (.rows f.d.toNat) (.rows [writeLanes lw outs]) bound (outFlags nf outs)]

/-- A lane operation in the shape of FMT.ACT (R155); under ACT 2 only where the entry defines it. -/
def actOp (f : VR) (bound : Nat) (u : VUse) (xa : Bool) (g : Nat → VIn → Nat → LaneOut) : Op where
  wrows := [f.d.toNat]
  rows := fun _ _ => vrRows f u true
  nres := 1
  cause := fun x s =>
    lowestCause [(fmtAct (s.fmt x.q) = 2 && !xa, cIllegalEncoding), ((x.mask s f.m.toNat 0).poison, cPoison)]
  acts := fun x s =>
    let lw := actWidth (fmtAct (s.fmt x.q))
    let v := vrRead f u x s lw
    let outs := enabledLanes v.m.val (laneCount lw) (laneCount lw) (g lw v)
    [result x s (.rows f.d.toNat) (.rows [writeLanes lw outs]) bound {}]

/-- The poison of the lanes i of the rows a use reads. -/
def VIn.poison (v : VIn) (u : VUse) (lw i : Nat) : Bool :=
  (u.a && v.a.lanePoison lw i) || (u.b && v.b.lanePoison lw i) || (u.d && v.d.lanePoison lw i)

/-- A floating operation of a and b (R159). -/
def fOp2 (fm : FloatFormat) (f : VR) (bound : Nat) (g : Rounding → Nat → Nat → Flagged) : Op :=
  laneOp f fm.width bound {} (f.nf = 1) fun v i =>
    .of (v.poison {} fm.width i) (g (rounding v.fmt f.rm.toNat) (v.a.lane fm.width i) (v.b.lane fm.width i))

/-- A floating operation of a, b and d (R159). -/
def fOp3 (fm : FloatFormat) (f : VR) (bound : Nat) (g : Rounding → Nat → Nat → Nat → Flagged) : Op :=
  laneOp f fm.width bound { d := true } (f.nf = 1) fun v i =>
    .of (v.poison { d := true } fm.width i)
      (g (rounding v.fmt f.rm.toNat) (v.a.lane fm.width i) (v.b.lane fm.width i) (v.d.lane fm.width i))

/-- A bit operation on the lanes of a (R41, R159). -/
def fOp1 (fm : FloatFormat) (f : VR) (g : Nat → Nat) : Op :=
  laneOp f fm.width 2 { b := false } true fun v i =>
    .of (v.poison { b := false } fm.width i) ⟨g (v.a.lane fm.width i), 0⟩

/-- The mask a compare writes (R20, R159): the bit of each enabled lane, zero for a poisoned one; bits kept below the lane
count; zero above it; poisoned where an enabled lane's operands are (log 71). -/
def maskResult (old : MReg) (L : Nat) (en : MaskBits) (bit poisoned : Nat → Bool) : MReg :=
  let lanes := List.range L
  let v := packBits (lanes.map (fun i => if en.getLsbD i then bit i && !poisoned i else old.val.getLsbD i))
  ⟨BitVec.ofNat _ v, lanes.any (fun i => en.getLsbD i && poisoned i)⟩

/-- A comparison of lanes into a mask register (R159, R160). -/
def cmpOp (f : VR) (lw : Nat) (nf : Bool) (g : Nat → Nat → Bool × LaneFlags) : Op where
  dests := keyMask (f.d.toNat % 16)
  rows := fun _ _ => [f.a.toNat, f.b.toNat]
  nres := 1
  cause := fun x s => maskCause f.m.toNat x s
  acts := fun x s =>
    let v := vrRead f {} x s lw
    let L := laneCount lw
    let old := x.mask s (f.d.toNat % 16) 4
    let r := fun i => g (v.a.lane lw i) (v.b.lane lw i)
    let bad := fun i => v.poison {} lw i
    let m := maskResult old L v.m.val (fun i => (r i).1) bad
    let fl := (List.range L).map (fun i => if v.m.val.getLsbD i && !bad i then (r i).2 else 0)
    [result x s (.mask (f.d.toNat % 16)) (.mask m.val m.poison) 2 (flagSet nf fl)]

def opVaddF32 (f : VR) : Op := fOp2 fp32 f 4 (fadd fp32)
def opVaddBf16 (f : VR) : Op := fOp2 bf16 f 4 (fadd bf16)
def opVaddF16 (f : VR) : Op := fOp2 fp16 f 4 (fadd fp16)
def opVsubF32 (f : VR) : Op := fOp2 fp32 f 4 (fsub fp32)
def opVsubBf16 (f : VR) : Op := fOp2 bf16 f 4 (fsub bf16)
def opVsubF16 (f : VR) : Op := fOp2 fp16 f 4 (fsub fp16)
def opVmulF32 (f : VR) : Op := fOp2 fp32 f 4 (fmul fp32)
def opVmulBf16 (f : VR) : Op := fOp2 bf16 f 4 (fmul bf16)
def opVmulF16 (f : VR) : Op := fOp2 fp16 f 4 (fmul fp16)
def opVfmaF32 (f : VR) : Op := fOp3 fp32 f 4 (ffma fp32)
def opVfmaBf16 (f : VR) : Op := fOp3 bf16 f 4 (ffma bf16)
def opVfmaF16 (f : VR) : Op := fOp3 fp16 f 4 (ffma fp16)
def opVfmsF32 (f : VR) : Op := fOp3 fp32 f 4 (ffms fp32)
def opVfmsBf16 (f : VR) : Op := fOp3 bf16 f 4 (ffms bf16)
def opVfmsF16 (f : VR) : Op := fOp3 fp16 f 4 (ffms fp16)
def opVminF32 (f : VR) : Op := fOp2 fp32 f 2 (fun _ => fminmax fp32 false)
def opVminBf16 (f : VR) : Op := fOp2 bf16 f 2 (fun _ => fminmax bf16 false)
def opVminF16 (f : VR) : Op := fOp2 fp16 f 2 (fun _ => fminmax fp16 false)
def opVmaxF32 (f : VR) : Op := fOp2 fp32 f 2 (fun _ => fminmax fp32 true)
def opVmaxBf16 (f : VR) : Op := fOp2 bf16 f 2 (fun _ => fminmax bf16 true)
def opVmaxF16 (f : VR) : Op := fOp2 fp16 f 2 (fun _ => fminmax fp16 true)

def clearSign (fm : FloatFormat) (a : Nat) : Nat := a % fm.signBit
def invertSign (fm : FloatFormat) (a : Nat) : Nat := if a < fm.signBit then a + fm.signBit else a - fm.signBit

def opVabsF32 (f : VR) : Op := fOp1 fp32 f (clearSign fp32)
def opVabsBf16 (f : VR) : Op := fOp1 bf16 f (clearSign bf16)
def opVabsF16 (f : VR) : Op := fOp1 fp16 f (clearSign fp16)
def opVnegF32 (f : VR) : Op := fOp1 fp32 f (invertSign fp32)
def opVnegBf16 (f : VR) : Op := fOp1 bf16 f (invertSign bf16)
def opVnegF16 (f : VR) : Op := fOp1 fp16 f (invertSign fp16)
def opVcmpF32 (f : VR) : Op := cmpOp f 32 (f.nf = 1) (fcond fp32 f.aux.toNat)
def opVcmpBf16 (f : VR) : Op := cmpOp f 16 (f.nf = 1) (fcond bf16 f.aux.toNat)
def opVcmpF16 (f : VR) : Op := cmpOp f 16 (f.nf = 1) (fcond fp16 f.aux.toNat)
def opVclampF32 (f : VR) : Op := fOp3 fp32 f 2 (fun _ a b d => fclamp fp32 d a b)
def opVclampBf16 (f : VR) : Op := fOp3 bf16 f 2 (fun _ a b d => fclamp bf16 d a b)
def opVclampF16 (f : VR) : Op := fOp3 fp16 f 2 (fun _ a b d => fclamp fp16 d a b)

/-! Integer, logical and shift operations (R160, R161). -/

/-- An integer operation on lanes of lw bits, bound 2, no flag. -/
def iOp (f : VR) (lw : Nat) (g : Nat → Nat → Nat) : Op :=
  laneOp f lw 2 {} true fun v i => .of (v.poison {} lw i) ⟨g (v.a.lane lw i) (v.b.lane lw i) % 2 ^ lw, 0⟩

def isub (lw a b : Nat) : Nat := a + (2 ^ lw - b)
def imin (lw a b : Nat) : Nat := if (BitVec.ofNat lw a).toInt ≤ (BitVec.ofNat lw b).toInt then a else b
def imax (lw a b : Nat) : Nat := if (BitVec.ofNat lw a).toInt ≤ (BitVec.ofNat lw b).toInt then b else a

def opViaddI32 (f : VR) : Op := iOp f 32 (fun a b => a + b)
def opViaddI16 (f : VR) : Op := iOp f 16 (fun a b => a + b)
def opVisubI32 (f : VR) : Op := iOp f 32 (isub 32)
def opVisubI16 (f : VR) : Op := iOp f 16 (isub 16)
def opVimulI32 (f : VR) : Op := iOp f 32 (fun a b => a * b)
def opVimulI16 (f : VR) : Op := iOp f 16 (fun a b => a * b)
def opViminI32 (f : VR) : Op := iOp f 32 (imin 32)
def opViminI16 (f : VR) : Op := iOp f 16 (imin 16)
def opVimaxI32 (f : VR) : Op := iOp f 32 (imax 32)
def opVimaxI16 (f : VR) : Op := iOp f 16 (imax 16)
def opVicmpI32 (f : VR) : Op := cmpOp f 32 true (fun a b => (icond 32 f.aux.toNat a b, 0))
def opVicmpI16 (f : VR) : Op := cmpOp f 16 true (fun a b => (icond 16 f.aux.toNat a b, 0))

/-- A bitwise operation in the shape of FMT.ACT (R161). -/
def bitOp (f : VR) (g : Nat → Nat → Nat) : Op :=
  actOp f 2 {} true fun lw v i => .of (v.poison {} lw i) ⟨g (v.a.lane lw i) (v.b.lane lw i), 0⟩

/-- A shift in the shape of FMT.ACT by the low 5 or 4 bits of the lane of b (R161). -/
def shiftOp (f : VR) (g : Nat → Nat → Nat → Nat) : Op :=
  actOp f 2 {} false fun lw v i =>
    .of (v.poison {} lw i) ⟨g lw (v.a.lane lw i) (v.b.lane lw i % lw) % 2 ^ lw, 0⟩

def opVand (f : VR) : Op := bitOp f (fun a b => a &&& b)
def opVor (f : VR) : Op := bitOp f (fun a b => a ||| b)
def opVxor (f : VR) : Op := bitOp f (fun a b => a ^^^ b)
def opVshl (f : VR) : Op := shiftOp f (fun _ a n => a * 2 ^ n)
def opVshr (f : VR) : Op := shiftOp f (fun _ a n => a / 2 ^ n)
def opVsra (f : VR) : Op := shiftOp f (fun lw a n => ((BitVec.ofNat lw a).sshiftRight n).toNat)

/-! FX32 and conversions (R162 to R165). -/

def fxOp (f : VR) (sub : Bool) : Op :=
  laneOp f 32 2 {} (f.nf = 1) fun v i => .of (v.poison {} 32 i) (fxAdd sub (v.a.lane 32 i) (v.b.lane 32 i))

def opVfxadd (f : VR) : Op := fxOp f false
def opVfxsub (f : VR) : Op := fxOp f true

/-- A conversion of 32-bit lanes to 32-bit lanes (R163, R164), bound 3. -/
def cvtOp (f : VR) (g : Rounding → Nat → Flagged) : Op :=
  laneOp f 32 3 { b := false } (f.nf = 1) fun v i =>
    .of (v.poison { b := false } 32 i) (g (rounding v.fmt f.rm.toNat) (v.a.lane 32 i))

def opVqfx (f : VR) : Op := cvtOp f (fun _ => toFx)
def opVfxf (f : VR) : Op := cvtOp f ofFx

/-- The 16-bit lane outputs of a narrowing operation: pair i stands at lane 512h + i (R164). -/
def inHalf (h : Nat) (outs : List (Option LaneOut)) : List (Option LaneOut) :=
  List.replicate (512 * h) none ++ outs.take 512 ++ List.replicate (512 * (1 - h)) none

/-- The half of a conversion (R164). -/
def vrHalf (f : VR) : Nat := f.aux.toNat / 16

/-- A narrowing conversion (R164). -/
def narrowOp (f : VR) (g : Rounding → Nat → Flagged) : Op where
  wrows := [f.d.toNat]
  rows := fun _ _ => [f.d.toNat, f.a.toNat]
  nres := 1
  cause := fun x s => maskCause f.m.toNat x s
  acts := fun x s =>
    let v := vrRead f { b := false } x s 32
    let outs := enabledLanes v.m.val 512 512 fun i =>
      .of (v.a.lanePoison 32 i) (g (rounding v.fmt f.rm.toNat) (v.a.lane 32 i))
    [result x s (.rows f.d.toNat) (.rows [writeLanes 16 (inHalf (vrHalf f) outs)]) 3 (outFlags (f.nf = 1) outs)]

/-- A widening conversion (R164). -/
def widenOp (f : VR) (g : Rounding → Nat → Flagged) : Op where
  wrows := [f.d.toNat]
  rows := fun _ _ => [f.d.toNat, f.a.toNat]
  nres := 1
  cause := fun x s => maskCause f.m.toNat x s
  acts := fun x s =>
    let v := vrRead f { b := false } x s 16
    let outs := enabledLanes v.m.val 512 512 fun i =>
      .of (v.a.lanePoison 16 (512 * vrHalf f + i)) (g (rounding v.fmt f.rm.toNat) (v.a.lane 16 (512 * vrHalf f + i)))
    [result x s (.rows f.d.toNat) (.rows [writeLanes 32 outs]) 3 (outFlags (f.nf = 1) outs)]

def opVcvtBf16F32 (f : VR) : Op := narrowOp f (fun rm => fconvert fp32 bf16 rm)
def opVcvtF16F32 (f : VR) : Op := narrowOp f (fun rm => fconvert fp32 fp16 rm)
def opVcvtF32Bf16 (f : VR) : Op := widenOp f (fun rm => fconvert bf16 fp32 rm)
def opVcvtF32F16 (f : VR) : Op := widenOp f (fun rm => fconvert fp16 fp32 rm)
def opVcvtI32F32 (f : VR) : Op := cvtOp f (fun rm => toInt fp32 rm (-2 ^ 31) (2 ^ 31 - 1) 32)
def opVcvtF32I32 (f : VR) : Op := cvtOp f (fun rm a => ofInt fp32 rm (BitVec.ofNat 32 a).toInt 0)
def opVcvtI16F32 (f : VR) : Op := narrowOp f (fun rm => toInt fp32 rm (-2 ^ 15) (2 ^ 15 - 1) 16)
def opVcvtF32I16 (f : VR) : Op := widenOp f (fun rm a => ofInt fp32 rm (BitVec.ofNat 16 a).toInt 0)

/-- VSPLIT3 writes three rows (R165); its rows are d, d+1 and d+2. -/
def opVsplit3 (f : VR) : Op where
  wrows := [f.d.toNat, f.d.toNat + 1, f.d.toNat + 2]
  rows := fun _ _ => [f.d.toNat, f.d.toNat + 1, f.d.toNat + 2, f.a.toNat]
  nres := 1
  cause := fun x s => maskCause f.m.toNat x s
  acts := fun x s =>
    let v := vrRead f { b := false } x s 32
    let part := fun (g : Nat × Nat × Nat × LaneFlags → Nat) =>
      enabledLanes v.m.val 512 512 fun i =>
        let r := split3 (v.a.lane 32 i)
        .of (v.a.lanePoison 32 i) ⟨g r, r.2.2.2⟩
    let outs := part (fun r => r.1)
    let w := fun o => writeLanes 16 (inHalf (vrHalf f) o)
    [result x s (.rows f.d.toNat) (.rows [w outs, w (part (fun r => r.2.1)), w (part (fun r => r.2.2.1))]) 3
      (outFlags (f.nf = 1) outs)]

/-! Moves (R166, R167). -/

/-- Lane i of a row copied with its marks and poison (R166). -/
def copyLane (lw : Nat) (r : Row) (i : Nat) : LaneOut :=
  let z := r.xa i
  let pz := r.lanePoison lw i
  { bits := if pz then 0 else r.lane lw i, poison := pz, p := lw = 128 && z.p, q := lw = 128 && z.q }

/-- A copied lane that a poisoned scalar or selector poisons (R156); its marks are those of the lane copied (DESIGN CHOICE, log 75). -/
def LaneOut.taint (o : LaneOut) (p : Bool) : LaneOut := if p then { o with bits := 0, poison := true } else o

def opVmov (f : VR) : Op := actOp f 2 { b := false } true fun lw v i => copyLane lw v.a i

/-- An operation of format VI (R80, R166): 32-bit lanes whatever FMT holds. -/
def viOp (f : VI) (g : Nat → Nat) : Op where
  wrows := [f.d.toNat]
  rows := fun _ _ => [f.d.toNat]
  nres := 1
  cause := fun x s => maskCause f.m.toNat x s
  acts := fun x s =>
    let m := x.mask s f.m.toNat 0
    let outs := enabledLanes m.val 512 512 fun i => { bits := g i % 2 ^ 32 }
    [result x s (.rows f.d.toNat) (.rows [writeLanes 32 outs]) 2 {}]

def opVli (f : VI) : Op := viOp f (fun _ => (f.imm23.signExtend 32).toNat)
def opVidx (f : VI) : Op := viOp f (fun i => i + (f.imm23.signExtend 32).toNat)

/-- A move in the shape of FMT.ACT that also reads a scalar or a mask; g gets that value and its poison. -/
def moveOp (f : VR) (bound : Nat) (u : VUse) (src : Ctx → State → Word × MaskBits × Bool)
    (g : Nat → VIn → Word → MaskBits → Nat → LaneOut) : Op where
  wrows := [f.d.toNat]
  rows := fun _ _ => vrRows f u true
  nres := 1
  cause := fun x s => maskCause f.m.toNat x s
  acts := fun x s =>
    let lw := actWidth (fmtAct (s.fmt x.q))
    let v := vrRead f u x s lw
    let (w, k, p) := src x s
    let outs := enabledLanes v.m.val (laneCount lw) (laneCount lw) (fun i => (g lw v w k i).taint p)
    [result x s (.rows f.d.toNat) (.rows [writeLanes lw outs]) bound {}]

/-- The scalar named by a 9-bit field (R158). -/
def fieldScalar (x : Ctx) (s : State) (r i : Nat) : Word × MaskBits × Bool :=
  let v := x.scalar s (r % 64) i
  (v.val, 0, v.poison)

def opVsel (f : VR) : Op :=
  moveOp f 2 {} (fun x s => let k := x.mask s (f.aux.toNat % 16) 4; (0, k.val, k.poison))
    (fun lw v _ k i => if k.getLsbD i then copyLane lw v.a i else copyLane lw v.b i)

def opVbcastScalar (f : VR) : Op :=
  moveOp f 4 { a := false, b := false } (fun x s => fieldScalar x s f.a.toNat 4)
    (fun lw _ w _ _ => { bits := if lw = 128 then (w.signExtend 128).toNat else w.toNat % 2 ^ lw })

def opVbcastLane (f : VR) : Op :=
  moveOp f 4 { b := false } (fun x s => fieldScalar x s f.b.toNat 4)
    (fun lw v w _ _ => copyLane lw v.a (w.toNat % laneCount lw))

/-- VEXTR reads one lane into a scalar (R167); it ignores the mask. -/
def opVextr (f : VR) : Op where
  dests := keyScalar (f.d.toNat % 64)
  rows := fun _ _ => [f.a.toNat]
  nres := 1
  cause := fun x s => firstCause [(fmtAct (s.fmt x.q) ≠ 2 && f.aux.toNat % 2 = 1, cIllegalEncoding)]
  acts := fun x s =>
    let lw := actWidth (fmtAct (s.fmt x.q))
    let a := x.row s f.a.toNat lw 1
    let k := x.scalar s (f.b.toNat % 64) 4
    let i := k.val.toNat % laneCount lw
    let v := if lw = 128 then a.lane lw i / 2 ^ (64 * (f.aux.toNat % 2)) else a.lane lw i
    [scalarResult x s (f.d.toNat % 64) (k.poison || a.lanePoison lw i) (BitVec.ofNat 64 v) 4 true 0]

def opVslide (f : VR) : Op :=
  moveOp f 4 { b := false } (fun x s => fieldScalar x s f.b.toNat 4)
    (fun lw v w _ i =>
      let j := (i : Int) + w.toInt
      if 0 ≤ j && j < laneCount lw then copyLane lw v.a j.toNat else { bits := 0 })

def opVperm (f : VR) : Op :=
  moveOp f 4 {} (fun _ _ => (0, 0, false))
    (fun lw v _ _ i => (copyLane lw v.a (v.b.lane lw i % 2 ^ 64 % laneCount lw)).taint (v.b.lanePoison lw i))

end Sys2Proof.Machine
end

