-- ==== Sys2Proof/Machine/Reduce.lean ====
section
/-! DEFINITION. Lane reductions, statistics triples, exact lanes, masks, glints and the counter generator (07 R168 to R177). -/

namespace Sys2Proof.Machine

/-- The enabled lanes of a row as patterns, none where not enabled. -/
def presentLanes (m : MaskBits) (r : Row) (lw : Nat) : List (Option Nat) :=
  (List.range (laneCount lw)).map (fun i => if m.getLsbD i then some (r.lane lw i) else none)

/-- Whether an enabled lane is poisoned (R156). -/
def anyPoison (m : MaskBits) (r : Row) (lw : Nat) : Bool :=
  (List.range (laneCount lw)).any (fun i => m.getLsbD i && r.lanePoison lw i)

/-- A whole row: lane 0 (and 1) given, every other lane zero. -/
def headLanes (lw : Nat) (hd : List LaneOut) : RowWrite :=
  writeLanes lw ((hd ++ List.replicate (laneCount lw - hd.length) ({ bits := 0 } : LaneOut)).map some)

/-- A horizontal operation on row a whose result is row d (R157). -/
def horizontal (f : VR) (bound : Nat) (lw : Nat) (g : VIn → RowWrite × FlagSet) : Op where
  wrows := [f.d.toNat]
  rows := fun _ _ => [f.d.toNat, f.a.toNat]
  nres := 1
  cause := fun x s => maskCause f.m.toNat x s
  acts := fun x s =>
    let v := vrRead f { b := false } x s lw
    let r := g v
    [result x s (.rows f.d.toNat) (.rows [r.1]) bound (if f.nf = 1 then {} else r.2)]

/-- Two nodes of the VSUMO tree: an addition where both are present (R168). -/
def sumNode (rm : Rounding) (a b : Option Flagged) : Option Flagged :=
  match a, b with
  | some x, some y => let r := fadd fp32 rm x.bits y.bits; some ⟨r.bits, x.flags ||| y.flags ||| r.flags⟩
  | some x, none => some x
  | none, b => b

def opVsumo (f : VR) : Op :=
  horizontal f 12 32 fun v =>
    let leaves := (presentLanes v.m.val v.a 32).map (fun o => o.map (fun b => (⟨b, 0⟩ : Flagged)))
    let top := ((tree (sumNode (rounding v.fmt f.rm.toNat)) 9 leaves).headD none).getD ⟨0, 0⟩
    if anyPoison v.m.val v.a 32 then (headLanes 32 [.poisoned], {})
    else (headLanes 32 [({ bits := top.bits } : LaneOut)], laneZeroFlags false top.flags)

/-- The exact sum of the enabled lanes, and the flags of their conversions (R169). -/
def exactSum (v : VIn) : Xa × List LaneFlags :=
  (List.range 512).foldr (fun i acc =>
    if v.m.val.getLsbD i then
      let r := xaOfF32 (fmtAnchor v.fmt) (v.a.lane 32 i)
      (r.1.add acc.1, (if v.a.lanePoison 32 i then 0 else r.2) :: acc.2)
    else (acc.1, 0 :: acc.2)) ({}, [])

def opVsumxXa (f : VR) : Op :=
  horizontal f 12 32 fun v =>
    let r := exactSum v
    let hd : LaneOut :=
      if anyPoison v.m.val v.a 32 then .poisoned else { bits := r.1.n.toNat, p := r.1.p, q := r.1.q }
    (headLanes 128 [hd], flagSet false r.2)

def opVsumxF32 (f : VR) : Op :=
  horizontal f 12 32 fun v =>
    let r := exactSum v
    let bad := anyPoison v.m.val v.a 32
    let t := r.1.toF32 (fmtAnchor v.fmt) (rounding v.fmt f.rm.toNat)
    let fl0 := if bad then 0 else t.flags
    (headLanes 32 [if bad then .poisoned else { bits := t.bits }],
      flagSet false (r.2.mapIdx (fun i x => if i = 0 then x ||| fl0 else x)))

/-- The extreme lane of a list of lane numbers and keys: the first with the greatest key. -/
def extreme (l : List (Nat × Int)) : Option (Nat × Int) :=
  l.foldl (fun a e => match a with | none => some e | some b => if b.2 < e.2 then some e else a) none

/-- VMAXR and VMINR (R170): aux[1:0] the type, aux[2] the index. -/
def maxOp (f : VR) (wantMax : Bool) : Op :=
  let ty := f.aux.toNat % 4
  let lw := if ty < 2 then 32 else 16
  let isFloat := ty % 2 = 0
  let fm := if ty = 0 then fp32 else bf16
  horizontal f 8 lw fun v =>
    let lanes := (List.range (laneCount lw)).filter (fun i => v.m.val.getLsbD i)
    let val := fun i => v.a.lane lw i
    let nan := if isFloat then lanes.find? (fun i => (fm.value (val i)).isNaN) else none
    let key := fun i => let k := if isFloat then fm.key (val i) else (BitVec.ofNat lw (val i)).toInt
                        if wantMax then k else -k
    let idx := fun (i : Nat) => if f.aux.toNat / 4 % 2 = 1 then [({ bits := i } : LaneOut)] else []
    if lanes.any (fun i => v.a.lanePoison lw i) then
      (headLanes lw (.poisoned :: (if f.aux.toNat / 4 % 2 = 1 then [.poisoned] else [])), {})
    else
      match nan with
      | some i =>
        let sig := lanes.any (fun j => (fm.value (val j)).isSignalling && j = i)
        (headLanes lw ({ bits := fm.nan } :: idx i), laneZeroFlags false (if sig then flIV else 0))
      | none =>
        match extreme (lanes.map (fun i => (i, key i))) with
        | some e => (headLanes lw ({ bits := val e.1 } :: idx e.1), {})
        | none =>
          let ends := if isFloat then fm.inf wantMax else if wantMax then 2 ^ (lw - 1) else 2 ^ (lw - 1) - 1
          (headLanes lw ({ bits := ends } :: idx (2 ^ lw - 1)), {})

def opVmaxr (f : VR) : Op := maxOp f true
def opVminr (f : VR) : Op := maxOp f false

/-! Statistics (R171, R172). -/

/-- The three rows of a triple as the slot reads them. -/
def tripleRows (x : Ctx) (s : State) (t i : Nat) : Row × Row × Row :=
  (x.row s t 32 i, x.row s (t + 1) 32 (i + 1), x.row s (t + 2) 32 (i + 2))

def tripleLane (r : Row × Row × Row) (i : Nat) : Triple := ⟨r.1.lane 32 i, r.2.1.lane 32 i, r.2.2.lane 32 i⟩
def triplePoison (r : Row × Row × Row) (i : Nat) : Bool :=
  r.1.lanePoison 32 i || r.2.1.lanePoison 32 i || r.2.2.lanePoison 32 i

/-- The writes of three rows from triples; none for a lane that is not written. -/
def writeTriples (outs : List (Option (Option Triple))) : List RowWrite :=
  let part := fun (g : Triple → Nat) =>
    writeLanes 32 (outs.map (fun o => o.map (fun t => match t with | some t => { bits := g t } | none => .poisoned)))
  [part Triple.w, part Triple.mean, part Triple.m2]

def tripleNames (t : Nat) : List Nat := [t, t + 1, t + 2]

/-- A statistics operation with triple d as its result, lane by lane. -/
def statOp (f : VR) (bound : Nat) (named : List Nat) (g : Ctx → State → Nat → Bool × TripleF) : Op where
  wrows := tripleNames f.d.toNat
  rows := fun _ _ => tripleNames f.d.toNat ++ named
  nres := 1
  cause := fun x s => maskCause f.m.toNat x s
  acts := fun x s =>
    let m := x.mask s f.m.toNat 0
    let h := g x s
    let rs := (List.range 512).map (fun i => if m.val.getLsbD i then some (h i) else none)
    let outs := rs.map (fun o => o.map (fun r => if r.1 then none else some r.2.t))
    let fl := rs.map (fun o => match o with | some (false, t) => t.flags | _ => 0)
    [result x s (.rows f.d.toNat) (.rows (writeTriples outs)) bound (flagSet (f.nf = 1) fl)]

def opVstatu (f : VR) : Op :=
  statOp f 6 (f.a.toNat :: tripleNames f.d.toNat) fun x s =>
    let d := tripleRows x s f.d.toNat 1
    let a := x.row s f.a.toNat 32 4
    fun i => (triplePoison d i || a.lanePoison 32 i, (tripleLane d i).update (a.lane 32 i) none)

def opVstatw (f : VR) : Op :=
  statOp f 6 ([f.a.toNat, f.b.toNat] ++ tripleNames f.d.toNat) fun x s =>
    let d := tripleRows x s f.d.toNat 1
    let a := x.row s f.a.toNat 32 4
    let b := x.row s f.b.toNat 32 5
    fun i => (triplePoison d i || a.lanePoison 32 i || b.lanePoison 32 i,
      (tripleLane d i).update (a.lane 32 i) (some (b.lane 32 i)))

def opVstatm (f : VR) : Op :=
  statOp f 8 (tripleNames f.a.toNat ++ tripleNames f.b.toNat) fun x s =>
    let a := tripleRows x s f.a.toNat 1
    let b := tripleRows x s f.b.toNat 4
    fun i => (triplePoison a i || triplePoison b i, (tripleLane a i).merge (tripleLane b i))

/-- Two nodes of the merge tree of R66, gathering flags. -/
def mergeNode (a b : TripleF) : TripleF :=
  let r := a.t.merge b.t
  ⟨r.t, a.flags ||| b.flags ||| r.flags⟩

def opVstath (f : VR) : Op where
  wrows := tripleNames f.d.toNat
  rows := fun _ _ => tripleNames f.d.toNat ++ tripleNames f.a.toNat
  nres := 1
  cause := fun x s => maskCause f.m.toNat x s
  acts := fun x s =>
    let m := (x.mask s f.m.toNat 0).val
    let a := tripleRows x s f.a.toNat 1
    let leaves := (List.range 512).map (fun i => (⟨if m.getLsbD i then tripleLane a i else .empty, 0⟩ : TripleF))
    let top := (tree mergeNode 9 leaves).headD ⟨.empty, 0⟩
    let bad := (List.range 512).any (fun i => m.getLsbD i && triplePoison a i)
    let outs := some (if bad then none else some top.t) :: List.replicate 511 (some (some Triple.empty))
    [result x s (.rows f.d.toNat) (.rows (writeTriples outs)) 12 (laneZeroFlags (f.nf = 1) (if bad then 0 else top.flags))]

def opVstateClr (f : VR) : Op := statOp f 6 [] fun _ _ _ => (false, ⟨.empty, 0⟩)

/-- A value derived from each enabled lane of triple a (R172): +0 with IV for an empty lane, the default NaN with IV for an
invalid one. -/
def stateOp (f : VR) (g : Word → Triple → Chain) : Op where
  wrows := [f.d.toNat]
  rows := fun _ _ => f.d.toNat :: tripleNames f.a.toNat
  nres := 1
  cause := fun x s => maskCause f.m.toNat x s
  acts := fun x s =>
    let m := (x.mask s f.m.toNat 0).val
    let a := tripleRows x s f.a.toNat 1
    let outs := enabledLanes m 512 512 fun i =>
      let t := tripleLane a i
      let r : Flagged :=
        if t.isInvalid then ⟨fp32.nan, flIV⟩ else if t.isEmpty then ⟨0, flIV⟩
        else let c := g (s.fmt x.q) t; ⟨c.bits, c.flags⟩
      .of (triplePoison a i) r
    [result x s (.rows f.d.toNat) (.rows [writeLanes 32 outs]) 6 (outFlags (f.nf = 1) outs)]

def opVstateVar (f : VR) : Op := stateOp f (fun _ t => (Chain.ofBits t.m2).div (.ofBits t.w))
def opVstateSvar (f : VR) : Op :=
  stateOp f (fun _ t => (Chain.ofBits t.m2).div ((Chain.ofBits t.w).sub (.ofBits 0x3F800000)))
def opVstateRstd (f : VR) : Op := stateOp f (fun fmt t => rstd t (fmtEps fmt))

/-! Exact accumulator lanes (R173). -/

def xaLane (poison : Bool) (z : Xa) (fl : LaneFlags) : LaneOut :=
  if poison then .poisoned else { bits := z.n.toNat, p := z.p, q := z.q, flags := fl }

def opVxadd (f : VR) : Op :=
  laneOp f 128 2 {} true fun v i => xaLane (v.poison {} 128 i) ((v.a.xa i).add (v.b.xa i)) 0

/-- The quarter of a row that VXCVT pairs with XA128 lanes. -/
def vrQuarter (f : VR) : Nat := f.aux.toNat / 2 % 4

def opVxcvtXaF32 (f : VR) : Op where
  wrows := [f.d.toNat]
  rows := fun _ _ => [f.d.toNat, f.a.toNat]
  nres := 1
  cause := fun x s => maskCause f.m.toNat x s
  acts := fun x s =>
    let v := vrRead f { b := false } x s 32
    let outs := enabledLanes v.m.val 128 128 fun i =>
      let r := xaOfF32 (fmtAnchor v.fmt) (v.a.lane 32 (128 * vrQuarter f + i))
      xaLane (v.a.lanePoison 32 (128 * vrQuarter f + i)) r.1 r.2
    [result x s (.rows f.d.toNat) (.rows [writeLanes 128 outs]) 3 (outFlags (f.nf = 1) outs)]

def opVxcvtF32Xa (f : VR) : Op where
  wrows := [f.d.toNat]
  rows := fun _ _ => [f.d.toNat, f.a.toNat]
  nres := 1
  cause := fun x s => maskCause f.m.toNat x s
  acts := fun x s =>
    let v := vrRead f { b := false } x s 128
    let outs := enabledLanes v.m.val 128 128 fun i =>
      .of (v.a.lanePoison 128 i) ((v.a.xa i).toF32 (fmtAnchor v.fmt) (rounding v.fmt f.rm.toNat))
    let pad := fun n => List.replicate (128 * n) none
    [result x s (.rows f.d.toNat)
      (.rows [writeLanes 32 (pad (vrQuarter f) ++ outs ++ pad (3 - vrQuarter f))]) 3 (outFlags (f.nf = 1) outs)]

/-! Mask operations (R174). -/

/-- A bitwise operation on masks a and b under m, of which each enabled bit is written; poison(d) where a source is poisoned (R107; log 71). -/
def maskOp (f : VR) (useB : Bool) (g : MaskBits → MaskBits → MaskBits) : Op where
  dests := keyMask (f.d.toNat % 16)
  nres := 1
  cause := fun x s => maskCause f.m.toNat x s
  acts := fun x s =>
    let m := (x.mask s f.m.toNat 0).val
    let a := x.mask s (f.a.toNat % 16) 1
    let b := if useB then x.mask s (f.b.toNat % 16) 2 else {}
    let old := x.mask s (f.d.toNat % 16) 3
    let v := (g a.val b.val &&& m) ||| (old.val &&& ~~~m)
    let p := a.poison || b.poison
    [result x s (.mask (f.d.toNat % 16)) (.mask (if p then 0 else v) p) 2 {}]

def opMand (f : VR) : Op := maskOp f true (fun a b => a &&& b)
def opMor (f : VR) : Op := maskOp f true (fun a b => a ||| b)
def opMxor (f : VR) : Op := maskOp f true (fun a b => a ^^^ b)
def opMnot (f : VR) : Op := maskOp f false (fun a _ => ~~~a)

/-- A count over (a AND m) below the lane count of FMT.ACT, into a scalar. -/
def maskCount (f : VR) (g : Nat → Nat → Word) : Op where
  dests := keyScalar (f.d.toNat % 64)
  nres := 1
  cause := fun x s => maskCause f.m.toNat x s
  acts := fun x s =>
    let m := x.mask s f.m.toNat 0
    let a := x.mask s (f.a.toNat % 16) 1
    let L := laneCount (actWidth (fmtAct (s.fmt x.q)))
    [scalarResult x s (f.d.toNat % 64) a.poison (g L (a.val &&& m.val).toNat) 2 true 0]

def opMpop (f : VR) : Op := maskCount f (fun L v => BitVec.ofNat 64 (popCountTo v L))

def opMfirst (f : VR) : Op :=
  maskCount f (fun L v => match (List.range L).find? (fun i => v.testBit i) with
    | some i => BitVec.ofNat 64 i
    | none => BitVec.allOnes 64)

/-! Glints and the counter generator (R175 to R177). -/

/-- The sum VGLINT adds: over the enabled words of a row (R175). -/
def glintSum (m : MaskBits) (r : Row) : Word :=
  (List.range 512).foldl (fun a i =>
    if m.getLsbD i then a + BitVec.ofNat 64 (i * 2 ^ 32 + r.lane 32 i) * Config.golden else a) 0

def opVglint (f : VR) : Op where
  dests := keyGlint (f.d.toNat % 4)
  rows := fun _ _ => [f.a.toNat]
  nres := 1
  cause := fun x s => maskCause f.m.toNat x s
  acts := fun x s =>
    let m := (x.mask s f.m.toNat 0).val
    let a := x.row s f.a.toNat 32 1
    [result x s (.glint (f.d.toNat % 4)) (.word (glintSum m a) (anyPoison m a 32)) 4 {}]

/-- The generator of R177 for a key and a counter. -/
def generator (key ctr : Word) : Word :=
  let z := key + ctr * Config.golden
  let z := (z ^^^ (z >>> 30)) * 0xBF58476D1CE4E5B9
  let z := (z ^^^ (z >>> 27)) * 0x94D049BB133111EB
  z ^^^ (z >>> 31)

/-- The FP32 pattern of k * 2^-24, k below 2^24: exact (R177). -/
def unitFraction (k : Nat) : Nat := (roundDyadic fp32 .rne false k (-24)).bits

def rngOp (f : VR) (g : Word → Nat) : Op where
  wrows := [f.d.toNat]
  rows := fun _ _ => [f.d.toNat]
  nres := 1
  cause := fun x s => maskCause f.m.toNat x s
  acts := fun x s =>
    let m := (x.mask s f.m.toNat 0).val
    let key := x.scalar s (f.a.toNat % 64) 1
    let base := x.scalar s (f.b.toNat % 64) 2
    let outs := enabledLanes m 512 512 fun i =>
      ({ bits := g (generator key.val (base.val + BitVec.ofNat 64 i)) } : LaneOut).taint (key.poison || base.poison)
    [result x s (.rows f.d.toNat) (.rows [writeLanes 32 outs]) 4 {}]

def opVrngBits (f : VR) : Op := rngOp f (fun z => (z >>> 32).toNat)
def opVrngUnif (f : VR) : Op := rngOp f (fun z => unitFraction (z >>> 40).toNat)

end Sys2Proof.Machine
end

