-- ==== Sys2Proof/Machine/Quant.lean ====
section
/-! DEFINITION. Scale records, the quantiser and the special functions (03 R54 to R57, 07 R178 to R184). -/

namespace Sys2Proof.Machine

/-- First address of the own-scratchpad window (R231). -/
def ownBase : Nat := 0xFF00000000000000

/-- The checks of a scale-record pointer (R178). -/
def recordCauses (p : SReg) : List (Bool × Nat) :=
  let a := p.val.toNat
  [(p.poison, cPoison), (a < ownBase || Config.systemArea ≤ a - ownBase, cAddress), (a % 32 ≠ 0, cAlignment)]

def recordCause (p : SReg) : Option Nat := lowestCause (recordCauses p)

/-- The offset a record pointer names. -/
def recordOff (p : SReg) : Nat := p.val.toNat - ownBase

/-- A field of lw bits at bit position b of a record (R54). -/
def recField (bs : List Byte) (b w : Nat) : Nat := leValue bs / 2 ^ b % 2 ^ w

/-- Whether a pattern is finite. -/
def isFinite32 (a : Nat) : Bool := match fp32.value a with | .fin .. => true | _ => false

/-- VAMAX on a record: the ring entry HEAD becomes the greater of itself and a (R55). The manual states no maximum for an entry that
a store has made a NaN: that one is the open value w (log 22). -/
def foldAmax (w : Word) (a : Nat) (bs : List Byte) : List Byte :=
  let h := recField bs 192 2
  let old := recField bs (64 + 32 * h) 32
  let new := if (fp32.value old).isNaN then w.toNat % 0x7F800000 else if fp32.key old < fp32.key a then a else old
  bs.take (8 + 4 * h) ++ leBytes 4 new ++ bs.drop (12 + 4 * h)

/-- The group scale that XSCALE derives from a record (R55). -/
def deriveG (bs : List Byte) : Nat :=
  let e := fun k => let v := recField bs (64 + 32 * k) 32; if (fp32.value v).isNaN then 0 else v % fp32.signBit
  let r := max (max (e 0) (e 1)) (max (e 2) (e 3))
  if r = 0 then 0x3F80
  else
    match fp32.value r with
    | .fin _ m ex => ((max (-126) (min 127 (floorLog2 m 1 + ex))) + 127).toNat * 2 ^ 7
    | _ => 0x7F00

/-- XSCALE on a record: STEP and HEAD advance, the new HEAD's entry is cleared, G is derived (R54, R55). -/
def scaleStep (bs : List Byte) : List Byte :=
  let h := (recField bs 192 2 + 1) % 4
  let ring := (List.range 4).flatMap (fun k => if k = h then leBytes 4 0 else leBytes 4 (recField bs (64 + 32 * k) 32))
  leBytes 8 (recField bs 0 64 + 1) ++ ring ++ leBytes 2 h ++ leBytes 2 (deriveG bs) ++ leBytes 4 0

/-- A record's bytes as they stand, and whether a unit of it is poisoned. -/
def recordAt (x : Ctx) (s : State) (off : Nat) : List Byte × Bool :=
  (s.readBytes (.spd x.core) off 32, (s.readPoison (.spd x.core) off 32).any id)

/-- The planes of a block's mantissas (R52): plane p's bit e is bit p of mantissa e. -/
def bxPlanes (b : Nat) (ms : List Int) : List Byte :=
  (List.range b).flatMap (fun p => leBytes 4 (packBits (ms.map (fun m => (BitVec.ofInt 8 m).getLsbD p))))

/-- The mantissa of element e from its block's planes (R52). -/
def bxMantissa (b : Nat) (planes : List Byte) (e : Nat) : Int :=
  (BitVec.ofNat b (packBits ((List.range b).map (fun p => (leValue ((planes.drop (4 * p)).take 4)).testBit e)))).toInt

/-- The row XQBX writes (R182), and the flags of its blocks at lanes 32k. -/
def quantRow (b : Nat) (m : MaskBits) (a : Row) (g : Nat) (gBad : Bool) : RowWrite × List LaneFlags :=
  let lanes := fun k => (List.range 32).map (fun e => if m.getLsbD (32 * k + e) then a.lane 32 (32 * k + e) else 0)
  let bad := fun k => gBad || (List.range 32).any (fun e => m.getLsbD (32 * k + e) && a.lanePoison 32 (32 * k + e))
  let qs := (List.range 16).map (fun k => quantise b (lanes k) g)
  let bytes := qs.flatMap (fun q => bxPlanes b q.2.1) ++ List.replicate (1536 - 64 * b) 0 ++
    qs.map (fun q => BitVec.ofNat 8 q.1) ++ List.replicate 496 0
  let poisonWord := fun j =>
    (j < 16 * b && bad (j / b)) || (384 ≤ j && j < 388 && (List.range 4).any (fun i => bad (4 * (j - 384) + i)))
  let words := (List.range 512).map (fun j =>
    some (if poisonWord j then LaneOut.poisoned else { bits := leValue ((bytes.drop (4 * j)).take 4) }))
  let fl := (List.range 512).map (fun i => if i % 32 = 0 && !bad (i / 32) then (qs.getD (i / 32) (0, [], 0)).2.2 else 0)
  (writeLanes 32 words, fl)

/-- The bytes of a row. -/
def Row.byteAt (r : Row) (i n : Nat) : List Byte := (List.range n).map (fun k => r.data.extractLsb' (8 * (i + k)) 8)

/-- What an operation on a record returns, from the record's bytes and whether a unit of them is poisoned, with its flags. -/
def RecordOp.value (op : RecordOp) (r : List Byte × Bool) : Option Value × FlagSet :=
  match op with
  | .amax _ _ => (none, {})
  | .scale => (some (.word (if r.2 then 0 else BitVec.ofNat 64 (deriveG r.1)) r.2), {})
  | .quant b m a nf =>
    let q := quantRow b m a (recField r.1 208 16) r.2
    (some (.rows [q.1]), flagSet nf q.2)
  | .dequant fmt rm m a nf =>
    let b := fmtBx fmt
    let outs := enabledLanes m 512 512 fun i =>
      let k := i / 32
      let bad := r.2 || a.poison.getLsbD (384 + k / 4) || (List.range b).any (fun p => a.poison.getLsbD (b * k + p))
      .of bad (bxToF32 (rounding fmt rm) b (bxMantissa b (a.byteAt (4 * b * k) (4 * b)) (i % 32)) (leValue (a.byteAt (1536 + k) 1))
        (recField r.1 208 16))
    (some (.rows [writeLanes 32 outs]), outFlags nf outs)

/-- What an operation does to its record (R54, R55). -/
def RecordOp.update (op : RecordOp) (core off : Nat) : List Act :=
  match op with
  | .amax w mag => [.record core off (foldAmax w mag)]
  | .scale => [.record core off scaleStep]
  | .quant .. | .dequant .. => []

/-- An operation on the record at p (R178, R179): at issue, unless an earlier access of the core to its scratchpad or a drain of the
sequencer holds it back (R263); its result d is then poisoned where it is not there by its bound. Everybody sees the record's update from
then on, where R179 leaves the cycle open up to its bound (DESIGN CHOICE, log 76). -/
def scaleActs (x : Ctx) (s : State) (p : SReg) (d : Option Dest) (bound : Nat) (op : RecordOp) : List Act :=
  let off := recordOff p
  if ownFree s x.q && !x.lateOwn then
    let v := op.value (recordAt x s off)
    eccChecks s [(.spd x.core, off, 32)] (s.fnOf x.core) ++ op.update x.core off ++ (match d, v.1 with | some d, some r => [result x s d r bound v.2] | _, _ => [])
  else
    [.work (fun w =>
      let f : Flight := { id := 0, q := x.q, dest := d.getD .fmt, val := ((op.value ([], true)).1).getD (.word 0 true), issue := s.cyc
                          due := s.cyc + bound, slot := x.slot, addr := x.addr, missing := 1, got := 0, gotWidth := 16384, hnd := (s.seqOf x.q).hnd }
      let id := w.nextId
      (if d.isSome then w.push f else w).pushAccess s
        { id := 0, q := x.q, fn := s.fnOf x.core, launch := runningLaunch s x.core, slot := x.slot, addr := x.addr, kind := .record op
          va := p.val.toNat, size := 32, flight := if d.isSome then some id else none, issue := s.cyc, at_ := s.cyc + 1, bound := s.cyc + bound
          hnd := (s.seqOf x.q).hnd })]

/-- A held operation takes effect at its record; a result that has passed its bound is lost (R208; log 76). -/
def recordPerforms (s : State) (a : Access) (op : RecordOp) : List Act :=
  let x : Ctx := { q := a.q, slot := a.slot, addr := a.addr, size := 2 }
  let p := a.place s
  let v := op.value (recordAt x s p.2)
  eccChecks s [(p.1, p.2, 32)] a.fn ++ op.update x.core p.2 ++
    [.work (fun w => (w.dropAccess a.id).raise { q := a.q, slot := a.slot, addr := a.addr, issue := a.issue, due := a.bound, flags := v.2 })] ++
    (match a.flight, v.1 with
     | some f, some r => [modFlight f (fun g => if g.missing = 0 then g else { g with val := r, missing := 0, got := BitVec.allOnes 1024 })]
     | _, _ => [])

/-- VAMAX (R180); what it does to its record is seen by everybody from its issue on, where R179 leaves the cycle open up to its bound (DESIGN
CHOICE, log 76). -/
def opVamax (f : VR) : Op where
  rows := fun _ _ => [f.a.toNat]
  cause := fun x s =>
    lowestCause (((x.mask s f.m.toNat 0).poison, cPoison) :: recordCauses (x.scalar s (f.b.toNat % 64) 2))
  acts := fun x s =>
    let m := (x.mask s f.m.toNat 0).val
    let a := x.row s f.a.toNat 32 1
    let p := x.scalar s (f.b.toNat % 64) 2
    let en := (List.range 512).filter (fun i => m.getLsbD i)
    let mags := en.filterMap (fun i => let v := a.lane 32 i; if isFinite32 v then some (v % fp32.signBit) else none)
    let fl := (List.range 512).map (fun i => if m.getLsbD i && !a.lanePoison 32 i && !isFinite32 (a.lane 32 i) then flIV else 0)
    [raiseFlags x s 6 (flagSet (f.nf = 1) fl)] ++
      (if anyPoison m a 32 then []
       else
         match mags with
         | [] => []
         | _ => scaleActs x s p none 6 (.amax (Config.freeWord (s.work.free + x.ck 20)) (mags.foldl max 0)))

def opXscale (f : VR) : Op where
  dests := keyScalar (f.d.toNat % 64)
  nres := 1
  cause := fun x s => recordCause (x.scalar s (f.a.toNat % 64) 1)
  acts := fun x s =>
    scaleActs x s (x.scalar s (f.a.toNat % 64) 1) (some (.scalar (f.d.toNat % 64))) 6 .scale

/-- A BX operation names a record and needs FMT.BXM (R182, R183). -/
def bxCause (f : VR) (x : Ctx) (s : State) : Option Nat :=
  lowestCause ((fmtBx (s.fmt x.q) = 1, cIllegalEncoding) :: ((x.mask s f.m.toNat 0).poison, cPoison) ::
    recordCauses (x.scalar s (f.b.toNat % 64) 2))

def opXqbx (f : VR) : Op where
  wrows := [f.d.toNat]
  rows := fun _ _ => [f.d.toNat, f.a.toNat]
  nres := 1
  cause := fun x s => bxCause f x s
  acts := fun x s =>
    let m := (x.mask s f.m.toNat 0).val
    let a := x.row s f.a.toNat 32 1
    scaleActs x s (x.scalar s (f.b.toNat % 64) 2) (some (.rows f.d.toNat)) 10 (.quant (fmtBx (s.fmt x.q)) m a (f.nf = 1))

def opXdqbx (f : VR) : Op where
  wrows := [f.d.toNat]
  rows := fun _ _ => [f.d.toNat, f.a.toNat]
  nres := 1
  cause := fun x s => bxCause f x s
  acts := fun x s =>
    let m := (x.mask s f.m.toNat 0).val
    let a := x.row s f.a.toNat 32 1
    scaleActs x s (x.scalar s (f.b.toNat % 64) 2) (some (.rows f.d.toNat)) 10 (.dequant (s.fmt x.q) f.rm.toNat m a (f.nf = 1))

/-! Special functions (R184). -/

def sfuOp (f : VR) (g : Rounding → Nat → Flagged) : Op :=
  laneOp f 32 8 { b := false } (f.nf = 1) fun v i =>
    .of (v.a.lanePoison 32 i) (g (rounding v.fmt f.rm.toNat) (v.a.lane 32 i))

def opXexp2 (f : VR) : Op := sfuOp f xexp2
def opXlog2 (f : VR) : Op := sfuOp f xlog2
def opXrcp (f : VR) : Op := sfuOp f xrcp
def opXrsqrt (f : VR) : Op := sfuOp f (frsqrt fp32)
def opXsqrt (f : VR) : Op := sfuOp f (fsqrt fp32)
def opXtanh (f : VR) : Op := sfuOp f xtanh
def opXsigm (f : VR) : Op := sfuOp f xsigm
def opXsin (f : VR) : Op := sfuOp f xsin
def opXcos (f : VR) : Op := sfuOp f xcos

end Sys2Proof.Machine
end

