-- ==== Sys2Proof/Machine/Scalar.lean ====
section
/-! DEFINITION. The scalar integer and floating-point operations (06 R108 to R118). -/

namespace Sys2Proof.Machine

/-- A scalar operation of format SR on a and b (R108, R109): result d within bound. -/
def srOp (f : SR) (bound : Nat) (raises : Bool) (g : Word → Word → Word × LaneFlags) : Op where
  dests := keyScalar f.d.toNat
  nres := 1
  acts := fun x s =>
    let a := x.scalar s f.a.toNat 0
    let b := x.scalar s f.b.toNat 1
    let r := g a.val b.val
    [scalarResult x s f.d.toNat (a.poison || b.poison) r.1 bound (!raises || f.nf = 1) r.2]

/-- A scalar operation of format SR on a alone. -/
def srOp1 (f : SR) (bound : Nat) (raises : Bool) (g : Word → Word × LaneFlags) : Op where
  dests := keyScalar f.d.toNat
  nres := 1
  acts := fun x s =>
    let a := x.scalar s f.a.toNat 0
    let r := g a.val
    [scalarResult x s f.d.toNat a.poison r.1 bound (!raises || f.nf = 1) r.2]

/-- A scalar operation of format SI on a and the immediate (R114). -/
def siOp (f : SI) (g : Word → Word) : Op where
  dests := keyScalar f.d.toNat
  nres := 1
  acts := fun x s =>
    let a := x.scalar s f.a.toNat 0
    [scalarResult x s f.d.toNat a.poison (g a.val) 1 true 0]

def plain (g : Word → Word → Word) : Word → Word → Word × LaneFlags := fun a b => (g a b, 0)

/-- The high half of a signed product (R111). -/
def mulHigh (a b : Word) : Word := BitVec.ofInt 64 (a.toInt * b.toInt / 2 ^ 64)
def mulHighU (a b : Word) : Word := BitVec.ofNat 64 (a.toNat * b.toNat / 2 ^ 64)

/-- Division and remainder (R112): all ones and the dividend for a zero divisor, with DZ. -/
def divS (a b : Word) : Word × LaneFlags :=
  if b = 0 then (BitVec.allOnes 64, flDZ) else (BitVec.ofInt 64 (a.toInt.tdiv b.toInt), 0)
def divU (a b : Word) : Word × LaneFlags :=
  if b = 0 then (BitVec.allOnes 64, flDZ) else (BitVec.ofNat 64 (a.toNat / b.toNat), 0)
def remS (a b : Word) : Word × LaneFlags := if b = 0 then (a, flDZ) else (BitVec.ofInt 64 (a.toInt.tmod b.toInt), 0)
def remU (a b : Word) : Word × LaneFlags := if b = 0 then (a, flDZ) else (BitVec.ofNat 64 (a.toNat % b.toNat), 0)

def shl (a : Word) (n : Nat) : Word := a <<< (n % 64)
def shr (a : Word) (n : Nat) : Word := a >>> (n % 64)
def sra (a : Word) (n : Nat) : Word := a.sshiftRight (n % 64)

/-- The number of leading zero bits of a 64-bit word (R111). -/
def clz (a : Word) : Word := if a = 0 then 64 else BitVec.ofNat 64 (63 - Nat.log2 a.toNat)
def popc (a : Word) : Word := BitVec.ofNat 64 (popCountTo a.toNat 64)

def minS (a b : Word) : Word := if a.toInt ≤ b.toInt then a else b
def maxS (a b : Word) : Word := if a.toInt ≤ b.toInt then b else a
def minU (a b : Word) : Word := if a.toNat ≤ b.toNat then a else b
def maxU (a b : Word) : Word := if a.toNat ≤ b.toNat then b else a

/-- One for a condition that holds, else zero. -/
def truth (b : Bool) : Word := if b then 1 else 0

/-- Bits [pos+width-1:pos] of a, zero- or sign-extended (R113). -/
def extract (sgn : Bool) (pos width : Nat) (a : Word) : Word :=
  let v := (a >>> pos).toNat % 2 ^ width
  if sgn then BitVec.ofInt 64 (BitVec.ofNat width v).toInt else BitVec.ofNat 64 v

/-- The low width bits of a put into the word at pos (R113). -/
def insert (pos width : Nat) (old a : Word) : Word :=
  let m : Word := BitVec.ofNat 64 ((2 ^ width - 1) * 2 ^ pos)
  (old &&& ~~~m) ||| ((a <<< pos) &&& m)

def opSadd (f : SR) : Op := srOp f 1 false (plain (fun a b => a + b))
def opSsub (f : SR) : Op := srOp f 1 false (plain (fun a b => a - b))
def opSmul (f : SR) : Op := srOp f 1 false (plain (fun a b => a * b))
def opSmulh (f : SR) : Op := srOp f 1 false (plain mulHigh)
def opSmulhu (f : SR) : Op := srOp f 1 false (plain mulHighU)
def opSdiv (f : SR) : Op := srOp f 1 true divS
def opSdivu (f : SR) : Op := srOp f 1 true divU
def opSrem (f : SR) : Op := srOp f 1 true remS
def opSremu (f : SR) : Op := srOp f 1 true remU
def opSand (f : SR) : Op := srOp f 1 false (plain (fun a b => a &&& b))
def opSor (f : SR) : Op := srOp f 1 false (plain (fun a b => a ||| b))
def opSxor (f : SR) : Op := srOp f 1 false (plain (fun a b => a ^^^ b))
def opSshl (f : SR) : Op := srOp f 1 false (plain (fun a b => shl a b.toNat))
def opSshr (f : SR) : Op := srOp f 1 false (plain (fun a b => shr a b.toNat))
def opSsra (f : SR) : Op := srOp f 1 false (plain (fun a b => sra a b.toNat))
def opSaddi (f : SI) : Op := siOp f (fun a => a + f.imm24.signExtend 64)
def opSandi (f : SI) : Op := siOp f (fun a => a &&& f.imm24.setWidth 64)
def opSori (f : SI) : Op := siOp f (fun a => a ||| f.imm24.setWidth 64)
def opSxori (f : SI) : Op := siOp f (fun a => a ^^^ f.imm24.setWidth 64)
def opSshli (f : SI) : Op := siOp f (fun a => shl a f.imm24.toNat)
def opSshri (f : SI) : Op := siOp f (fun a => shr a f.imm24.toNat)
def opSsrai (f : SI) : Op := siOp f (fun a => sra a f.imm24.toNat)

/-- SLI reads no register (R114). -/
def opSli (f : SI) : Op where
  dests := keyScalar f.d.toNat
  nres := 1
  acts := fun x s => [scalarResult x s f.d.toNat false (f.imm24.signExtend 64) 1 true 0]

def opSlih (f : SI) : Op := siOp f (fun a => insert (16 * (f.sub.toNat % 4)) 16 a (f.imm24.setWidth 64))
def opSclz (f : SR) : Op := srOp1 f 1 false (fun a => (clz a, 0))
def opSpop (f : SR) : Op := srOp1 f 1 false (fun a => (popc a, 0))
def opSmin (f : SR) : Op := srOp f 1 false (plain minS)
def opSmax (f : SR) : Op := srOp f 1 false (plain maxS)
def opSminu (f : SR) : Op := srOp f 1 false (plain minU)
def opSmaxu (f : SR) : Op := srOp f 1 false (plain maxU)
def opScmp (f : SR) : Op := srOp f 1 false (plain (fun a b => truth (icond 64 f.sub.toNat a.toNat b.toNat)))

/-- SSEL: poisoned only when c or the selected operand is (R109). -/
def opSsel (f : SR) : Op where
  dests := keyScalar f.d.toNat
  nres := 1
  acts := fun x s =>
    let a := x.scalar s f.a.toNat 0
    let b := x.scalar s f.b.toNat 1
    let c := x.scalar s f.c.toNat 2
    let sel := if c.val = 0 then b else a
    [scalarResult x s f.d.toNat (c.poison || sel.poison) sel.val 1 true 0]

/-- Whether pos + width passes 64 (R113): refused at issue, ranking as item 5 of R91 (DESIGN CHOICE, log 81). -/
def fieldTooWide (f : SR) : Bool := 64 < f.b.toNat + (f.c.toNat + 1)

def opSext (sgn : Bool) (f : SR) : Op :=
  { srOp1 f 1 false (fun a => (extract sgn f.b.toNat (f.c.toNat + 1) a, 0)) with
    cause := fun _ _ => firstCause [(fieldTooWide f, cIllegalEncoding)] }

def opSextU (f : SR) : Op := opSext false f
def opSextS (f : SR) : Op := opSext true f

/-- SINS also reads its destination (R109, R113). -/
def opSins (f : SR) : Op where
  dests := keyScalar f.d.toNat
  nres := 1
  cause := fun _ _ => firstCause [(fieldTooWide f, cIllegalEncoding)]
  acts := fun x s =>
    let a := x.scalar s f.a.toNat 0
    let d := x.scalar s f.d.toNat 1
    [scalarResult x s f.d.toNat (a.poison || d.poison) (insert f.b.toNat (f.c.toNat + 1) d.val a.val) 1 true 0]

/-! Scalar floating point (R115 to R118). -/

def low32 (a : Word) : Nat := a.toNat % 2 ^ 32
def low16 (a : Word) : Nat := a.toNat % 2 ^ 16

/-- A two-operand FP32 operation rounded by FMT.RND (R115, R116), bound 3. -/
def sfOp (f : SR) (g : Rounding → Nat → Nat → Flagged) : Op where
  dests := keyScalar f.d.toNat
  nres := 1
  acts := fun x s =>
    let a := x.scalar s f.a.toNat 0
    let b := x.scalar s f.b.toNat 1
    let r := g (rounding (s.fmt x.q) 0) (low32 a.val) (low32 b.val)
    [scalarResult x s f.d.toNat (a.poison || b.poison) (BitVec.ofNat 64 r.bits) 3 (f.nf = 1) r.flags]

def opSfadd (f : SR) : Op := sfOp f (fadd fp32)
def opSfsub (f : SR) : Op := sfOp f (fsub fp32)
def opSfmul (f : SR) : Op := sfOp f (fmul fp32)

def opSfma (f : SR) : Op where
  dests := keyScalar f.d.toNat
  nres := 1
  acts := fun x s =>
    let a := x.scalar s f.a.toNat 0
    let b := x.scalar s f.b.toNat 1
    let c := x.scalar s f.c.toNat 2
    let r := ffma fp32 (rounding (s.fmt x.q) 0) (low32 a.val) (low32 b.val) (low32 c.val)
    [scalarResult x s f.d.toNat (a.poison || b.poison || c.poison) (BitVec.ofNat 64 r.bits) 3 (f.nf = 1) r.flags]

def opSfcmp (f : SR) : Op :=
  srOp f 3 true (fun a b => let r := fcond fp32 f.sub.toNat (low32 a) (low32 b); (truth r.1, r.2))

/-- A conversion (R117), rounded by its own rm code in c[2:0]. -/
def sfcvtOp (f : SR) (g : Rounding → Word → Flagged) : Op where
  dests := keyScalar f.d.toNat
  nres := 1
  acts := fun x s =>
    let a := x.scalar s f.a.toNat 0
    let r := g (rounding (s.fmt x.q) (f.c.toNat % 8)) a.val
    [scalarResult x s f.d.toNat a.poison (BitVec.ofNat 64 r.bits) 3 (f.nf = 1) r.flags]

def opSfcvtF32I64 (f : SR) : Op := sfcvtOp f (fun rm a => toInt fp32 rm (-2 ^ 63) (2 ^ 63 - 1) 64 (low32 a))
def opSfcvtF32U64 (f : SR) : Op := sfcvtOp f (fun rm a => toInt fp32 rm 0 (2 ^ 64 - 1) 64 (low32 a))
def opSfcvtI64F32 (f : SR) : Op := sfcvtOp f (fun rm a => ofInt fp32 rm a.toInt 0)
def opSfcvtU64F32 (f : SR) : Op := sfcvtOp f (fun rm a => ofInt fp32 rm a.toNat 0)
def opSfcvtF32Bf16 (f : SR) : Op := sfcvtOp f (fun rm a => fconvert fp32 bf16 rm (low32 a))
def opSfcvtF32F16 (f : SR) : Op := sfcvtOp f (fun rm a => fconvert fp32 fp16 rm (low32 a))
def opSfcvtBf16F32 (f : SR) : Op := sfcvtOp f (fun rm a => fconvert bf16 fp32 rm (low16 a))
def opSfcvtF16F32 (f : SR) : Op := sfcvtOp f (fun rm a => fconvert fp16 fp32 rm (low16 a))
def opSfcvtF32Fx32 (f : SR) : Op := sfcvtOp f (fun _ a => toFx (low32 a))
def opSfcvtFx32F32 (f : SR) : Op := sfcvtOp f (fun rm a => ofFx rm (low32 a))
def opSfmin (f : SR) : Op := sfOp f (fun _ a b => fminmax fp32 false a b)
def opSfmax (f : SR) : Op := sfOp f (fun _ a b => fminmax fp32 true a b)

end Sys2Proof.Machine
end

