-- ==== Sys2Proof/Machine/SlotOps.lean ====
section
/-! DEFINITION. The operation of every slot instruction. -/

namespace Sys2Proof.Machine

/-- The operation of a slot instruction whose vector register fields a repetition has advanced by v and w (R131). -/
def opAt (v : VR → VR) (w : VI → VI) : Instr → Op
  | .bundleIssue .. => {}
  | .nop => {}
  | .resultLand .. => {}
  | .loadDataArrival .. => {}
  | .loadPromiseMiss .. => {}
  | .storePerform .. => {}
  | .lateStoreFault .. => {}
  | .trapEntry .. => {}
  | .timerInterrupt .. => {}
  | .latchedLoadFault .. => {}
  | .looppRollback .. => {}
  | .engineCommandStart .. => {}
  | .mxeRoutineStart .. => {}
  | .mxeRoutineOverrun .. => {}
  | .engineCommandEnd .. => {}
  | .tileRowArrival .. => {}
  | .copyChunkComplete .. => {}
  | .copyComplete .. => {}
  | .copySuspend .. => {}
  | .probeFillComplete .. => {}
  | .syeRequestArrival .. => {}
  | .barwaitReport .. => {}
  | .waitvWake .. => {}
  | .twaitRelease .. => {}
  | .trealignRelease .. => {}
  | .channelElementArrival .. => {}
  | .chrecvWake .. => {}
  | .tlbWalkComplete .. => {}
  | .launchStart .. => {}
  | .taskStart .. => {}
  | .launchDone .. => {}
  | .sliceReset .. => {}
  | .arbiterIdleGrant .. => {}
  | .queueSwitchComplete .. => {}
  | .deadlineFault .. => {}
  | .deadlineAbort .. => {}
  | .launch .. => {}
  | .detlevel .. => {}
  | .qset .. => {}
  | .quiesce .. => {}
  | .quiesceCutComplete .. => {}
  | .quiesceTimeout .. => {}
  | .restore .. => {}
  | .resume .. => {}
  | .abort .. => {}
  | .tlbInvalidateComplete => {}
  | .heartbeatTimeout .. => {}
  | .pauseExpiry .. => {}
  | .noRouteTimeout .. => {}
  | .srdStepEnqueue .. => {}
  | .srdStepBegin .. => {}
  | .srdStepComplete .. => {}
  | .collectiveFlitArrival .. => {}
  | .collectiveWaitTimeout .. => {}
  | .journalResendTimeout => {}
  | .emissionPerform => {}
  | .partnerFailureTimeout => {}
  | .spareReseedComplete => {}
  | .writerFailureTimeout => {}
  | .flrDrainComplete .. => {}
  | .flrScrubComplete .. => {}
  | .statedRunOverrun .. => {}
  | .sadd f => opSadd f
  | .ssub f => opSsub f
  | .smul f => opSmul f
  | .smulh f => opSmulh f
  | .smulhu f => opSmulhu f
  | .sdiv f => opSdiv f
  | .sdivu f => opSdivu f
  | .srem f => opSrem f
  | .sremu f => opSremu f
  | .sand f => opSand f
  | .sor f => opSor f
  | .sxor f => opSxor f
  | .sshl f => opSshl f
  | .sshr f => opSshr f
  | .ssra f => opSsra f
  | .saddi f => opSaddi f
  | .sandi f => opSandi f
  | .sori f => opSori f
  | .sxori f => opSxori f
  | .sshli f => opSshli f
  | .sshri f => opSshri f
  | .ssrai f => opSsrai f
  | .sli f => opSli f
  | .slih f => opSlih f
  | .sclz f => opSclz f
  | .spop f => opSpop f
  | .smin f => opSmin f
  | .smax f => opSmax f
  | .sminu f => opSminu f
  | .smaxu f => opSmaxu f
  | .scmp f => opScmp f
  | .ssel f => opSsel f
  | .sextU f => opSextU f
  | .sextS f => opSextS f
  | .sins f => opSins f
  | .sfadd f => opSfadd f
  | .sfsub f => opSfsub f
  | .sfmul f => opSfmul f
  | .sfma f => opSfma f
  | .sfcmp f => opSfcmp f
  | .sfcvtF32I64 f => opSfcvtF32I64 f
  | .sfcvtF32U64 f => opSfcvtF32U64 f
  | .sfcvtI64F32 f => opSfcvtI64F32 f
  | .sfcvtU64F32 f => opSfcvtU64F32 f
  | .sfcvtF32Bf16 f => opSfcvtF32Bf16 f
  | .sfcvtF32F16 f => opSfcvtF32F16 f
  | .sfcvtBf16F32 f => opSfcvtBf16F32 f
  | .sfcvtF16F32 f => opSfcvtF16F32 f
  | .sfcvtF32Fx32 f => opSfcvtF32Fx32 f
  | .sfcvtFx32F32 f => opSfcvtFx32F32 f
  | .sfmin f => opSfmin f
  | .sfmax f => opSfmax f
  | .br f => opBr f
  | .brc f => opBrc f
  | .bri f => opBri f
  | .call f => opCall f
  | .ret f => opRet f
  | .loop f => opLoop f
  | .loopp f => opLoopp f
  | .lexit f => opLexit f
  | .rep f => opRep f
  | .spawn f => opSpawn f
  | .yield f => opYield f
  | .chk f => opChk f
  | .chkm f => opChkm f
  | .trap f => opTrap f
  | .rett f => opRett f
  | .sysrd f => opSysrd f
  | .syswr f => opSyswr f
  | .setfmt f => opSetfmt f
  | .settb f => opSettb f
  | .twait f => opTwait f
  | .trealign f => opTrealign f
  | .glchk f => opGlchk f
  | .halt f => opHalt f
  | .flclr f => opFlclr f
  | .vaddF32 f => opVaddF32 (v f)
  | .vaddBf16 f => opVaddBf16 (v f)
  | .vaddF16 f => opVaddF16 (v f)
  | .vsubF32 f => opVsubF32 (v f)
  | .vsubBf16 f => opVsubBf16 (v f)
  | .vsubF16 f => opVsubF16 (v f)
  | .vmulF32 f => opVmulF32 (v f)
  | .vmulBf16 f => opVmulBf16 (v f)
  | .vmulF16 f => opVmulF16 (v f)
  | .vfmaF32 f => opVfmaF32 (v f)
  | .vfmaBf16 f => opVfmaBf16 (v f)
  | .vfmaF16 f => opVfmaF16 (v f)
  | .vfmsF32 f => opVfmsF32 (v f)
  | .vfmsBf16 f => opVfmsBf16 (v f)
  | .vfmsF16 f => opVfmsF16 (v f)
  | .vminF32 f => opVminF32 (v f)
  | .vminBf16 f => opVminBf16 (v f)
  | .vminF16 f => opVminF16 (v f)
  | .vmaxF32 f => opVmaxF32 (v f)
  | .vmaxBf16 f => opVmaxBf16 (v f)
  | .vmaxF16 f => opVmaxF16 (v f)
  | .vabsF32 f => opVabsF32 (v f)
  | .vabsBf16 f => opVabsBf16 (v f)
  | .vabsF16 f => opVabsF16 (v f)
  | .vnegF32 f => opVnegF32 (v f)
  | .vnegBf16 f => opVnegBf16 (v f)
  | .vnegF16 f => opVnegF16 (v f)
  | .vcmpF32 f => opVcmpF32 (v f)
  | .vcmpBf16 f => opVcmpBf16 (v f)
  | .vcmpF16 f => opVcmpF16 (v f)
  | .vclampF32 f => opVclampF32 (v f)
  | .vclampBf16 f => opVclampBf16 (v f)
  | .vclampF16 f => opVclampF16 (v f)
  | .vsel f => opVsel (v f)
  | .viaddI32 f => opViaddI32 (v f)
  | .viaddI16 f => opViaddI16 (v f)
  | .visubI32 f => opVisubI32 (v f)
  | .visubI16 f => opVisubI16 (v f)
  | .vimulI32 f => opVimulI32 (v f)
  | .vimulI16 f => opVimulI16 (v f)
  | .viminI32 f => opViminI32 (v f)
  | .viminI16 f => opViminI16 (v f)
  | .vimaxI32 f => opVimaxI32 (v f)
  | .vimaxI16 f => opVimaxI16 (v f)
  | .vicmpI32 f => opVicmpI32 (v f)
  | .vicmpI16 f => opVicmpI16 (v f)
  | .vand f => opVand (v f)
  | .vor f => opVor (v f)
  | .vxor f => opVxor (v f)
  | .vshl f => opVshl (v f)
  | .vshr f => opVshr (v f)
  | .vsra f => opVsra (v f)
  | .vfxadd f => opVfxadd (v f)
  | .vfxsub f => opVfxsub (v f)
  | .vqfx f => opVqfx (v f)
  | .vfxf f => opVfxf (v f)
  | .vcvtBf16F32 f => opVcvtBf16F32 (v f)
  | .vcvtF16F32 f => opVcvtF16F32 (v f)
  | .vcvtF32Bf16 f => opVcvtF32Bf16 (v f)
  | .vcvtF32F16 f => opVcvtF32F16 (v f)
  | .vcvtI32F32 f => opVcvtI32F32 (v f)
  | .vcvtF32I32 f => opVcvtF32I32 (v f)
  | .vcvtI16F32 f => opVcvtI16F32 (v f)
  | .vcvtF32I16 f => opVcvtF32I16 (v f)
  | .vsplit3 f => opVsplit3 (v f)
  | .vmov f => opVmov (v f)
  | .vli f => opVli (w f)
  | .vidx f => opVidx (w f)
  | .vbcastScalar f => opVbcastScalar (v f)
  | .vbcastLane f => opVbcastLane (v f)
  | .vextr f => opVextr (v f)
  | .vslide f => opVslide (v f)
  | .vperm f => opVperm (v f)
  | .vsumo f => opVsumo (v f)
  | .vsumxXa f => opVsumxXa (v f)
  | .vsumxF32 f => opVsumxF32 (v f)
  | .vmaxr f => opVmaxr (v f)
  | .vminr f => opVminr (v f)
  | .vstatu f => opVstatu (v f)
  | .vstatw f => opVstatw (v f)
  | .vstatm f => opVstatm (v f)
  | .vstath f => opVstath (v f)
  | .vstateClr f => opVstateClr (v f)
  | .vstateVar f => opVstateVar (v f)
  | .vstateSvar f => opVstateSvar (v f)
  | .vstateRstd f => opVstateRstd (v f)
  | .vglint f => opVglint (v f)
  | .vrngBits f => opVrngBits (v f)
  | .vrngUnif f => opVrngUnif (v f)
  | .vamax f => opVamax (v f)
  | .mand f => opMand (v f)
  | .mor f => opMor (v f)
  | .mxor f => opMxor (v f)
  | .mnot f => opMnot (v f)
  | .mpop f => opMpop (v f)
  | .mfirst f => opMfirst (v f)
  | .vxadd f => opVxadd (v f)
  | .vxcvtXaF32 f => opVxcvtXaF32 (v f)
  | .vxcvtF32Xa f => opVxcvtF32Xa (v f)
  | .xexp2 f => opXexp2 (v f)
  | .xlog2 f => opXlog2 (v f)
  | .xrcp f => opXrcp (v f)
  | .xrsqrt f => opXrsqrt (v f)
  | .xsqrt f => opXsqrt (v f)
  | .xtanh f => opXtanh (v f)
  | .xsigm f => opXsigm (v f)
  | .xsin f => opXsin (v f)
  | .xcos f => opXcos (v f)
  | .xqbx f => opXqbx (v f)
  | .xdqbx f => opXdqbx (v f)
  | .xscale f => opXscale (v f)
  | .mcall f => opMcall f
  | .mdrain f => opMdrain f
  | .mdrainAo f => opMdrainAo f
  | .mdrainAu f => opMdrainAu f
  | .mdrainN f => opMdrainN f
  | .mzero f => opMzero f
  | .mpset f => opMpset (v f)
  | .mucld f => opMucld f
  | .mbld f => opMbld f
  | .thset f => opThset (v f)
  | .mchks f => opMchks (v f)
  | .ld8 f => opLd8 f
  | .ld16 f => opLd16 f
  | .ld32 f => opLd32 f
  | .ld64 f => opLd64 f
  | .st8 f => opSt8 f
  | .st16 f => opSt16 f
  | .st32 f => opSt32 f
  | .st64 f => opSt64 f
  | .vld f => opVld f
  | .vst f => opVst f
  | .vldt f => opVldt f
  | .vldb f => opVldb f
  | .vgath f => opVgath f
  | .vscat f => opVscat f
  | .probe f => opProbe f
  | .pref f => opPref f
  | .cpygs f => opCpygs f
  | .cpysg f => opCpysg f
  | .cpyss f => opCpyss f
  | .cpyb f => opCpyb f
  | .drainl f => opDrainl f
  | .drainr f => opDrainr f
  | .drainc f => opDrainc f
  | .barinit f => opBarinit f
  | .barinitTree f => opBarinitTree f
  | .bararv f => opBararv f
  | .barwait f => opBarwait f
  | .aadd f => opAadd f
  | .amin f => opAmin f
  | .amax f => opAmax f
  | .aand f => opAand f
  | .aor f => opAor f
  | .axor f => opAxor f
  | .aswp f => opAswp f
  | .acas f => opAcas f
  | .afaddo f => opAfaddo f
  | .afaddu f => opAfaddu f
  | .axadd f => opAxadd f
  | .astat f => opAstat f
  | .astatO f => opAstatO f
  | .waitv f => opWaitv f
  | .chsend f => opChsend f
  | .chrecv f => opChrecv f
  | .srcmdXadd f => opSrcmdXadd f
  | .srcmdFaddo f => opSrcmdFaddo f
  | .srcmdFaddu f => opSrcmdFaddu f
  | .srcmdMax f => opSrcmdMax f
  | .srcmdMin f => opSrcmdMin f
  | .srcmdStato f => opSrcmdStato f
  | .srcmdStatu f => opSrcmdStatu f
  | .srcmdFwd f => opSrcmdFwd f
  | .srcmdBx4d f => opSrcmdBx4d f
  | .jemit f => opJemit f
  | .jcmp f => opJcmp f
  | .jmark f => opJmark f
  | .jtrunc f => opJtrunc f
  | .badPacket .. => {}
  | .ringEnableWrite .. => {}
  | .cmdtailWrite .. => {}
  | .cplheadWrite .. => {}
  | .registerWrite .. => {}
  | .tlbInvalidate .. => {}
  | .jpcomWrite .. => {}
  | .mcurWrite .. => {}
  | .dutyWrite .. => {}
  | .pwrcapWrite .. => {}
  | .tkoWrite .. => {}
  | .pageHandover .. => {}
  | .rangeMigration .. => {}
  | .layerMapOut .. => {}
  | .refreshRateEval .. => {}
  | .heartbeat .. => {}
  | .retrainRequest .. => {}
  | .heatMapPublish => {}
  | .sensorSample .. => {}
  | .powerCapEval .. => {}
  | .flitReceive .. => {}
  | .retryBeat .. => {}
  | .ackBeat .. => {}
  | .pauseBeat .. => {}
  | .routeTableWrite .. => {}
  | .timeSyncMessage .. => {}
  | .journalRecordReceive .. => {}
  | .journalAck .. => {}
  | .writerDownReport => {}
  | .vfFlr .. => {}
  | .containmentFlr .. => {}
  | .moduleReset => {}
  | .powerOn => {}
  | .coreFatalFault .. => {}
  | .hostLinkRequest .. => {}
  | .imageWrite .. => {}
  | .attestationRequest .. => {}
  | .softError .. => {}
  | .dataRateRetrainComplete .. => {}
  | .refreshIntervalBoundary .. => {}
  | .mirrorPairingWrite .. => {}
  | .perstDeassertion => {}
  | .powerInterruption => {}

end Sys2Proof.Machine
end

