-- ==== Sys2Proof/Machine/Bundle.lean ====
section
/-! DEFINITION. Issuing a bundle: the checks in their order, the slots' effects, the repetitions of a REP, and the bundle that follows
(02 R18, R25, 04 R70 to R78, R90, R91, 06 R121 to R133). -/

namespace Sys2Proof.Machine

/-! REP (R130 to R132). -/

/-- What a bundle repeats: the targeted slots, the strides, the count. -/
structure Rep where
  mask : Nat := 0
  sd : Int := 0
  sa : Int := 0
  sb : Int := 0
  count : Nat := 1
  deriving DecidableEq, Repr

/-- Whether slot n is targeted: bit 0 of the mask is V0, bit 3 is X. -/
def Rep.targets (r : Rep) (n : Nat) : Bool := 2 ≤ n && n ≤ 5 && r.mask.testBit (n - 2)

/-- A vector register field in repetition k. -/
def advance9 (b : BitVec 9) (k : Nat) (stride : Int) : BitVec 9 := b + BitVec.ofInt 9 (k * stride)

/-- The fields of a VR and of a VI operation in repetition k. -/
def Rep.vr (r : Rep) (k : Nat) (f : VR) : VR :=
  { f with d := advance9 f.d k r.sd, a := advance9 f.a k r.sa, b := advance9 f.b k r.sb }
def Rep.vi (r : Rep) (k : Nat) (f : VI) : VI := { f with d := advance9 f.d k r.sd }

/-- The operation of a slot instruction in repetition k. -/
def opRepeat (r : Rep) (k : Nat) (i : Instr) : Op := opAt (r.vr k) (r.vi k) i

/-- The operation of a slot instruction. -/
def opOf (i : Instr) : Op := opAt (fun f => f) (fun f => f) i

/-- Whether an operation uses its d, a and b fields as vector registers: its entry names all nine bits (R80, R85). -/
def vectorFields (i : Option Encoding) : Bool × Bool × Bool :=
  match i with
  | none => (false, false, false)
  | some e =>
    let whole := fun (lo : Nat) => e.used.extractLsb' lo 9 = BitVec.allOnes 9
    let imm := e.cls = .v && (e.op = 0x3C || e.op = 0x41)
    if e.cls = .v || (e.cls = .x && e.op.toNat < 0x0C) then (whole 23, whole 14 && !imm, whole 5 && !imm) else (false, false, false)

/-- X-class operations that REP may not target: XE commands, MPSET, THSET, MCHKS, XSCALE (R132). -/
def unrepeatable (i : Option Encoding) : Bool :=
  match i with
  | some e => e.cls = .x && 0x0C ≤ e.op.toNat
  | none => false

/-- The REP of slot S1 as it applies to a bundle whose count register reads n. -/
def repFields (f : RP) (n : Nat) : Rep := ⟨f.mask.toNat, f.sd.toInt, f.sa.toInt, f.sb.toInt, n⟩

/-- Whether a REP's encoding is refused with the slots it targets (R132). -/
def repRefused (r : Rep) (slots : Nat → Option Encoding) : Bool :=
  (List.range 8).any fun n =>
    let u := vectorFields (slots n)
    r.targets n && ((r.sd ≠ 0 && !u.1) || (r.sa ≠ 0 && !u.2.1) || (r.sb ≠ 0 && !u.2.2) || unrepeatable (slots n))

/-! Fetch and decode (R73 to R78, R90). -/

/-- The 16-bit word at a stream address: two bytes, the least significant first (R3, R73). -/
def Core.streamWord (c : Core) (a : Nat) : BitVec 16 := BitVec.ofNat 16 (leValue ((c.stream.drop a).take 2))

/-- The bundle at a stream address and its length in the stream; none is a stream fault. -/
def fetchBundle (s : State) (c pc : Nat) : Option (BundleWord × Nat) :=
  let y := s.coreOf c
  if pc % 2 ≠ 0 || y.streamBytes < pc + 2 then none
  else
    let w := y.streamWord pc
    if w = 0xFFFF then
      if y.streamBytes < pc + 50 then none
      else some (BitVec.ofNat 384 (packDigits 16 ((List.range 24).map (fun k => (y.streamWord (pc + 2 + 2 * k)).toNat))), 50)
    else if w.toNat < 4096 && w.toNat < y.dictCount then some (SMap.get 0 s.dict (4096 * c + w.toNat), 2)
    else none

/-- The trap code of a slot fault (R90). -/
def slotFaultCode : SlotFault → Nat
  | .undefinedOpcode => cUndefinedOpcode
  | .illegalSlot => cIllegalSlot
  | .illegalEncoding => cIllegalEncoding

/-- The decode fault of a bundle by slot and code (R90, R91): a REP's refused encoding belongs to S1. -/
noncomputable def decodeFault (b : BundleWord) : Option (Nat × Nat) :=
  let ds := fun n => decodeSlot (slotClass n) (slotWord b n)
  let rep := match ds 1 with
    | .ok (.rep f) =>
      let known := fun n => match ds n with | .ok _ => true | .error _ => false
      repRefused { repFields f 1 with mask := packBits ((List.range 4).map (fun k => f.mask.getLsbD k && known (k + 2))) } (fun n => match ds n with | .ok i => i.encoding | .error _ => none)
    | _ => false
  match firstSlotFault b ds with
  | some (n, e) => if rep && 1 < n then some (1, cIllegalEncoding) else some (n, slotFaultCode e)
  | none => if rep then some (1, cIllegalEncoding) else none

/-! The checks at issue (R91). -/

/-- One slot of an issue: its encoding (none for NOP), its operation now and in the last repetition. -/
structure Issue where
  enc : Option Encoding := none
  op : Op := {}
  last : Op := {}

/-- The slots of a bundle as they issue on their first turn; a repeated slot of count 0 is inert (R131). -/
def bundleSlots (r : Rep) (slots : List Instr) : List Issue :=
  slots.mapIdx fun n i =>
    if r.targets n then (if r.count = 0 then { enc := i.encoding } else { enc := i.encoding, op := opOf i, last := opRepeat r (r.count - 1) i })
    else { enc := i.encoding, op := opOf i, last := opOf i }

/-- The context of slot n of a bundle. -/
def slotCtx (q addr size : Nat) (l : List Issue) (n : Nat) : Ctx :=
  { q := q, slot := n, addr := addr, size := size, prior := if n = 7 then (match l[6]? with | some e => e.op.share | none => []) else [] }

/-- Whether row a of a slot and row b of another meet in some repetitions of theirs, of which they make ka and kb. -/
def rowsMeet (stride : Int) (ka kb a b : Nat) : Bool :=
  let d : Int := (b : Int) - a
  if stride = 0 then d = 0
  else d % stride = 0 && -((kb : Int) - 1) ≤ d / stride && d / stride ≤ (ka : Int) - 1

/-- Whether slots n < m of an issue name one destination (R71, R132). -/
def slotsConflict (r : Rep) (l : List Issue) (n m : Nat) : Bool :=
  let a := (l.getD n {}).op
  let b := (l.getD m {}).op
  let turns := fun k => if r.targets k then r.count else 1
  a.dests.any (fun k => b.dests.contains k) || a.wrows.any (fun i => b.wrows.any (fun j => rowsMeet r.sd (turns n) (turns m) i j))

/-- Whether two repetitions of slot n write one row (R132). -/
def repeatsConflict (r : Rep) (l : List Issue) (n : Nat) : Bool :=
  let w := (l.getD n {}).op.wrows
  r.targets n && 2 ≤ r.count &&
    (if r.sd = 0 then !w.isEmpty else w.any (fun i => w.any (fun j => i ≠ j && rowsMeet r.sd r.count r.count i j)))

/-- The slot of the destination conflict that is reported (R91 item 3). -/
def conflictSlot (r : Rep) (l : List Issue) : Option Nat :=
  (List.range 8).find? fun n => repeatsConflict r l n || (List.range 8).any (fun m => n < m && slotsConflict r l n m)

/-- A register field after the repetitions lies outside 0 to 511 (R132). -/
def leavesFile (r : Rep) (i : Option Encoding) : Bool :=
  let far := fun (b : BitVec 9) (stride : Int) => let v : Int := (b.toNat : Int) + (r.count - 1 : Nat) * stride; v < 0 || 511 < v
  match i with
  | some e =>
    let u := vectorFields i
    (u.1 && far (e.bits.extractLsb' 23 9) r.sd) || (u.2.1 && far (e.bits.extractLsb' 14 9) r.sa) ||
      (u.2.2 && far (e.bits.extractLsb' 5 9) r.sb)
  | none => false

/-- The slot of the allotment fault that is reported (R25, R91 item 4). -/
def allotmentSlot (s : State) (q addr size : Nat) (r : Rep) (l : List Issue) : Option Nat :=
  (List.range 8).find? fun n =>
    let e := l.getD n {}
    let x := slotCtx q addr size l n
    (r.targets n && leavesFile r e.enc) ||
      (e.op.rows x s ++ e.last.rows x s).any (fun v => !inAllotment s q v)

/-- The results of a sequencer in flight at this cycle (R18). -/
def inFlightCount (s : State) (q : Nat) : Nat :=
  (s.work.flights.filter (fun f => f.q = q && !f.engine && f.mode = .live && s.cyc < f.due)).length

/-- The first slot of a bundle whose result makes the number in flight exceed 64 (R18). -/
def limitSlot (s : State) (q : Nat) (l : List Issue) : Option Nat :=
  (List.range l.length).find? fun n =>
    0 < (l.getD n {}).op.nres && Config.inFlightLimit < inFlightCount s q + ((l.take (n + 1)).map (fun e => e.op.nres)).sum

/-- The slot that the in-flight limit names for a repetition that would exceed it: the first targeted slot counted (R18). -/
def repeatLimit (s : State) (q : Nat) (l : List Issue) : Option Nat :=
  if Config.inFlightLimit < inFlightCount s q + (l.map (fun e => e.op.nres)).sum then
    (List.range l.length).find? (fun n => 0 < (l.getD n {}).op.nres)
  else none

/-- What a LOOPP body may not issue (R128). -/
def looppIllegal (i : Option Encoding) : Bool :=
  match i with
  | none => false
  | some e =>
    let o := e.op.toNat
    match e.cls with
    | .s => o = 0x33 || o = 0x35 || o = 0x36 || o = 0x39 || o = 0x3A || o = 0x46
    | .x => 0x10 ≤ o && o ≤ 0x14
    | .m => !(o ≤ 0x0E || o = 0x10)
    | .v => false

/-- The target that the next bundle's rule checks against the stream (R76). -/
def Next.target : Next → Option Int
  | .branch t | .free t | .lexit _ t | .resume t => some t
  | .seq | .zeroLoop _ => none

/-- A taken branch's target is odd or not in the stream (R76). -/
def targetBad (s : State) (c : Nat) (n : Next) : Bool :=
  match n.target with
  | some t => t < 0 || t % 2 ≠ 0 || ((s.coreOf c).streamBytes : Int) ≤ t
  | none => false

/-- A branch leaves the innermost loop (R122). -/
def escapes (y : Seq) (n : Next) : Bool :=
  match n, y.loops.getLast? with
  | .branch t, some e => t < e.start || (e.stop : Int) < t
  | _, _ => false

/-- The other precise causes of slot n (R91 item 5), the lowest code; lim is the slot that meets the in-flight limit. -/
def slotCause (s : State) (q addr size : Nat) (lim : Option Nat) (l : List Issue) (n : Nat) : Option Nat :=
  let e := l.getD n {}
  let x := slotCtx q addr size l n
  let y := s.seqOf q
  let nx := e.op.next x s
  minCause (e.op.cause x s)
    (lowestCause [((passOf y).isSome && looppIllegal e.enc, cIllegalSlot), (targetBad s (q / 4) nx, cIllegalStream),
      (escapes y nx, cLoopEscape), (lim = some n, cInFlight)])

/-- The fault of an issue, by slot and code, in the order of R91 items 2 to 5. -/
def issueFault (s : State) (q addr size : Nat) (r : Rep) (l : List Issue) : Option (Nat × Nat) :=
  if repRefused r (fun n => (l.getD n {}).enc) then some (1, cIllegalEncoding)
  else
    match conflictSlot r l with
    | some n => some (n, cIllegalEncoding)
    | none =>
      match allotmentSlot s q addr size r l with
      | some n => some (n, cAllotment)
      | none => (List.range 8).findSome? (fun n => (slotCause s q addr size (limitSlot s q l) l n).map (fun c => (n, c)))

/-! Effects (R70, R72). -/

/-- Whether a bundle's loads, whose acts are given, leave accesses to the own scratchpad to perform later. -/
def leavesOwn (s : State) (q : Nat) (loads : List Act) : Bool :=
  !loads.isEmpty && (applyActs loads s).work.accesses.any (fun a => !a.performed && a.q = q && a.issue = s.cyc && a.own s)

/-- The rows that an operation reads: those it names, but for once each row it writes, or in an M slot the row its result goes to. -/
def Op.sources (o : Op) (x : Ctx) (s : State) : List Nat :=
  if 6 ≤ x.slot && o.nres ≠ 0 then (o.rows x s).drop 1 else o.wrows.foldl List.erase (o.rows x s)

/-- The single flips that a bundle's reads of rows correct and count (R359); an XE command, in slot X without a row it writes, has its rows
read by the MXE later. -/
def rowFlips (s : State) (q addr size : Nat) (l : List Issue) : List Act :=
  rowChecks s (q / 4) ((List.range 8).flatMap (fun n =>
    let o := (l.getD n {}).op
    if n = 5 && o.wrows.isEmpty then [] else o.sources (slotCtx q addr size l n) s))

/-- The acts of the slots: the loads of M0 and M1, which read before anything of the bundle writes memory (R72, R262); S0, S1, then X,
whose XSCALE precedes a VAMAX of the bundle (R56), V0 to V2, then the other operations of M0 and M1. Registers are read from s throughout. -/
def slotActs (s : State) (q addr size : Nat) (l : List Issue) : List Act :=
  let m := [6, 7]
  let loads := (m.filter (fun n => (l.getD n {}).op.isLoad)).flatMap (fun n => (l.getD n {}).op.acts (slotCtx q addr size l n) s)
  let act := fun n => (l.getD n {}).op.acts { slotCtx q addr size l n with lateOwn := leavesOwn s q loads } s
  rowFlips s q addr size l ++ loads ++ [0, 1, 5, 2, 3, 4].flatMap act ++ (m.filter (fun n => !(l.getD n {}).op.isLoad)).flatMap act

/-- The bundle that follows an issue: at most one of S1, M0 and M1 names one (R89). -/
def nextOf (s : State) (q addr size : Nat) (l : List Issue) : Next :=
  match ([1, 6, 7].map (fun n => (l.getD n {}).op.next (slotCtx q addr size l n) s)).find? (fun x => x ≠ .seq) with
  | some x => x
  | none => .seq

/-- The end checks as a bundle at addr hands the counter to n (R121), innermost entry first: the stack and the counter after
them, and the LOOPP entry whose pass they end, with whether it was the last. -/
def endChecks (addr : Nat) : List LoopEntry → Nat → List LoopEntry × Nat × Option (LoopEntry × Bool)
  | [], n => ([], n, none)
  | e :: l, n =>
    if e.start ≤ addr && addr < e.stop && n = e.stop then
      if e.index + 1 < e.count then ({ e with index := e.index + 1 } :: l, e.start, if e.pipe then some (e, false) else none)
      else
        let r := endChecks addr l n
        (r.1, r.2.1, if e.pipe then some (e, true) else r.2.2)
    else (e :: l, n, none)

/-- Moves a sequencer past the bundle it has issued (R76, R121 to R126): a LOOPP pass that ends performs what its stage count
releases, or waits for the rollback that a poisoned load asks for. -/
def advance (s : State) (q addr size : Nat) (nx : Next) : List Act :=
  let y := s.seqOf q
  let stack := y.loops.reverse
  match nx with
  | .resume _ => []
  | .lexit k t =>
    let loops := (stack.drop k).reverse
    let pipe := (stack.take k).any (fun e => e.pipe)
    if pipe && y.rollback.isSome then [.seq q (fun y => { y with passEnd := some (loops, t.toNat) })]
    else
      (if pipe then releaseHeld s q y.window else []) ++
        [.seq q (fun y => { y with pc := t.toNat, loops := loops, window := if pipe then [] else y.window
                                   rolledBack := y.rolledBack && !pipe })]
  | .seq | .branch _ | .free _ | .zeroLoop _ =>
    let n := match nx with | .branch t | .free t | .zeroLoop t => t.toNat | _ => addr + size
    let r := endChecks addr stack (n % 2 ^ 32)
    match r.2.2 with
    | none => [.seq q (fun y => { y with pc := r.2.1, loops := r.1.reverse })]
    | some (e, last) =>
      if y.rollback.isSome then [.seq q (fun y => { y with passEnd := some (r.1.reverse, r.2.1) })]
      else
        let goes := fun (h : Held) => last || h.pass + e.stage ≤ e.index
        releaseHeld s q (y.window.filter goes) ++
          [.seq q (fun y => { y with pc := r.2.1, loops := r.1.reverse, window := y.window.filter (fun h => !goes h)
                                     rolledBack := y.rolledBack && !(last || y.rbPass + e.stage ≤ e.index) })]

/-- The repetitions still to come after the first (R131, R133). -/
def startRep (q addr : Nat) (r : Rep) : List Act :=
  if 2 ≤ r.count && r.mask ≠ 0 then [.seq q (fun y => { y with rep := some ⟨r.count - 1, r.mask, r.sd, r.sa, r.sb, addr, 1⟩ })] else []

/-- The precise trap of a fault (R90, R295). -/
def precise (code : Nat) (slot : Nat) (addr : Nat) : Cause :=
  ⟨code, if code = cIllegalStream then none else some slot, false, 0, addr⟩

/-- Issues the slots of a bundle of sequencer q (R70, R91): its fault is trapped and nothing takes effect, or every slot takes
effect and the sequencer moves on. -/
def issueActs (s0 : State) (q addr size : Nat) (r : Rep) (l : List Issue) : List Act :=
  let arm := armLatches s0 q
  let s := applyActs arm s0
  match issueFault s q addr size r l with
  | some (n, code) =>
    arm ++ (l.getD n {}).op.onTrap code (slotCtx q addr size l n) s ++ takeTrap s q addr (precise code n addr)
  | none =>
    let a := slotActs s q addr size l ++ startRep q addr r
    arm ++ a ++ advance (applyActs a s) q addr size (nextOf s q addr size l)

/-- The next repetition of a REP (R131, R133): the targeted slots alone, their fields advanced; its fault leaves the REP state as
it is. pc has gone on to the bundle after the REP, so that is the EPC of a trap between two repetitions (log 91). -/
def repeatActs (s0 : State) (q : Nat) (p : RepState) (slots : List Instr) : List Act :=
  let arm := armLatches s0 q
  let s := applyActs arm s0
  let r : Rep := ⟨p.mask, p.sd, p.sa, p.sb, 1⟩
  let l : List Issue := slots.mapIdx fun n i =>
    if r.targets n then { enc := i.encoding, op := opRepeat r p.next i, last := opRepeat r p.next i } else {}
  match (List.range 8).findSome? (fun n => (slotCause s q p.addr 2 (repeatLimit s q l) l n).map (fun c => (n, c))) with
  | some (n, code) => arm ++ takeTrap s q (s.seqOf q).pc (precise code n p.addr)
  | none =>
    arm ++ slotActs s q p.addr 2 l ++
      [.seq q (fun y => { y with rep := if p.remain ≤ 1 then none else some { p with remain := p.remain - 1, next := p.next + 1 } })]

/-! The meanings of bundles and of single slots. -/

/-- The eight slots of a bundle; another instruction stands for a bundle of NOPs. -/
def slotsOf : Instr → List Instr
  | .bundleIssue s0 s1 v0 v1 v2 x m0 m1 => [s0, s1, v0, v1, v2, x, m0, m1]
  | _ => List.replicate 8 .nop

/-- The REP of a bundle at issue: its count read now. -/
def bundleRep (s : State) (q addr size : Nat) (slots : List Instr) : Rep :=
  match slots.getD 1 .nop with
  | .rep f => repFields f (repCount f { q := q, slot := 1, addr := addr, size := size } s)
  | _ => {}

/-- The length in the stream of the bundle at a sequencer's counter: an escape word begins 50 bytes (R73). -/
def sizeAt (s : State) (q : Nat) : Nat := if (s.coreOf (q / 4)).streamWord (s.seqOf q).pc = 0xFFFF then 50 else 2

/-- What sequencer q does on its turn with the bundle at its counter, once decoded. -/
def bundleActs (s : State) (q : Nat) (slots : List Instr) : List Act :=
  let addr := (s.seqOf q).pc
  let size := sizeAt s q
  let r := bundleRep (applyActs (armLatches s q) s) q addr size slots
  issueActs s q addr size r (bundleSlots r slots)

/-- BUNDLE_ISSUE: the sequencer at the cursor issues the bundle (R70). -/
def execBundleIssue (s0 s1 v0 v1 v2 x m0 m1 : Instr) (s : State) : Host.Outcome State Fault Refusal :=
  done (bundleActs s s.cur.q [s0, s1, v0, v1, v2, x, m0, m1] ++ [bump]) s

/-- The slot in which an operation of a class stands alone: the cursor's if it is of that class, else its first; S1 for those
legal there only (R69). -/
def slotFor (c : SlotClass) (op n : Nat) : Nat :=
  if c = .s && 0x30 ≤ op && op ≤ 0x47 then 1
  else if n < 8 && slotClass n = c then n
  else match c with | .s => 0 | .v => 2 | .x => 5 | .m => 6

/-- The slots of a bundle that holds one operation, of class c and opcode op, in slot n. -/
def loneSlot (c : SlotClass) (op : Nat) (o : Op) (n : Nat) : List Issue :=
  (List.range 8).map (fun k => if k = n then { enc := some ⟨c, BitVec.ofNat 8 op, 0, 0, 0, true⟩, op := o, last := o } else {})

/-- A slot operation issued alone by the sequencer at the cursor (log 12). -/
def runSlot (c : SlotClass) (op : Nat) (o : Op) (s : State) : Host.Outcome State Fault Refusal :=
  let q := s.cur.q
  done (issueActs s q (s.seqOf q).pc (sizeAt s q) {} (loneSlot c op o (slotFor c op s.cur.slot)) ++ [bump]) s

/-- NOP has no effect beyond its turn (R69). -/
def execNop (s : State) : Host.Outcome State Fault Refusal := runSlot .s 0 {} s

end Sys2Proof.Machine
end

