-- ==== Sys2Proof/Machine/Landing.lean ====
section
/-! DEFINITION. Results land and loads' data arrive (02 R23 to R28, 08 R208, 12 R277, 13 R297, R298), traps are entered (12 R275, R276,
13 R294 to R301), and LOOPP rolls back (06 R126, R127). -/

namespace Sys2Proof.Machine

/-! Landing (R27, R28). -/

/-- Whether a result may land at this cycle: it is not held in a handler's place, and its data have come. -/
def landable (f : Flight) : Bool := !f.held && f.missing = 0

/-- RESULT_LAND: the result lands (R27, R28). -/
def landActs (s : State) (f : Flight) : List Act :=
  if landable f then landing s f ++ [.work (fun w => { w with flights := flightsAfter s f })] else []

def execResultLand (id : Nat) (s : State) : Host.Outcome State Fault Refusal :=
  done ((match s.flightOf id with | some f => landActs s f | none => []) ++ [bump]) s

/-! Loads (R208, R277, R297). -/

/-- The index of a result in its trap frame's latch list. -/
def Flight.latchIndex (f : Flight) : Option Nat :=
  match f.mode with
  | .latched i | .frozen i | .landed i => some i
  | _ => none

/-- A scalar load's value and poison as they arrive, written into the frame's latch (R297). -/
def latchValue (s : State) (f : Flight) : List Act :=
  match f.mode, f.dest, f.val with
  | .latched i, .scalar _, .word v p =>
    if f.missing = 0 then
      let off := frameOff f.q + 0xE00 + 32 * i
      let w := leValue (s.readBytes (.spd (f.q / 4)) off 4)
      [putBytes (f.q / 4) off (leBytes 4 (w / 2 ^ 15 * 2 ^ 15 + (if p then 2 ^ 14 else 0) + w % 2 ^ 14)), putBytes (f.q / 4) (off + 8) (leBytes 8 v.toNat)]
    else []
  | _, _, _ => []

/-- The frame's latch brought up to date after acts on a result. -/
def latchAfter (s : State) (l : List Act) (id : Option Nat) : List Act :=
  match id with
  | none => []
  | some id => match (applyActs l s).flightOf id with | some f => latchValue (applyActs l s) f | none => []

/-- A VLDB that a drain has held back reads its column (R210, R218); one that has missed its promise brings nothing. -/
def columnArrives (s : State) (a : Access) (off : Nat) : List Act :=
  let pre := eccChecks s (columnPlaces (a.q / 4) off) a.fn
  let t := applyActs pre s
  pre ++ [.work (fun w => w.dropAccess a.id)] ++
    (if a.lost then [countDropped a.fn]
     else
      (match a.flight with
       | some f => [modFlight f (fun g => { g with val := .rows [columnRow t (a.q / 4) off], missing := 0, got := BitVec.allOnes 1024 })]
       | none => []) ++ columnError t a.q off a.pass a.hnd)

/-- LOAD_DATA_ARRIVAL: a load's unit performs and its data arrive, or its fault is found (R208, R245). -/
def loadActs (s : State) (a : Access) : List Act :=
  match a.kind, a.trans with
  | .load, .none | .load, .done _ => let l := loadArrives s a; l ++ latchAfter s l a.flight
  | .load, .fault k => accessFault s a k
  | .column off, _ => columnArrives s a off
  | _, _ => []

def execLoadDataArrival (id : Nat) (s : State) : Host.Outcome State Fault Refusal :=
  done ((match s.accessOf id with | some a => loadActs s a | none => []) ++ [bump]) s

/-- LOAD_PROMISE_MISS: data that have not come by the bound are discarded, and the destination is poisoned (R208, R24). -/
def promiseMissActs (s : State) (f : Flight) : List Act :=
  if f.missing = 0 || s.cyc < f.due then []
  else
    let l : List Act := [modFlight f.id Flight.poisonAll,
      .work (fun w => { w with accesses := w.accesses.map (fun a => if a.flight = some f.id then { a with lost := true } else a) })]
    l ++ latchAfter s l (some f.id)

def execLoadPromiseMiss (id : Nat) (s : State) : Host.Outcome State Fault Refusal :=
  done ((match s.flightOf id with | some f => promiseMissActs s f | none => []) ++ [bump]) s

/-- LATCHED_LOAD_FAULT: the fault record goes into the latch in the frame, whose poison bit is set; the event is pending and is
delivered once the latch has landed (R277). -/
def latchedFaultActs (s : State) (a : Access) (sub addr : Nat) : List Act :=
  match a.flight with
  | none => []
  | some id =>
    match s.flightOf id with
    | none => []
    | some f =>
      match f.latchIndex with
      | none => []
      | some ix =>
        let c := f.q / 4
        let e : Pending := { code := 0x20, slot := a.slot, sub := sub, faddr := a.addr, addr := addr, flight := some id }
        let n := frameField s f.q 0x10 20 8
        let off := frameOff f.q + 0xE00 + 32 * ix
        let w := leValue (s.readBytes (.spd c) off 4)
        let l : List Act := [modFlight id (fun g => { g.poisonAll with faulted := true }),
          .work (fun w => { w with accesses := w.accesses.filter (fun b => b.flight ≠ some id) })]
        l ++ pushEvent s f.q e ++
          (if n < 64 then
            [putBytes c off (leBytes 4 (w % 2 ^ 14 + 2 ^ 14 + 2 ^ 15 + 2 ^ 16 * n)), putBytes c (off + 8) (leBytes 8 0),
             putBytes c (frameOff f.q + 0x1600 + 64 * n) e.bytes,
             putBytes c (frameOff f.q + 0x10)
               (leBytes 8 (let h := frameField s f.q 0x10 0 64; h % 2 ^ 20 + 2 ^ 20 * (n + 1) + h / 2 ^ 28 * 2 ^ 28))]
           else [])

def execLatchedLoadFault (id sub addr : Nat) (s : State) : Host.Outcome State Fault Refusal :=
  done ((match s.accessOf id with | some a => latchedFaultActs s a sub addr | none => []) ++ [bump]) s

/-! Traps (R275, R276, R301). -/

/-- Whether the timer interrupt of a sequencer is due at cycle t (R275). -/
def timerDue (y : Seq) (t : Nat) : Bool := y.tcmp.getLsbD 48 && ((t : Int) - (y.tcmp.extractLsb' 0 48).toNat) % 2 ^ 48 < 2 ^ 47

/-- TRAP_ENTRY: sequencer q takes the trap at this boundary (R276). -/
def execTrapEntry (q : Nat) (cause : Cause) (s : State) : Host.Outcome State Fault Refusal :=
  done (takeTrap s q (s.seqOf q).pc cause ++ [bump]) s

/-- The cause record of an asynchronous trap without a causing bundle: FADDR equals EPC (R295). -/
def asyncCause (s : State) (q code : Nat) : Cause := ⟨code, none, false, 0, (s.seqOf q).pc⟩

/-- TIMER_INTERRUPT: an armed sequencer outside a handler takes the timer interrupt once CYC has reached TIME (R275, R300);
between two repetitions of a REP, EPC and FADDR name the bundle after it (log 91). -/
def execTimerInterrupt (q : Nat) (s : State) : Host.Outcome State Fault Refusal :=
  done ((if timerDue (s.seqOf q) s.cyc && !(s.seqOf q).hnd then takeTrap s q (s.seqOf q).pc (asyncCause s q 0x30) else []) ++ [bump]) s

/-! LOOPP (R126, R127). -/

/-- LOOPP_ROLLBACK: the pass has ended and nothing is in flight: the held stores of the passes before p perform, the others are
discarded; the loop goes back to the prologue for pass p, or the trap of R127 comes at the next boundary. -/
def rollbackActs (s : State) (q : Nat) : List Act :=
  let y := s.seqOf q
  match y.passEnd, y.rollback, y.loops.getLast? with
  | some (loops, pc), some p, some e =>
    let kept := y.window.filter (fun h => h.pass < p)
    if y.rollEsc || p + e.stage < e.index then
      releaseHeld s q kept ++
        [.seq q (fun y => { y with loops := loops, pc := pc, window := [], rollback := none, rollEsc := false, passEnd := none, escalate := true }),
         post s 0x14 (s.fnOf (q / 4)) (q / 4) e.start 0]
    else
      releaseHeld s q kept ++
        [.seq q (fun y => { y with loops := y.loops.dropLast ++ [{ e with index := p }], pc := e.prologue, window := [], rollback := none
                                   passEnd := none, reent := true, rolledBack := true, rbPass := p }),
         post s 0x13 (s.fnOf (q / 4)) (q / 4) e.start 0]
  | _, _, _ => []

def execLooppRollback (q : Nat) (s : State) : Host.Outcome State Fault Refusal := done (rollbackActs s q ++ [bump]) s

end Sys2Proof.Machine
end

