-- ==== Sys2Proof/Machine/Engine.lean ====
section
/-! DEFINITION. What the matrix engine does from its start cycle on: routines and their groups (03 R58 to R61, 08 R191 to R194, R379),
tile rows (R197), MZERO, MUCLD, MBLD (R196, R198, R199), drains and checksums (R200 to R206). -/

namespace Sys2Proof.Machine

/-! Stopping a command (R188, R194, R379). -/

/-- Why a command stops: the cause, SUB and address of its deferred fault (R295, R299). -/
structure Stop where
  code : Nat
  sub : Nat := 0
  addr : Nat := 0
  deriving DecidableEq, Repr

/-- Operand not ready (R188). -/
def notReady (addr : Nat) : Stop := ⟨0x23, 4, addr⟩

/-- Changes one command. -/
def modCommand (id : Nat) (f : Command → Command) : Act :=
  .work (fun w => { w with commands := w.commands.map (fun y => if y.id = id then f y else y) })

/-- The cycle at which a command's results are in place: S + D. -/
def Command.finish (y : Command) : Nat := y.start + y.dur

/-- Rows that a command writes, in place no later than S + D (R193, R196). -/
def engineRows (s : State) (y : Command) (row : Nat) (ws : List RowWrite) : Act :=
  .work (fun w => w.push { id := 0, q := y.q, dest := .rows row, val := .rows ws, issue := s.cyc, due := y.finish, slot := y.slot
                           addr := y.addr, engine := true, hnd := y.hnd })

/-- A whole row poisoned: poison(d) in all its lanes (R188). -/
def poisonedRow : RowWrite := writeWhole { poison := BitVec.allOnes 512 }

/-- The descriptors of a routine's entry, from the mp registers read at issue (R193). -/
def Command.descs (s : State) (y : Command) : List Word :=
  match y.kind with
  | .mcall rtn => let m := entryMask (s.routineOf (y.q / 4) rtn); ((List.range 8).filter (fun k => m.testBit k)).map (fun k => y.mp.getD k 0)
  | _ => []

/-- The units of BOS slice bytes off to off + n - 1 of every column poisoned (R188, R199). -/
def poisonBos (c off n : Nat) : List Act :=
  (List.range 512).flatMap (fun j =>
    (List.range (unitCount (4096 * j + off) n)).map (fun i => Act.mark (.bos c) ((4096 * j + off) / 8 + i) .stored))

/-- Stops a command (R188): what it would have written is poisoned, and its fault is delivered from S + D on. The flags that the groups of a
stopped routine have met are dropped (DESIGN CHOICE, log 75: R61 sets them where a routine ends). -/
def stopCommand (s : State) (y : Command) (e : Stop) : List Act :=
  modCommand y.id (fun y => { y with stopped := true }) ::
    ((y.descs s).map (fun d => engineRows s y (descRow0 d) ((descNames d).map (fun _ => poisonedRow))) ++
     (match y.kind with | .mbld _ off n => poisonBos (y.q / 4) off n | _ => []) ++
     pushEvent s y.q { code := e.code, slot := y.slot, sub := e.sub, faddr := y.addr, addr := e.addr, notBefore := y.finish })

/-- Whether n bytes of core c's scratchpad are not ready: a block write-pending, or still to be filled by a copy (R188). -/
def spdNotReady (s : State) (c off n : Nat) : Bool :=
  let lo := off / 4096
  let hi := (off + n - 1) / 4096
  (s.coreOf c).writePending.any (fun e => lo ≤ e.1 && e.1 ≤ hi && s.cyc ≤ e.2 + 1) ||
    s.work.copies.any (fun y =>
      (y.op = 0x11 || y.op = 0x13) &&
        (let p := locate s (y.q / 4) y.dst
         p.1 = .spd c && (p.2 + y.cursor) / 4096 ≤ hi && lo ≤ (p.2 + y.len - 1) / 4096))

/-- Whether the BOS of a core is not ready: a CPYB of the core is incomplete (R188). -/
def bosNotReady (s : State) (c : Nat) : Bool := s.work.copies.any (fun y => y.op = 0x14 && y.q / 4 = c)

/-! Exact products and sums (R58, R59). -/

/-- The exact product of two values; zero times infinity is invalid. -/
def productExact (x y : FloatVal) : FloatVal :=
  match x, y with
  | .nan s, .nan t => .nan (s || t)
  | .nan s, _ => .nan s
  | _, .nan t => .nan t
  | .inf s, .inf t => .inf (s != t)
  | .inf s, .fin t m _ => if m = 0 then .nan true else .inf (s != t)
  | .fin s m _, .inf t => if m = 0 then .nan true else .inf (s != t)
  | .fin s m e, .fin t n f => .fin (s != t) (m * n) (e + f)

/-- The exact sum of values: a NaN among them, or infinities of both signs, is invalid; a zero sum is -0 only of all -0. -/
def sumExact (l : List FloatVal) : FloatVal :=
  if l.any (fun v => v.isNaN) || (l.contains (.inf true) && l.contains (.inf false)) then .nan true
  else if l.contains (.inf true) then .inf true
  else if l.contains (.inf false) then .inf false
  else
    let d := alignDyadics (l.map (fun v => match v with | .fin s m e => (signed s m, e) | _ => (0, 0)))
    let n := d.1.foldl (· + ·) 0
    let negZero := !l.isEmpty && l.all (fun v => match v with | .fin s m _ => s && m = 0 | _ => false)
    .fin (n < 0 || negZero) n.natAbs d.2

/-- The element format of code 1 or 2 (R29). -/
def operandFormat (k : Nat) : FloatFormat := if k = 1 then bf16 else fp16

/-- n elements of 16 bits. -/
def halves (f : FloatFormat) (n : Nat) (bs : List Byte) : List FloatVal :=
  (List.range n).map (fun i => f.value (leValue ((bs.drop (2 * i)).take 2)))

/-- What one group adds to every accumulation of its C row: nothing, or a value (R58, R59). -/
inductive Term where
  | nothing
  | value (v : FloatVal)
  deriving DecidableEq, Repr

/-- The term of one block pair (R59): exponent bytes, planes and group scales. For a Ga or Gb that is infinite or a NaN it is the IEEE product
(zero times infinity and a signalling NaN are invalid), and a zero term is +0 (DESIGN CHOICE, log 75). -/
def bxTerm (b ea eb : Nat) (pa pb : List Byte) (ga gb : Nat) : Term :=
  if ea = 0 || eb = 0 then .nothing
  else if ea = 0xFF || eb = 0xFF then .value (.nan true)
  else
    let d := (List.range 32).foldl (fun a e => a + bxMantissa b pa e * bxMantissa b pb e) (0 : Int)
    let v := productExact (productExact (.fin (d < 0) d.natAbs ((ea : Int) + eb - 254 - 2 * ((b : Int) - 1))) (bf16.value ga)) (bf16.value gb)
    .value (match v with | .fin _ 0 _ => .fin false 0 0 | w => w)

/-- An XA128 value packed with its marks above it. -/
def packXa (x : Xa) : Nat := x.n.toNat + (if x.p then 2 ^ 128 else 0) + (if x.q then 2 ^ 129 else 0)
def unpackXa (v : Nat) : Xa := ⟨BitVec.ofNat 128 v, v.testBit 128, v.testBit 129⟩

/-- An accumulation after a term, with its flags (R58 to R60). -/
def accumulate (xa : Bool) (anchor : Int) (acc : Nat) (t : Term) : Nat × LaneFlags :=
  match t with
  | .nothing => (acc, 0)
  | .value v =>
    if xa then
      let c := xaOfVal anchor v
      (packXa ((unpackXa acc).add c.1), c.2)
    else
      let r := addVal fp32 .rne (fp32.value acc) v
      (r.bits, r.flags)

/-! Operand reads (R191, R197, R379). -/

/-- n bytes of a core's scratchpad as its engines read them, with their poison (R262). -/
def engineBytes (s : State) (c off n : Nat) : List Byte × List Bool := (readForeign s (.spd c) off n none).unzip

/-- n bytes of the A operand at byte off from the A base: own scratchpad below the system area, or rows of the staging store. -/
def readA (s : State) (y : Command) (r : Routine) (off n : Nat) : Except Stop (List Byte × List Bool) :=
  let c := y.q / 4
  match r.aRow with
  | some (th, row) =>
    let k := row + off / 2048
    let st := SMap.get {} s.staging (32 * (64 * c + th) + k)
    if 32 ≤ k || !st.present || st.bad then .error (notReady 0)
    else .ok ((st.bytes.drop (off % 2048)).take n, (st.poison.drop (off % 2048)).take n)
  | none =>
    let a := (r.aBase + off) % 2 ^ 64
    if r.aBase % 64 ≠ 0 || windowOf a ≠ 4 || Config.systemArea ≤ a % 2 ^ 22 then .error ⟨0x25, 0, a⟩
    else if Config.systemArea < a % 2 ^ 22 + n then .error ⟨0x25, 0, windowBase 4 + Config.systemArea⟩
    else if spdNotReady s c (a % 2 ^ 22) n then .error (notReady a)
    else .ok (engineBytes s c (a % 2 ^ 22) n)

/-- Whether n bytes from off lie in a BOS slice and may be read (R188, R379). -/
def checkB (s : State) (c off n : Nat) : Option Stop :=
  if 4096 < off + n then some ⟨0x25, 0, max off 4096⟩ else if bosNotReady s c then some (notReady off) else none

/-- n bytes of slice j and whether a unit of them is poisoned. -/
def readB (s : State) (c j off n : Nat) : List Byte × Bool :=
  (s.readBytes (.bos c) (4096 * j + off) n, (s.readPoison (.bos c) (4096 * j + off) n).any (fun p => p))

/-- The group scale Ga of the A feed: a scale record named by the routine's copy of mp((P + 1) mod 8) (R178, R191, R379). -/
def readGa (s : State) (y : Command) (r : Routine) : Except Stop (Nat × Bool) :=
  let a := (r.mp.getD ((r.mpIndex + 1) % 8) 0).toNat
  let c := y.q / 4
  if a < ownBase || Config.systemArea ≤ a - ownBase || a % 32 ≠ 0 then .error ⟨0x25, 0, a⟩
  else if spdNotReady s c (a - ownBase) 32 then .error (notReady a)
  else let b := engineBytes s c (a - ownBase) 32; .ok (recField b.1 208 16, b.2.any (fun p => p))

/-- The terms of one group for the 512 columns, none where the group poisons the column (R58, R59, R379). -/
def groupTerms (s : State) (y : Command) (r : Routine) : Except Stop (List (Option Term)) :=
  let c := y.q / 4
  if fmtA y.fmt = 3 then
    let b := fmtBx y.fmt
    let k := r.k / 32
    match readA s y r (2048 * (k / 16) + 4 * b * (k % 16)) (4 * b), readA s y r (2048 * (k / 16) + 1536 + k % 16) 1, readGa s y r with
    | .ok pa, .ok ea, .ok ga =>
      match checkB s c (r.bOff + 4 * b * k) (4 * b), checkB s c (r.bOff + 2048 + k) 1 with
      | none, none =>
        let bad := pa.2.any (fun p => p) || ea.2.any (fun p => p) || ga.2
        .ok ((List.range 512).map (fun j =>
          let pb := readB s c j (r.bOff + 4 * b * k) (4 * b)
          let eb := readB s c j (r.bOff + 2048 + k) 1
          let gb := readB s c j 4094 2
          if bad || pb.2 || eb.2 || gb.2 then none else some (bxTerm b (leValue ea.1) (leValue eb.1) pa.1 pb.1 ga.1 (leValue gb.1))))
      | some e, _ => .error e
      | none, some e => .error e
    | .error e, _, _ => .error e
    | _, .error e, _ => .error e
    | _, _, .error e => .error e
  else
    match readA s y r (2 * r.k) 8 with
    | .error e => .error e
    | .ok a =>
      match checkB s c (r.bOff + 2 * r.k) 8 with
      | some e => .error e
      | none =>
        let av := halves (operandFormat (fmtA y.fmt)) 4 a.1
        .ok ((List.range 512).map (fun j =>
          let b := readB s c j (r.bOff + 2 * r.k) 8
          if a.2.any (fun p => p) || b.2 then none
          else some (.value (sumExact ((av.zip (halves (operandFormat (fmtB y.fmt)) 4 b.1)).map (fun e => productExact e.1 e.2))))))

/-- The accumulations of a C row as its lanes stand at its first MACK (R193); none for a poisoned lane. -/
def readC (s : State) (c : Nat) (xa : Bool) (row : Nat) : List (Option Nat) :=
  if xa then
    (List.range 4).flatMap (fun i =>
      let v := s.readRow c (row + i) 128 i
      (List.range 128).map (fun j => if v.lanePoison 128 j then none else some (packXa (v.xa j))))
  else
    let v := s.readRow c row 32 0
    (List.range 512).map (fun j => if v.lanePoison 32 j then none else some (v.lane 32 j))

/-- Accumulations after a group's terms, with the flags of each column. -/
def addTerms (xa : Bool) (anchor : Int) (accs : List (Option Nat)) (ts : List (Option Term)) : List (Option Nat × LaneFlags) :=
  (accs.zip ts).map (fun e => match e with
    | (some a, some t) => let r := accumulate xa anchor a t; (some r.1, r.2)
    | _ => (none, 0))

/-- The flags of two sets. -/
def FlagSet.or (f g : FlagSet) : FlagSet := ⟨f.iv ||| g.iv, f.dz ||| g.dz, f.ov ||| g.ov, f.uf ||| g.uf, f.nx ||| g.nx, f.wrap ||| g.wrap⟩

/-- The key of a C row among a routine's accumulations. -/
def rowKey (row : Nat) (xa : Bool) : Nat := 2 * row + (if xa then 1 else 0)

/-- One group of a MACK for the current C row; without one, only k advances (R192). -/
def mxeGroup (s : State) (y : Command) (r : Routine) : Except Stop Routine :=
  let step := if fmtA y.fmt = 3 then 32 else 4
  match r.cur with
  | none => .ok { r with k := r.k + step }
  | some (xa, row, _) =>
    match groupTerms s y r with
    | .error e => .error e
    | .ok ts =>
      let key := rowKey row xa
      let old := match SMap.get [] r.accs key with | [] => readC s (y.q / 4) xa row | l => l
      let new := addTerms xa (fmtAnchor y.fmt) old ts
      let ck := match SMap.get [] r.sumAccs key with | [] => List.replicate 512 (some 0) | l => l
      .ok { r with k := r.k + step, accs := SMap.set [] r.accs key (new.map (fun e => e.1))
                   sumAccs := if r.sums then SMap.set [] r.sumAccs key ((addTerms xa (fmtAnchor y.fmt) ck ts).map (fun e => e.1)) else r.sumAccs
                   flags := r.flags.or (flagSet false (new.map (fun e => e.2))) }

/-! Microwords (R190, R191). -/

/-- The microword index after words that idle for no clock. -/
def skipIdle (s : State) (c : Nat) : Nat → Nat → Nat
  | 0, pc => pc
  | fuel + 1, pc => if s.microword c pc = BitVec.ofNat 64 (8 * 2 ^ 60) then skipIdle s c fuel ((pc + 1) % 4096) else pc

/-- The C row that ACCSEL selects (R192). -/
def selectC (d : Word) (off : Nat) : Option (Bool × Nat × Nat) :=
  if descRows d ≤ off || 2 ≤ descLayout d then none
  else if descLayout d = 1 then some (true, descRow0 d + 4 * off, off)
  else some (false, descRow0 d + off, off)

/-- The clocks a group takes (R191). -/
def groupClocks (y : Command) : Nat := if fmtA y.fmt = 3 then (fmtBx y.fmt + 1) / 2 else 1

/-- A group in this clock, the rest of its clocks idle. -/
def mackClock (s : State) (y : Command) (r : Routine) : Except Stop Routine :=
  match mxeGroup s y r with
  | .error e => .error e
  | .ok r => .ok { r with left := r.left - 1, idle := groupClocks y - 1 }

/-- The microword at the routine's position, executed in its first clock (R191). first is the routine's first microword. -/
def microStep (s : State) (y : Command) (first : Nat) (r : Routine) : Except Stop Routine :=
  let pc := skipIdle s (y.q / 4) 4096 r.pc
  let w := s.microword (y.q / 4) pc
  let v := w.toNat
  let r := { r with pc := (pc + 1) % 4096 }
  let p := uwP w
  if uwInvalid w then .error ⟨0x24, 0, 0⟩
  else
    match uwCode w with
    | 0 => .ok { r with ended := true }
    | 1 =>
      if w.getLsbD 56 then .ok { r with aRow := some (v / 2 ^ 50 % 64, v / 2 ^ 32 % 32), aBase := 0, mpIndex := p, k := 0 }
      else .ok { r with aRow := none, aBase := (r.mp.getD p 0).toNat, mpIndex := p, k := 0 }
    | 2 => .ok { r with bOff := (r.mp.getD p 0).toNat % 4096 }
    | 3 =>
      let trace : Mack := { row := match r.cur with | some (_, row, _) => row | none => 512, aRow := r.aRow, aBase := r.aBase
                            scale := (r.mp.getD ((r.mpIndex + 1) % 8) 0).toNat, bOff := r.bOff, k := r.k, groups := v % 2 ^ 16 }
      mackClock s y { r with left := v % 2 ^ 16, macks := if r.sums then r.macks ++ [trace] else r.macks }
    | 4 => .ok { r with cur := selectC (r.mp.getD p 0) (v % 512) }
    | 5 => .ok { r with sums := w.getLsbD 0 }
    | 6 =>
      let n := SMap.get 0 r.loops pc
      let count := if n = 0 then v % 2 ^ 16 - 1 else n - 1
      if 0 < count then .ok { r with pc := (first + v / 2 ^ 16 % 4096) % 4096, loops := SMap.set 0 r.loops pc count }
      else .ok { r with loops := SMap.set 0 r.loops pc 0 }
    | 7 => .ok { r with mp := modifyAt p (fun m => m + (w.extractLsb' 0 32).signExtend 64) r.mp }
    | _ => .ok { r with idle := 4 * (v % 2 ^ 16) - 1 }

/-- One clock of a routine. -/
def mxeClock (s : State) (y : Command) (first : Nat) (r : Routine) : Except Stop Routine :=
  if r.ended then .ok r
  else if 0 < r.idle then .ok { r with idle := r.idle - 1 }
  else if 0 < r.left then mackClock s y r
  else microStep s y first r

/-- What the group of a clock reads of the own scratchpad and the BOS (R52, R191). -/
def groupReads (y : Command) (r : Routine) : List (Home × Nat × Nat) :=
  let c := y.q / 4
  let b := fmtBx y.fmt
  let k := r.k / 32
  let bx := fmtA y.fmt = 3
  let a : List (Nat × Nat) :=
    if r.aRow.isSome then []
    else if bx then [(2048 * (k / 16) + 4 * b * (k % 16), 4 * b), (2048 * (k / 16) + 1536 + k % 16, 1)] else [(2 * r.k, 8)]
  let col : List (Nat × Nat) := if bx then [(r.bOff + 4 * b * k, 4 * b), (r.bOff + 2048 + k, 1), (4094, 2)] else [(r.bOff + 2 * r.k, 8)]
  a.map (fun e => (.spd c, (r.aBase + e.1) % 2 ^ 22, e.2)) ++
    (if bx then [(.spd c, (r.mp.getD ((r.mpIndex + 1) % 8) 0).toNat - ownBase, 32)] else []) ++
    (List.range 512).flatMap (fun j => col.map (fun e => (.bos c, 4096 * j + e.1, e.2)))

/-- What n clocks of a routine read (R359). -/
def clocksRead (s : State) (y : Command) (first : Nat) : Nat → Routine → List (Home × Nat × Nat)
  | 0, _ => []
  | n + 1, r =>
    (if !r.ended && r.idle = 0 && 0 < r.left && r.cur.isSome then groupReads y r else []) ++
      (match mxeClock s y first { r with clocks := r.clocks + 1 } with | .ok r => clocksRead s y first n r | .error _ => [])

/-- n clocks of a routine. -/
def mxeClocks (s : State) (y : Command) (first : Nat) : Nat → Routine → Except Stop Routine
  | 0, r => .ok r
  | n + 1, r =>
    match mxeClock s y first { r with clocks := r.clocks + 1 } with
    | .error e => .error e
    | .ok r => mxeClocks s y first n r

/-! The end of a routine (R61, R193, R204). -/

/-- The writes that an accumulated C row makes to its ACS rows. -/
def accRows (xa : Bool) (l : List (Option Nat)) : List RowWrite :=
  if xa then
    (chunks 128 4 l).map (fun part => writeLanes 128 (part.map (fun o => match o with
      | some v => some { bits := v % 2 ^ 128, p := v.testBit 128, q := v.testBit 129 }
      | none => some .poisoned)))
  else [writeLanes 32 (l.map (fun o => match o with | some v => some { bits := v } | none => some .poisoned))]

/-- The exact sum of FP32 patterns, rounded RNE (R205); a poisoned one makes it a NaN. -/
def sumRounded (l : List (Option Nat)) : Nat :=
  (addVal fp32 .rne (.fin true 0 0) (sumExact (l.map (fun o => match o with | some v => fp32.value v | none => .nan false)))).bits

/-- Changes one checksum record of a core. -/
def modRecord (c cmd : Nat) (g : CkRecord → CkRecord) : Act :=
  .core c (fun x => { x with chk := { x.chk with records := x.chk.records.map (fun k => if k.cmd = cmd then g k else k) } })

/-- The checksum column and row of a routine's C rows row0 to row0 + n - 1 (R204). -/
def checksums (r : Routine) (row0 n : Nat) : List Nat × List Nat :=
  let rows := (List.range n).map (fun i => match SMap.get [] r.sumAccs (rowKey (row0 + i) false) with | [] => List.replicate 512 (some 0) | l => l)
  (rows.map sumRounded, (List.range 512).map (fun j => sumRounded (rows.map (fun l => l.getD j (some 0)))))

/-- A routine that has executed END: its rows are in place by S + D, its flags are set at S + E, three cycles after END's (R61, R191), its
checksums recorded. Its rows read as old until now, and as old or new from now to S + D; over a
vector result that lands in a row of its before then, its own value wins (R193; log 32). -/
def routineEnd (s : State) (y : Command) (r : Routine) : List Act :=
  r.accs.map (fun e => engineRows s y (e.1 / 2) (accRows (e.1 % 2 = 1) e.2)) ++
    [.work (fun w => w.raise ⟨y.q, y.slot, y.addr, y.issue, s.cyc + 3, r.flags, true⟩),
     modRecord (y.q / 4) y.id (fun k => let t := checksums r k.row0 k.nrow; { k with macks := r.macks, colSums := t.1, rowSums := t.2 })]

/-- The ACS rows that hold the C row of a key of a routine's accumulations. -/
def keyRows (key : Nat) : List Nat := (List.range (if key % 2 = 1 then 4 else 1)).map (fun i => key / 2 + i)

/-- The ACS rows that a routine has read on its way from r to t (R193, R359). -/
def rowsRead (r t : Routine) : List Nat := (t.accs.filter (fun e => SMap.get [] r.accs e.1 = [])).flatMap (fun e => keyRows e.1)

/-- MXE_ROUTINE_START: the clocks of a running routine in one cycle, four at most; a routine ends in place, or is stopped. -/
def routineActs (s : State) (y : Command) : List Act :=
  match y.kind with
  | .mcall rtn =>
    if !y.started || y.stopped || y.routine.ended then []
    else
      let first := entryFirst (s.routineOf (y.q / 4) rtn)
      eccChecks s (clocksRead s y first 4 y.routine) (s.fnOf (y.q / 4)) ++
      match mxeClocks s y first 4 y.routine with
      | .error e => stopCommand s y e
      | .ok r =>
        rowChecks s (y.q / 4) (rowsRead y.routine r) ++
          modCommand y.id (fun y => { y with routine := r }) :: (if r.ended then routineEnd s y r else [])
  | _ => []

def execMxeRoutineStart (id : Nat) (s : State) : Host.Outcome State Fault Refusal :=
  done ((match s.work.commands.find? (fun y => y.id = id) with | some y => routineActs s y | none => []) ++ [bump]) s

/-- MXE_ROUTINE_OVERRUN: at S + D without END the routine is stopped (R194). -/
def overrunActs (s : State) (y : Command) : List Act :=
  match y.kind with
  | .mcall _ => if y.stopped || y.routine.ended || s.cyc < y.finish then [] else stopCommand s y ⟨0x23, 7, 0⟩
  | _ => []

def execMxeRoutineOverrun (id : Nat) (s : State) : Host.Outcome State Fault Refusal :=
  done ((match s.work.commands.find? (fun y => y.id = id) with | some y => overrunActs s y | none => []) ++ [bump]) s

/-! Tile rows (R197). -/

/-- The work without the tile rows still to come to a core whose tile handles are cleared or change hands. -/
def dropTiles (c : Nat) : Act :=
  .work (fun w => { w with agenda := w.agenda.filter (fun e => match e.2 with | .tileRowArrival d _ _ => d ≠ c | _ => true) })

/-- TILE_ROW_ARRIVAL: a row of a tile comes into the staging store; past the promise, or with a fault or poison, it is bad. One whose walk
has not ended, or that a drain holds back (R265), comes later. -/
def tileActs (s : State) (c h row : Nat) : List Act :=
  let key := 32 * (64 * c + h) + row
  let st := SMap.get {} s.staging key
  if st.present || st.bad then []
  else if st.bound < s.cyc then [.stage key { st with bad := true }]
  else if st.parts.any (fun p => p.trans.isOpen) || !holdClear s st.hold then
    [.work (fun w => { w with agenda := w.agenda ++ [(s.cyc + 1, .tileRowArrival c h row)] })]
  else
    match firstPartFault st.parts with
    | some e => .stage key { st with bad := true } :: (if e.1 = 2 then migrationNeed s (s.fnOf c) e.2 else [])
    | none =>
      let r := readParts s st.parts
      partChecks s (s.fnOf c) st.parts ++ [.stage key { st with present := true, bad := r.2.any (fun p => p), bytes := r.1, poison := r.2 }]

def execTileRowArrival (core handle row : Nat) (s : State) : Host.Outcome State Fault Refusal := done (tileActs s core handle row ++ [bump]) s

/-! Drains (R200 to R203). -/

/-- The flags of one output element and its bits; none when it is poisoned. -/
abbrev Drained := Option Nat × LaneFlags

/-- The FP32 elements of output row r of a drain, converted from XA128 under ACT 2 (R50, R200). -/
def drainRaw (s : State) (y : Command) (form row0 r : Nat) : List Drained :=
  let c := y.q / 4
  let rm := if form = 3 then Rounding.rne else rounding y.fmt 0
  if fmtAct y.fmt = 2 then
    (List.range 4).flatMap (fun i =>
      let v := s.readRow c (row0 + 4 * r + i) 128 i
      (List.range 128).map (fun j =>
        if v.lanePoison 128 j then (none, 0) else let x := (v.xa j).toF32 (fmtAnchor y.fmt) rm; (some x.bits, x.flags)))
  else (readC s c false (row0 + r)).map (fun o => (o, 0))

/-- The elements of an output row after normalisation (R67) and clamp (R202). -/
def drainFinish (s : State) (y : Command) (form : Nat) (clamp : Bool) (triple : Nat) (raw : List Drained) : List Drained :=
  let c := y.q / 4
  let tri := fun (k : Nat) => s.readRow c (triple + k) 32 (8 + k)
  let norm : List Drained :=
    if form ≠ 3 then raw
    else
      let t0 := tri 0
      let t1 := tri 1
      let t2 := tri 2
      raw.mapIdx (fun j e =>
        match e.1 with
        | none => e
        | some x =>
          if t0.lanePoison 32 j || t1.lanePoison 32 j || t2.lanePoison 32 j then (none, 0)
          else
            let n := normalise x ⟨t0.lane 32 j, t1.lane 32 j, t2.lane 32 j⟩ (fmtEps y.fmt)
            (some n.bits, e.2 ||| n.flags))
  norm.map (fun e => match e.1 with
    | some x =>
      if clamp && x = 0x7F800000 then (some 0x7F7FFFFF, e.2)
      else if clamp && x = 0xFF800000 then (some 0xFF7FFFFF, e.2)
      else e
    | none => e)

/-- The 2,048 bytes and byte poison of an output row (R211). -/
def drainBytes (l : List Drained) : List Byte × List Bool :=
  (l.flatMap (fun e => leBytes 4 (e.1.getD 0)), l.flatMap (fun e => List.replicate 4 e.1.isNone))

/-- The bytes and poison of the parts of a row whose first address is va. -/
def partOf (va : Nat) (p : PagePart) (bs : List Byte) (ps : List Bool) : List Byte × List Bool :=
  ((bs.drop (p.va - va)).take p.n, (ps.drop (p.va - va)).take p.n)

/-- A drain's row is written whole to device memory (R203), or its fault is delivered (R245). -/
def rowToDevice (s : State) (a : Access) (bs : List Byte) (ps : List Bool) : List Act :=
  match firstPartFault a.pieces with
  | some e => storeFault s a.q a.slot a.addr a.va bs e.1 ++ [.work (fun w => w.dropAccess a.id)]
  | none =>
    keepRowWhole s (a.devicePlaces.map (fun p => (.hbm, p.1, p.2))) ::
      a.pieces.flatMap (fun p => match p.trans with
        | .done pa => let b := partOf a.va p bs ps; [noteWrite mxeRank .hbm pa p.n, .write .hbm pa b.1 b.2]
        | _ => []) ++ [.work (fun w => w.dropAccess a.id)]

/-- A row leaves for its target (R203): a store performs whole, once its walks have ended and its range does not move; a tree contribution
or a row add reaches the SYE (R228). -/
def drainStore (s : State) (y : Command) (a : Access) (form : Nat) (l : List Drained) : List Act :=
  let b := drainBytes l
  let flags : Act := .work (fun w => w.raise ⟨y.q, y.slot, y.addr, y.issue, y.finish, flagSet false (l.map (fun e => e.2)), true⟩)
  let drop : Act := .work (fun w => w.dropAccess a.id)
  if form = 1 || form = 2 then
    [.work (fun w => { w with accesses := w.accesses.map (fun x =>
      if x.id = a.id then { x with kind := if form = 1 then .contribute 0 else .rowAdd, bytes := b.1, poison := b.2
                                   at_ := s.cyc + s.choice 50 % Config.syeDelay } else x) }), flags]
  else if windowOf a.va = 1 then
    (if a.pieces.any (fun p => p.trans.isOpen) then
      [.work (fun w => { w with accesses := w.accesses.map (fun x => if x.id = a.id then { x with kind := .store, bytes := b.1, poison := b.2 } else x) })]
     else rowToDevice s a b.1 b.2) ++ [flags]
  else
    let p := locate s (y.q / 4) a.va
    (if fencedFrom s p.1 (y.q / 4) then [] else keepRowWhole s [(p.1, p.2, 2048)] :: noteWrite mxeRank p.1 p.2 2048 :: writeHome s p.1 p.2 b.1 b.2) ++ [drop, flags]

/-- The ACS rows that output row r of a drain is made from (R200, R201). -/
def drainSources (y : Command) (form row0 r triple : Nat) : List Nat :=
  (if fmtAct y.fmt = 2 then (List.range 4).map (fun i => row0 + 4 * r + i) else [row0 + r]) ++
    (if form = 3 then [triple, triple + 1, triple + 2] else [])

/-- One row of a drain performs, read from the ACS now. -/
def drainRowActs (s : State) (a : Access) (cmd row : Nat) : List Act :=
  match s.work.commands.find? (fun y => y.id = cmd) with
  | some y =>
    match y.kind with
    | .drain form row0 _ clamp _ _ triple =>
      rowChecks s (y.q / 4) (drainSources y form row0 row triple) ++ drainStore s y a form (drainFinish s y form clamp triple (drainRaw s y form row0 row))
    | _ => []
  | none => []

/-! Checksummed drains (R205). -/

/-- Whether two FP32 patterns agree: both NaN, both infinite, both zero, or within 2^-CKTOL of the greater magnitude. -/
def agree (tol x y : Nat) : Bool :=
  match fp32.value x, fp32.value y with
  | .nan _, .nan _ => true
  | .inf _, .inf _ => true
  | .fin s m e, .fin t n f =>
    let d := dyAdd (signed s m) e (-(signed t n)) f
    let k := min e f
    let big := max (m * 2 ^ (e - k).toNat) (n * 2 ^ (f - k).toNat)
    d.1.natAbs * 2 ^ tol ≤ big
  | _, _ => false

/-- The column j element of C row row recomputed from +0 over the recorded MACKs, A and B as they stand now (R205): none where a poisoned
operand poisons it (R379); an operand that cannot be read stops the drain (R188). -/
def recompute (s : State) (y : Command) (k : CkRecord) (row j : Nat) : Except Stop (Option Nat) :=
  let y := { y with fmt := k.fmt }
  (k.macks.filter (fun m => m.row = row)).foldl (fun acc m =>
    let step := if fmtA k.fmt = 3 then 32 else 4
    (List.range m.groups).foldl (fun acc g =>
      let r : Routine := { aRow := m.aRow, aBase := m.aBase, bOff := m.bOff, k := m.k + step * g, mpIndex := 7
                           mp := [BitVec.ofNat 64 m.scale] }
      match acc, groupTerms s y r with
      | .error e, _ | .ok _, .error e => .error e
      | .ok (some a), .ok ts => .ok ((ts.getD j none).map (fun t => (accumulate false 0 a t).1))
      | .ok none, .ok _ => .ok none) acc) (.ok (some 0))

/-- The extent of k that a checksummed routine covers: four products for each group, or 32 for a BX pair (R205). -/
def kExtent (k : CkRecord) (row : Nat) : Nat :=
  ((k.macks.filter (fun m => m.row = row)).map (fun m => m.groups * (if fmtA k.fmt = 3 then 32 else 4))).sum

/-- The outcome of the comparison: none disagrees, one element to recompute, or uncorrectable. -/
inductive Verdict where
  | agrees
  | correct (row col : Nat)
  | uncorrectable
  deriving DecidableEq, Repr

/-- Compares the drained rows with the checksum column and row. -/
def verdict (k : CkRecord) (tol : Nat) (rows : List (List (Option Nat))) : Verdict :=
  let badRows := (List.range rows.length).filter (fun i => !agree tol (sumRounded (rows.getD i [])) (k.colSums.getD i 0))
  let badCols := (List.range 512).filter (fun j => !agree tol (sumRounded (rows.map (fun l => l.getD j none))) (k.rowSums.getD j 0))
  match badRows, badCols with
  | [], [] => .agrees
  | [i], [j] => if (List.range rows.length).any (fun r => 16384 < kExtent k (k.row0 + r)) then .uncorrectable else .correct i j
  | _, _ => .uncorrectable

/-- The rows of a checksummed drain, all read and compared now with the record it names, then delivered; the counts and the event (R205,
R206). An operand of the recomputation that cannot be read stops the drain, which delivers nothing (R188). -/
def checkedDrain (s : State) (y : Command) (form row0 nrow : Nat) (clamp : Bool) (triple : Nat) : List Act :=
  let c := y.q / 4
  let core := s.coreOf c
  let k := (core.chk.records.find? (fun k => y.compares = some k.cmd)).getD ⟨y.id, row0, nrow, y.fmt, [], [], []⟩
  let raw := (List.range nrow).map (fun r => readC s c false (row0 + r))
  let v := verdict k core.cktol raw
  let fixed : Except Stop (List (Nat × Nat × Option Nat)) :=
    match v with
    | .correct i j => (match recompute s y k (row0 + i) j with | .ok b => .ok [(i, j, b)] | .error e => .error e)
    | _ => .ok []
  let rows := (s.work.accesses.filter (fun a => match a.kind with | .drainRow n _ => n = y.id | _ => false))
  let stores := rows.flatMap (fun a => match a.kind with
    | .drainRow _ r =>
      let row := (raw.getD r []).mapIdx (fun j o => match fixed with | .ok [e] => if e.1 = r && e.2.1 = j then e.2.2 else o | _ => o)
      let l := drainFinish s y form clamp triple (row.map (fun o => (o, 0)))
      drainStore s y a form (if v = .uncorrectable then l.map (fun _ => (none, 0)) else l)
    | _ => [])
  let sat := fun (n : Nat) => min (n + 1) 0xFFFF
  match fixed with
  | .error e => rows.map (fun a => .work (fun w => w.dropAccess a.id)) ++ stopCommand s y e
  | .ok _ =>
  rowChecks s c ((List.range nrow).flatMap (fun r => drainSources y form row0 r triple)) ++ stores ++
    (match v with
     | .agrees => [.core c (fun x => { x with chk := { x.chk with lastu := false } })]
     | .correct i j => [.core c (fun x => { x with chk := { x.chk with ccnt := sat x.chk.ccnt, crow := row0 + i, ccol := j, lastu := false } }),
                        post s 0x03 (s.fnOf c) c 0 0]
     | .uncorrectable => [.core c (fun x => { x with chk := { x.chk with ucnt := sat x.chk.ucnt, lastu := true } }),
                          post s 0x10 (s.fnOf c) c 0 0])

/-! Start and end (R186, R187, R196, R198, R199). -/

/-- The cycle at which a command's start step is due: its start, or for MUCLD and MBLD the cycle of their read. -/
def Command.dueAt (y : Command) : Nat :=
  match y.kind with
  | .mucld _ _ | .mbld _ _ _ => y.readAt
  | _ => y.start

/-- Reads the source of an MUCLD or MBLD. -/
def readSource (s : State) (y : Command) (src n : Nat) : List Act :=
  let c := y.q / 4
  let off := src % 2 ^ 22
  if spdNotReady s c off n then stopCommand s y (notReady src)
  else
    let (bs, ps) := engineBytes s c off n
    let bad := match y.kind with
      | .mucld _ _ => ps.any (fun p => p) || (List.range (n / 8)).any (fun i => uwInvalid (BitVec.ofNat 64 (leValue ((bs.drop (8 * i)).take 8))))
      | _ => false
    eccChecks s [(.spd c, off, n)] (s.fnOf c) ++ if bad then stopCommand s y ⟨0x24, 0, 0⟩ else [modCommand y.id (fun y => { y with bytes := bs, poison := ps })]

/-- The start that a command has when its start step comes now: S, or later where a drain has held it back. -/
def Command.startNow (s : State) (y : Command) : Nat := y.start + (s.cyc - y.dueAt)

/-- Whether a command that a drain has moved past its start would meet, if it began now, the interval of another command of the core, which
begins exactly at its own S (R186, R187; log 35). -/
def mxeBusy (s : State) (y : Command) : Bool :=
  y.dueAt < s.cyc && (s.mxeCommands (y.q / 4)).any (fun z => z.id ≠ y.id && y.startNow s < z.finish && z.start < y.startNow s + y.dur)

/-- Whether an XE command begins now: its cycle has come, no drain holds it, and where a drain has moved it the MXE is free for all of it. -/
def mxeStarts (s : State) (y : Command) : Bool := !y.started && y.dueAt ≤ s.cyc && holdClear s y.hold && !mxeBusy s y

/-- The start step of an XE command: a routine begins, rows are to be zeroed, drain rows are to leave, a source is read. -/
def commandStart (s : State) (y : Command) : List Act :=
  if !mxeStarts s y then []
  else
    let y := { y with start := y.startNow s, started := true }
    let begun : Act := modCommand y.id (fun x => { x with start := y.start, started := true
                                                          routine := match y.kind with
                                                            | .mcall rtn => { pc := entryFirst (s.routineOf (y.q / 4) rtn), mp := y.mp }
                                                            | _ => {} })
    begun ::
      match y.kind with
      | .mcall _ => []
      | .zero row0 n => [engineRows s y row0 (List.replicate n (writeWhole {}))]
      | .mucld src b => readSource s y src (8 * mucldCount b)
      | .mbld src _ n => readSource s y src (512 * n)
      | .srd _ _ _ => []
      | .drain _ _ nrow _ ck t _ =>
        let nout := (drainOut y.fmt nrow).getD 0
        let pages := fun (r : Nat) =>
          if windowOf (drainRowAddr t r) = 1 then engineParts s (y.q / 4) (s.fnOf (y.q / 4)) (drainRowAddr t r) 2048 true else []
        [walksFor s (y.q / 4) (s.fnOf (y.q / 4)) 600 ((List.range nout).flatMap pages),
         .work (fun w => (List.range nout).foldl (fun w r =>
          { w with
            accesses := w.accesses ++ [{ id := w.nextId, q := y.q, fn := s.fnOf (y.q / 4), launch := runningLaunch s (y.q / 4), slot := y.slot
                                         addr := y.addr, kind := .drainRow y.id r, va := drainRowAddr t r, size := 2048, issue := y.issue
                                         at_ := if ck then y.finish + 1 else y.start + 1 + s.choice r % y.dur, bound := y.finish
                                         engine := true, origin := some y.id, pieces := pages r }]
            nextId := w.nextId + 1 }) w)]

/-- The entry that an MUCLD writes (R189, R198). -/
def mucldEntry (b : Word) : Word :=
  let f := fun (lo w : Nat) => b.toNat / 2 ^ lo % 2 ^ w
  BitVec.ofNat 64 (f 8 12 + 2 ^ 12 + 2 ^ 16 * f 32 16 + 2 ^ 32 * f 48 8 + 2 ^ 40 * f 56 1)

/-- ENGINE_COMMAND_END: at S + D the command's results are in place, and the MXE is free. -/
def commandEnd (s : State) (y : Command) : List Act :=
  let c := y.q / 4
  if !y.started || s.cyc < y.finish then []
  else
    (match y.kind with
     | .mcall _ => if y.stopped || y.routine.ended then [] else overrunActs s y
     | .zero _ _ => []
     | .srd _ _ _ => []
     | .drain form row0 nrow clamp ck _ triple =>
       if ck then checkedDrain s y form row0 nrow clamp triple
       else
         let left := s.work.accesses.filter (fun a => match a.kind with | .drainRow n _ => n = y.id | _ => false)
         left.flatMap (fun a => match a.kind with | .drainRow n r => drainRowActs s a n r | _ => [])
     | .mucld _ b =>
       if y.stopped then []
       else
         (List.range (mucldCount b)).map (fun i =>
           Act.ucode c (((b.extractLsb' 8 12).toNat + i) % 4096) (BitVec.ofNat 64 (leValue ((y.bytes.drop (8 * i)).take 8)))) ++
         [.routine c ((b.extractLsb' 0 8).toNat) (mucldEntry b)]
     | .mbld _ off n =>
       if y.stopped then []
       else (List.range 512).map (fun j => Act.write (.bos c) (4096 * j + off) ((y.bytes.drop (n * j)).take n) ((y.poison.drop (n * j)).take n))) ++
    [.work (fun w => { w with commands := w.commands.filter (fun x => x.id ≠ y.id) })]

def execEngineCommandEnd (id : Nat) (s : State) : Host.Outcome State Fault Refusal :=
  done ((match s.work.commands.find? (fun y => y.id = id) with | some y => commandEnd s y | none => []) ++ [bump]) s

end Sys2Proof.Machine
end

