-- ==== Sys2Proof/Machine/Sye.lean ====
section
/-! DEFINITION. What reaches a home: stores (08 R208, 11 R268), the operations of the sync engine (08 R219 to R222, 09 R228), and the waits
that end (06 R152, R153, 08 R220, R222, R223). -/

namespace Sys2Proof.Machine

/-! Stores (R208, R255, R268). -/

/-- STORE_PERFORM: a store's unit, or a drain's row, performs at its home, or its fault is found. -/
def storeActs (s : State) (a : Access) : List Act :=
  match a.kind, a.trans with
  | .record op, _ => recordPerforms s a op
  | .store, .fault k => accessFault s a k
  | .store, .none | .store, .done _ => if a.performed then [] else if a.pieces.isEmpty then storePerforms s a else rowToDevice s a a.bytes a.poison
  | .drainRow cmd row, _ => drainRowActs s a cmd row
  | _, _ => []

def execStorePerform (id : Nat) (s : State) : Host.Outcome State Fault Refusal :=
  done ((match s.accessOf id with | some a => storeActs s a | none => []) ++ [bump]) s

/-- Whether two accesses are units of one store instruction. -/
def Access.sameStore (a b : Access) : Bool :=
  a.kind = .store && b.kind = .store && !a.engine && !b.engine && a.q = b.q && a.slot = b.slot && a.addr = b.addr && a.bundle = b.bundle && a.issue = b.issue

/-- Whether a timed store owes its fault at this cycle: a unit of it is late, and all of it has performed, or 1,024 cycles have passed (R268). -/
def lateDue (s : State) (a : Access) : Bool :=
  a.timed && a.kind = .store && a.issue + a.bound < s.cyc &&
    (!(s.work.accesses.any (fun b => a.sameStore b && !b.performed)) || a.issue + 1024 ≤ s.cyc)

/-- LATE_STORE_FAULT: a timed store past its formula bound delivers a deferred timing fault, once for all its units (R268). -/
def lateActs (s : State) (a : Access) : List Act :=
  if lateDue s a then
    .work (fun w => { w with accesses := (w.accesses.filter (fun b => !(a.sameStore b && b.performed))).map (fun b => if a.sameStore b then { b with timed := false } else b) }) ::
      pushEvent s a.q { code := 0x23, slot := a.slot, sub := 5, faddr := a.addr, addr := a.va }
  else []

def execLateStoreFault (id : Nat) (s : State) : Host.Outcome State Fault Refusal :=
  done ((match s.accessOf id with | some a => lateActs s a | none => []) ++ [bump]) s

/-! Atomics (R221). -/

/-- The new value of an integer atomic of code op on w-bit values. -/
def intNew (op w sub old b c : Nat) : Nat :=
  let u := sub % 2 = 1
  let less := fun (x y : Nat) => if u then decide (x < y) else decide ((BitVec.ofNat w x).toInt < (BitVec.ofNat w y).toInt)
  match op with
  | 0x1B => (old + b) % 2 ^ w
  | 0x1C => if less b old then b else old
  | 0x1D => if less old b then b else old
  | 0x1E => Nat.land old b
  | 0x1F => Nat.lor old b
  | 0x20 => Nat.xor old b
  | 0x21 => b
  | _ => if old = c then b else old

/-- What an atomic writes, what it returns and its flags: op, the location's bytes as a number, operands (R221, R49, R65); bits of the
location that its rule calls reserved stay as they are (log 73). -/
def atomicResult (op size sub old : Nat) (b c : Word) : Nat × Nat × LaneFlags :=
  if op = 0x24 then
    let r := fadd fp32 .rne old (b.toNat % 2 ^ 32)
    (r.bits, old, r.flags)
  else if op = 0x25 then
    let x : Xa := ⟨BitVec.ofNat 128 old, old.testBit 128, old.testBit 129⟩
    let y : Xa := ⟨c ++ b, sub.testBit 0, sub.testBit 1⟩
    (packXa (x.add y) + old / 2 ^ 130 * 2 ^ 130, old % 2 ^ 64, 0)
  else if op = 0x2E then
    let r := Triple.merge ⟨old % 2 ^ 32, old / 2 ^ 32 % 2 ^ 32, old / 2 ^ 64 % 2 ^ 32⟩
      ⟨b.toNat % 2 ^ 32, b.toNat / 2 ^ 32, c.toNat % 2 ^ 32⟩
    (r.t.w + 2 ^ 32 * r.t.mean + 2 ^ 64 * r.t.m2 + old / 2 ^ 96 * 2 ^ 96, old % 2 ^ 64, r.flags)
  else
    let w := 8 * size
    (intNew op w sub old (b.toNat % 2 ^ w) (c.toNat % 2 ^ w), old, 0)

/-- Delivers an atomic's value to its result unless it comes past its bound; a poisoned value is zero (R221, R24). -/
def returnValue (s : State) (a : Access) (v : Nat) (poison : Bool) : List Act :=
  match a.flight with
  | some id =>
    if a.lost then []
    else
      let l : List Act := [modFlight id (fun f => { f with val := .word (if poison then 0 else BitVec.ofNat 64 v) poison, missing := 0 })]
      l ++ latchAfter s l (some id)
  | none => []

/-- An atomic performs (R221): a poisoned operand or location leaves the location poisoned, but a swap's value is its own (log 73). -/
def atomicActs (s : State) (a : Access) (op size sub : Nat) (b c : Word) : List Act :=
  let p := a.place s
  let old := leValue (s.readBytes p.1 p.2 size)
  let bad := (s.readPoison p.1 p.2 size).any (fun x => x)
  let operand := a.poison.any (fun x => x)
  let r := atomicResult op size sub old b c
  let poison := operand || (bad && op ≠ 0x21)
  let fl := if poison then 0 else r.2.2
  writeHome s p.1 p.2 (if poison then List.replicate size 0 else leBytes size r.1) (List.replicate size poison) ++
    [.work (fun w => (w.dropAccess a.id).raise ⟨a.q, a.slot, a.addr, a.issue, a.bound, flagSet false [fl], false⟩)] ++
    returnValue s a r.2.1 bad

/-! Tree objects (R219). -/

/-- The key of a tree object: its place in the sync window. -/
def treeKey (va : Nat) : Nat := syncDie va * 2 ^ 40 + syncOff va

/-- The number of a contributor, none outside the member set. -/
def contributor (h : TreeHead) (c lane : Nat) : Option Nat :=
  let die := c / 256
  let core := c % 256
  if h.dies.testBit die && h.core0 ≤ core && core < h.core0 + h.ncore && lane < h.lanes then
    some ((popCountTo h.dies die * h.ncore + (core - h.core0)) * h.lanes + lane)
  else none

/-- Two nodes combined, the lower as a (R219). -/
def combineNodes (kind : Nat) (a b : List Byte × List Bool) : List Byte × List Bool :=
  if kind = 1 then
    let t := fun (l : List Byte) => let v := leValue l; (⟨v % 2 ^ 32, v / 2 ^ 32 % 2 ^ 32, v / 2 ^ 64 % 2 ^ 32⟩ : Triple)
    let r := (Triple.merge (t a.1) (t b.1)).t
    let p := (a.2 ++ b.2).any (fun x => x)
    (if p then List.replicate 16 0 else leBytes 4 r.w ++ leBytes 4 r.mean ++ leBytes 4 r.m2 ++ leBytes 4 0, List.replicate 16 p)
  else
    let n := a.1.length / 4
    let es := (List.range n).map (fun i =>
      let p := a.2.getD (4 * i) false || b.2.getD (4 * i) false
      let x := leValue ((a.1.drop (4 * i)).take 4)
      let y := leValue ((b.1.drop (4 * i)).take 4)
      ((if p then 0 else (fadd fp32 .rne x y).bits), p))
    (es.flatMap (fun e => leBytes 4 e.1), es.flatMap (fun e => List.replicate 4 e.2))

/-- A tree's state after its leaf k: it counts in this round, or is held for a later one. -/
def TreeState.add (t : TreeState) (k : Nat) (bs : List Byte) (ps : List Bool) : TreeState × Bool :=
  if t.leaves.any (fun e => e.1 = k) then ({ t with held := t.held ++ [(k, bs, ps)] }, false)
  else ({ t with leaves := t.leaves ++ [(k, ps)] }, true)

/-- The held contributions that a new round takes: the first of each contributor; the others stay held. -/
def takeHeld : List (Nat × List Byte × List Bool) → List (Nat × List Byte × List Bool) × List (Nat × List Byte × List Bool)
  | l => l.foldl (fun a e => if a.1.any (fun x => x.1 = e.1) then (a.1, a.2 ++ [e]) else (a.1 ++ [e], a.2)) ([], [])

/-- A contribution reaches a tree object (R219): a leaf, held or counted; the last one of a round completes it. -/
def contributeActs (s : State) (a : Access) (kind lane : Nat) (bs : List Byte) (ps : List Bool) : List Act :=
  let p := a.place s
  let header := s.readBytes p.1 p.2 16
  let h := treeHead (leValue (header.take 8))
  let round := leValue (header.drop 8)
  let key := treeKey a.va
  let drop : Act := .work (fun w => w.dropAccess a.id)
  let set := fun (t : TreeState) => Act.chip (fun x => { x with trees := SMap.set {} x.trees key t })
  let nodeAt := fun (k : Nat) => locate s (a.q / 4) (a.va + 64 + h.node * k)
  match (if h.kind = kind && a.va % 64 = 0 && 1 ≤ h.count && h.count ≤ 4096 then contributor h (a.q / 4) lane else none) with
  | none => drop :: pushEvent s a.q { code := 0x25, slot := a.slot, sub := 6, faddr := a.addr, addr := a.va }
  | some k =>
    let t0 := SMap.get {} s.chip.trees key
    let t := t0.add k bs ps
    if !t.2 then
      [drop, set t.1] ++ returnValue s a (round + 1 + (t0.held.filter (fun e => e.1 = k)).length) false
    else
      let leaf := writeHome s (nodeAt k).1 (nodeAt k).2 bs (List.replicate bs.length false)
      if t.1.leaves.length < h.count then drop :: set t.1 :: leaf ++ returnValue s a round false
      else
        let s1 := applyActs leaf s
        let values := (List.range h.count).map (fun i =>
          ((readHome s1 (nodeAt i).1 (nodeAt i).2 h.node).map (fun b => b.1), (match t.1.leaves.find? (fun e => e.1 = i) with | some e => e.2 | none => List.replicate h.node false)))
        let result := (tree (combineNodes kind) 12 values).headD ([], [])
        let word := leValue (header.take 8)
        let flipped := if word.testBit 48 then word - 2 ^ 48 else word + 2 ^ 48
        let r := takeHeld t.1.held
        let writes : List Act := writeHome s1 (nodeAt 0).1 (nodeAt 0).2 result.1 result.2 ++
          r.1.flatMap (fun e => writeHome s1 (nodeAt e.1).1 (nodeAt e.1).2 e.2.1 (List.replicate e.2.1.length false))
        let s2 := applyActs writes s1
        drop :: set { leaves := r.1.map (fun e => (e.1, e.2.2)), held := r.2 } :: leaf ++ writes ++
          writeHome s2 p.1 p.2 (leBytes 8 flipped ++ leBytes 8 ((round + 1) % 2 ^ 64)) (List.replicate 16 false) ++ returnValue s a round false

/-! Barriers and waits (R220, R222). -/

/-- Adds to a barrier's COUNT: each time it reaches TARGET the PHASE flips and TARGET is taken off, so that the order of additions changes
nothing (R219, R220, R227); a TARGET of 0, which no BARINIT writes, counts as reached once. -/
def arriveActs (s : State) (h : Home) (off n : Nat) : List Act :=
  let w := leValue (s.readBytes h off 8)
  let target := leValue (s.readBytes h (off + 8) 6)
  let count := w % 2 ^ 48 + n
  let flips := if target = 0 then 1 else count / target
  let phase := (w / 2 ^ 48 + flips) % 2
  writeHome s h off (leBytes 8 ((count - flips * target) % 2 ^ 48 + 2 ^ 48 * phase + w / 2 ^ 49 * 2 ^ 49)) (List.replicate 8 false)

/-- A wait's request arrives: the compare, and the arming of the monitor in the same step, for the first wait of its sequencer that asks for
it. -/
def armActs (s : State) (a : Access) : List Act :=
  let y := s.seqOf a.q
  let met := fun (w : Wait) => (waitMet s (a.q / 4) w).map (fun p => (s.cyc + 1 + s.choice 0 % 32, p))
  .work (fun w => w.dropAccess a.id) ::
    (if y.run = .wait && y.wait.asks a && !y.armed && y.report.isNone then
      [.seq a.q (fun y => { y with armed := (met y.wait).isNone, report := met y.wait })]
     else
      match y.more.findIdx? (fun w => w.wait.asks a && !w.armed && w.report.isNone) with
      | some i => [.seq a.q (fun y => { y with more := modifyAt i (fun w => { w with armed := (met w.wait).isNone, report := met w.wait }) y.more })]
      | none => [])

/-- What a request performed at the sync engine does. -/
def requestEffect (s : State) (a : Access) : List Act :=
  let p := a.place s
  let drop : Act := .work (fun w => w.dropAccess a.id)
  match a.kind with
  | .barInit target => drop :: writeHome s p.1 p.2 (leBytes 8 0 ++ leBytes 8 target) (List.replicate 16 false)
  | .treeInit header =>
    let n := (treeHead (leValue (header.take 8))).bytes
    drop :: .chip (fun x => { x with trees := SMap.set {} x.trees (treeKey a.va) {} }) ::
      writeHome s p.1 p.2 (header ++ List.replicate (n - 64) 0) (List.replicate n false)
  | .arrive n => drop :: arriveActs s p.1 p.2 n
  | .barWait _ | .waitVal _ _ _ => armActs s a
  | .atomic op size b c sub =>
    let bad := a.poison.any (fun x => x)
    if op = 0x23 then contributeActs s a 0 (a.q % 4) (leBytes 4 (if bad then 0 else b.toNat)) (List.replicate 4 bad)
    else if op = 0x2F then
      contributeActs s a 1 (a.q % 4) (if bad then List.replicate 16 0 else leBytes 8 b.toNat ++ leBytes 4 c.toNat ++ leBytes 4 0) (List.replicate 16 bad)
    else atomicActs s a op size sub b c
  | .contribute lane => contributeActs s a 2 lane a.bytes a.poison
  | .rowAdd =>
    let old := readHome s p.1 p.2 2048
    let r := combineNodes 2 (old.map (fun b => b.1), old.map (fun b => b.2)) (a.bytes, a.poison)
    drop :: writeHome s p.1 p.2 r.1 r.2
  | .load | .store | .drainRow _ _ | .record _ | .column _ => []

/-- The bytes from a request's place that it reads: its location, or the header and nodes of its tree. -/
def requestReads (s : State) (a : Access) : List (Home × Nat × Nat) :=
  let p := a.place s
  let tree := (treeHead (leValue (s.readBytes p.1 p.2 8))).bytes
  match a.kind with
  | .barInit _ | .treeInit _ => []
  | .arrive _ | .barWait _ => [(p.1, p.2, 16)]
  | .waitVal _ n _ => [(p.1, p.2, n)]
  | .atomic op size _ _ _ => [(p.1, p.2, if op = 0x23 || op = 0x2F then tree else size)]
  | .contribute _ => [(p.1, p.2, tree)]
  | .rowAdd => [(p.1, p.2, 2048)]
  | .load | .store | .drainRow _ _ | .record _ | .column _ => []

/-- SYE_REQUEST_ARRIVAL: a request is performed at the sync engine, in the order of arrival (R228), which checks the ECC of what it reads
(R254, R359). -/
def requestActs (s : State) (a : Access) : List Act :=
  let read := eccChecks s (requestReads s a) a.fn
  read ++ noteWrite (accessRank s a) (a.place s).1 (a.place s).2 a.size :: requestEffect (applyActs read s) a

def execSyeRequestArrival (id : Nat) (s : State) : Host.Outcome State Fault Refusal :=
  done ((match s.accessOf id with | some a => requestActs s a | none => []) ++ [bump]) s

/-! Ends of waits (R17, R152, R153, R220, R222, R223). -/

/-- Whether the sync engine's report has reached a waiting sequencer. -/
def reportDue (s : State) (q : Nat) : Bool :=
  (s.seqOf q).run = .wait && (match (s.seqOf q).report with | some (t, _) => t ≤ s.cyc | none => false)

def execBarwaitReport (q : Nat) (s : State) : Host.Outcome State Fault Refusal :=
  done ((match (s.seqOf q).wait with | .barwait _ _ _ _ => if reportDue s q then endWait q else [] | _ => []) ++ [bump]) s

/-- WAITV_WAKE: a poisoned location gives a deferred load fault naming the WAITV's bundle (R222). -/
def waitvActs (s : State) (q : Nat) (poisoned : Bool) : List Act :=
  match (s.seqOf q).wait with
  | .waitv loc _ _ _ slot addr =>
    if reportDue s q then
      endWait q ++ (if poisoned then pushEvent s q { code := 0x20, slot := slot, sub := 3, faddr := addr, addr := loc } else [])
    else []
  | _ => []

def execWaitvWake (q : Nat) (poisoned : Bool) (s : State) : Host.Outcome State Fault Refusal := done (waitvActs s q poisoned ++ [bump]) s

/-- TWAIT_RELEASE: the next bundle issues on the first turn after the first cycle at which GTIME has reached the target (R152). -/
def twaitActs (s : State) (q : Nat) : List Act :=
  match (s.seqOf q).run, (s.seqOf q).wait with
  | .wait, .twait t => if t.toNat ≤ s.gtime then endWait q ++ [.seq q (fun y => { y with resumeAt := max y.resumeAt (s.cyc + 1) })] else []
  | _, _ => []

def execTwaitRelease (q : Nat) (s : State) : Host.Outcome State Fault Refusal := done (twaitActs s q ++ [bump]) s

/-- TREALIGN_RELEASE: at a grid point of GTIME, locked, TB becomes CYC (R153). -/
def trealignActs (s : State) (q : Nat) : List Act :=
  match (s.seqOf q).run, (s.seqOf q).wait with
  | .wait, .trealign k =>
    if s.chip.tbu.lock && s.gtime % 2 ^ k = 0 then endWait q ++ [.seq q (fun y => { y with tb := BitVec.ofNat 64 s.cyc })] else []
  | _, _ => []

def execTrealignRelease (q : Nat) (s : State) : Host.Outcome State Fault Refusal := done (trealignActs s q ++ [bump]) s

/-- CHRECV_WAKE: a waiting CHRECV dequeues the oldest element (R223). -/
def chrecvActs (s : State) (q : Nat) : List Act :=
  match (s.seqOf q).run, (s.seqOf q).wait with
  | .wait, .chrecv ch row lat slot addr =>
    let e := s.chtOf (q / 4) ch
    if 0 < chtCount e then
      let x : Ctx := { q := q, slot := slot, addr := addr, size := 2 }
      takeElement x s e 0 row (8 * 2 ^ lat) ++ .cht (q / 4) ch (chtTake e 1) :: endWait q
    else []
  | _, _ => []

def execChrecvWake (q : Nat) (s : State) : Host.Outcome State Fault Refusal := done (chrecvActs s q ++ [bump]) s

end Sys2Proof.Machine
end

