-- ==== Sys2Proof/Machine/Copy.lean ====
section
/-! DEFINITION. Copies and PROBE fills from their start cycle on (08 R213, R215 to R217, 10 R236, R245, R253, R255, 11 R266). -/

namespace Sys2Proof.Machine

/-- Changes one copy. -/
def modCopy (id : Nat) (f : Copy → Copy) : Act :=
  .work (fun w => { w with copies := w.copies.map (fun y => if y.id = id then f y else y) })

/-- The copy named id. -/
def State.copyOf (s : State) (id : Nat) : Option Copy := s.work.copies.find? (fun y => y.id = id)

/-- Bytes per column of a CPYB (R215). -/
def Copy.perColumn (y : Copy) : Nat := y.len / 512

/-- The bytes of a copy whose chunks have been issued. -/
def Copy.issued (y : Copy) : Nat := y.chunks.foldl (fun n k => n + k.n) y.cursor

/-- The bytes of the next chunk to issue (R216): up to 4 KiB, bounded by the destination's 4 KiB boundaries, which for the BOS are
its slices. -/
def Copy.nextChunk (y : Copy) : Nat :=
  if y.op = 0x14 then y.perColumn - y.issued % max y.perColumn 1
  else min (4096 - (y.dst + y.issued) % 4096) (y.len - y.issued)

/-- Issues a copy's next chunk (R216): its pages' translations begin, and it will be read at a free cycle; the one after it is issued at a free
cycle too. -/
def issueChunk (s : State) (y : Copy) : List Act :=
  let c := y.q / 4
  let n := y.nextChunk
  let a := y.src + y.issued
  let b := y.dst + y.issued
  let src := if windowOf a = 1 then engineParts s c y.fn a n false else [⟨a, n, .none⟩]
  let dst := if y.op ≠ 0x14 && windowOf y.dst = 1 then engineParts s c y.fn b n true else []
  [walksFor s c y.fn 700 (src ++ dst),
   modCopy y.id (fun y => { y with nextAt := s.cyc + s.choice 710, chunks := y.chunks ++
     [{ n := n, at_ := s.cyc + s.choice (701 + y.chunks.length), src := src, dst := match dst with | p :: _ => p.trans | [] => .none }] })]

/-- One write of a chunk at off of the copy's bytes: 64 bytes at i from its start (R259). -/
def Copy.write (s : State) (y : Copy) (off : Nat) (t : Translation) (i : Nat) (bs : List Byte) (ps : List Bool) : Access :=
  { id := 0, q := y.q, fn := y.fn, launch := y.launch, slot := y.slot, addr := y.addr, kind := .store, va := y.dst + off + i
    size := bs.length, bytes := bs, poison := ps, offset := off, issue := s.cyc, at_ := s.cyc + 1 + s.choice (100 + i / 64)
    trans := (match t with | .done pa => .done (pa + i) | u => u), engine := true, origin := some y.id }

/-- The chunk of a copy that is to be read next, with its number and its place among the copy's bytes: chunks are read in ascending order. -/
def Copy.toRead (y : Copy) : Option (Nat × Nat × Chunk) :=
  match y.chunks.findIdx? (fun k => !k.read) with
  | some i => (y.chunks[i]?).map (fun k => (i, (y.chunks.take i).foldl (fun n k => n + k.n) y.cursor, k))
  | none => none

/-- The home and place of a part of a chunk's source. -/
def sourcePlace (s : State) (c : Nat) (p : PagePart) : Home × Nat × Nat :=
  match p.trans with | .done pa => (.hbm, pa, p.n) | _ => let h := locate s c p.va; (h.1, h.2, p.n)

/-- The homes and places of a chunk's source bytes. -/
def sourcePlaces (s : State) (c : Nat) (l : List PagePart) : List (Home × Nat × Nat) := l.map (sourcePlace s c)

/-- The address of the first unit among the parts of a source, in device memory or in a scratchpad, that the ECC check finds uncorrectable
(R217, R235, R254). -/
def badPart (s : State) (c : Nat) (l : List PagePart) : Option Nat :=
  l.findSome? (fun p =>
    let h := sourcePlace s c p
    ((List.range ((p.n + 7) / 8 + 1)).find? (fun i => 8 * i < p.n + h.2.1 % 8 && s.unitMark h.1 (h.2.1 - h.2.1 % 8 + 8 * i) = .flips)).map
      (fun i => p.va + (8 * i - h.2.1 % 8)))

/-- Whether that chunk is read now: its cycle has come, its walks have ended, its destination's range does not move, and no write of an
earlier chunk of the copy to what it reads is still to perform (R216); a source block that is write-pending or partly filled is read as it stands (R188;
log 95). -/
def readsChunk (s : State) (y : Copy) : Bool :=
  match y.toRead with
  | some (_, _, k) =>
    y.fault.isNone && k.at_ ≤ s.cyc && !(k.src.any (fun p => p.trans.isOpen)) && k.dst ≠ .waiting &&
      !(s.work.accesses.any (fun a => a.origin = some y.id && !a.performed &&
        (sourcePlaces s (y.q / 4) k.src).any (fun p => (a.place s).1 = p.1 && rangesMeet (a.place s).2 a.size p.2.1 p.2.2)))
  | none => false

/-- The fault that a copy meets at chunk i: the chunk and those after it are not carried out (R217). -/
def failCopy (id i : Nat) (e : Nat × Nat) : Act := modCopy id (fun y => { y with chunks := y.chunks.take i, fault := some e })

/-- A chunk is read whole, then written in units of 64 bytes (R216, R266); a BOS chunk fills its column now. A second CRC mismatch poisons
what it writes. -/
def readChunk (s : State) (y : Copy) : List Act :=
  match y.toRead with
  | none => []
  | some (i, off, k) =>
    let c := y.q / 4
    let places := sourcePlaces s c k.src
    let found := eccChecks s places y.fn
    match firstPartFault k.src, k.dst with
    | some e, _ => [failCopy y.id i e]
    | none, .fault f => [failCopy y.id i (f, y.dst + off)]
    | none, t =>
      if places.any (fun p => fencedFrom s p.1 c) then [failCopy y.id i (3, y.src + off)]
      else
        match badPart s c k.src with
        | some a => found ++ [failCopy y.id i (3, a)]
        | none =>
          let crc := s.choice 0 % 3
          let got := places.flatMap (fun p => readForeign s p.1 p.2.1 p.2.2 none)
          let data := if crc = 2 then got.map (fun _ => ((0 : Byte), true)) else got
          let bs := data.map (fun b => if b.2 then 0 else b.1)
          let ps := data.map (fun b => b.2)
          found ++ [modCopy y.id (fun y => { y with chunks := modifyAt i (fun k => { k with read := true, crc := crc }) y.chunks })] ++
            (if y.op = 0x14 then
              [.write (.bos c) (4096 * (off / max y.perColumn 1) + y.dst % 4096 + off % max y.perColumn 1) bs ps]
             else
              [.work (fun w => (List.range ((k.n + 63) / 64)).foldl (fun w j =>
                { w with accesses := w.accesses ++ [{ y.write s off t (64 * j) ((bs.drop (64 * j)).take 64) ((ps.drop (64 * j)).take 64) with id := w.nextId }]
                         nextId := w.nextId + 1 }) w)])

/-- Whether a copy's next chunk may be issued: its start has come, drained work is done, no fault holds it, at most eight are outstanding
(log 77), no switch takes its launch from the core (R287 step 2); a PROBE fill waits for the earlier copies of its channel (R213). -/
def copyReady (s : State) (y : Copy) : Bool :=
  y.issued < y.len && y.nextAt ≤ s.cyc && (s.coreOf (y.q / 4)).switching.isNone && y.chunks.length < 8 && !y.suspended && !copiesHeld s y.fn && !y.faulted && y.fault.isNone && y.start ≤ s.cyc && holdClear s y.hold &&
    (y.probe.isNone || !((s.work.copies.takeWhile (fun z => z.id ≠ y.id)).any (fun z => z.q / 4 = y.q / 4 && z.ch = y.ch)))

/-- ENGINE_COMMAND_START: an engine command begins at its start cycle (R186): an XE command or a copy, whose chunks follow; one of a copy's
chunks is read. -/
def startActs (s : State) (id : Nat) : List Act :=
  match s.work.commands.find? (fun y => y.id = id), s.copyOf id with
  | some y, _ => commandStart s y
  | none, some y => if readsChunk s y then readChunk s y else if copyReady s y then issueChunk s y else []
  | none, none => []

def execEngineCommandStart (id : Nat) (s : State) : Host.Outcome State Fault Refusal := done (startActs s id ++ [bump]) s

/-- Whether the writes of a copy's first outstanding chunk have performed. -/
def chunkWritten (s : State) (y : Copy) : Bool :=
  (match y.chunks with | k :: _ => k.read | [] => false) && !(s.work.accesses.any (fun a => a.origin = some y.id && a.offset = y.cursor))

/-- The scratchpad block that a copy's chunk fills, if one (R236). -/
def Copy.block (s : State) (y : Copy) : Option (Nat × Nat) :=
  if y.op = 0x14 || windowOf y.dst = 1 then none
  else match locate s (y.q / 4) (y.dst + y.cursor) with
    | (.spd c, off) => some (c, off / 4096)
    | _ => none

/-- COPY_CHUNK_COMPLETE: the cursor moves on, the block's last write sets its tag, CRC mismatches are reported (R216). -/
def chunkActs (s : State) (y : Copy) (crc : Nat) : List Act :=
  match y.chunks with
  | [] => []
  | k :: l =>
    if !(chunkWritten s y) || k.crc ≠ crc then []
    else
      let c := y.q / 4
      (if crc = 1 then [post s 0x05 y.fn c (y.dst + y.cursor) 0] else if crc = 2 then [post s 0x12 y.fn c (y.dst + y.cursor) 0] else []) ++
        (match y.probe, y.block s with | none, some b => [.tag b.1 b.2 y.tag] | _, _ => []) ++
        [modCopy y.id (fun y => { y with cursor := y.cursor + k.n, chunks := l })]

def execCopyChunkComplete (id crcErrors : Nat) (s : State) : Host.Outcome State Fault Refusal :=
  done ((match s.copyOf id with | some y => chunkActs s y crcErrors | none => []) ++ [bump]) s

/-- The addition of an engine's bytes to its barrier, a request that reaches the SYE within 32 cycles (R216, R220, R228). -/
def sendAddition (s : State) (q fn : Nat) (launch : Option Nat) (slot addr bar n : Nat) : Act :=
  .work (fun w => { w with
    accesses := w.accesses ++ [{ id := w.nextId, q := q, fn := fn, launch := launch, slot := slot, addr := addr, kind := .arrive n, va := bar, size := 16
                                 issue := s.cyc, at_ := s.cyc + 1 + s.choice 5 % Config.syeDelay, bound := 68, engine := true }]
    nextId := w.nextId + 1 })

/-- The work without a copy. -/
def dropCopy (id : Nat) : Act := .work (fun w => { w with copies := w.copies.filter (fun y => y.id ≠ id) })

/-- COPY_COMPLETE: all bytes are globally visible, and the length goes to the barrier (R216, R220). -/
def copyDoneActs (s : State) (y : Copy) : List Act :=
  if y.cursor < y.len || y.probe.isSome then []
  else (if y.bar = 0 then [] else [sendAddition s y.q y.fn y.launch y.slot y.addr y.bar y.len]) ++ [dropCopy y.id]

def execCopyComplete (id : Nat) (s : State) : Host.Outcome State Fault Refusal :=
  done ((match s.copyOf id with | some y => copyDoneActs s y | none => []) ++ [bump]) s

/-- COPY_SUSPEND: a fault at a chunk suspends the copy there; its deferred copy fault tells channel, cursor and address (R217, R299). -/
def suspendActs (s : State) (y : Copy) (sub addr : Nat) : List Act :=
  if y.fault ≠ some (sub, addr) || y.probe.isSome || !y.chunks.isEmpty then []
  else
    modCopy y.id (fun y => { y with fault := none, faulted := true }) ::
      pushEvent s y.q { code := 0x22, slot := y.slot, ch := y.ch, sub := sub, faddr := y.addr, addr := addr, info := y.cursor, copy := some y.id }

def execCopySuspend (id sub addr : Nat) (s : State) : Host.Outcome State Fault Refusal :=
  done ((match s.copyOf id with | some y => suspendActs s y sub addr | none => []) ++ [bump]) s

/-- PROBE_FILL_COMPLETE: a fill has written its slot, whose block takes the fill's tag (R213, R236); a fault poisons the slot and
delivers a deferred load fault that names the PROBE (R245). -/
def probeFillActs (s : State) (y : Copy) : List Act :=
  let c := y.q / 4
  let off := y.dst % 2 ^ 22
  match y.probe, y.fault with
  | none, _ => []
  | some _, some (sub, addr) =>
    [.write (.spd c) off (List.replicate 4096 0) (List.replicate 4096 true), .tag c (off / 4096) y.tag, dropCopy y.id] ++
      pushEvent s y.q { code := 0x20, slot := y.slot, sub := sub, faddr := y.addr, addr := addr }
  | some _, none => if y.cursor < y.len then [] else [.tag c (off / 4096) y.tag, dropCopy y.id]

def execProbeFillComplete (id : Nat) (s : State) : Host.Outcome State Fault Refusal :=
  done ((match s.copyOf id with | some y => probeFillActs s y | none => []) ++ [bump]) s

end Sys2Proof.Machine
end

