-- ==== Sys2Proof/Machine/Mapping.lean ====
section
/-! DEFINITION. Channel elements reach their rings (15 R317, R318, R330); walks, invalidations, page handovers and range moves (10 R243
to R246, R253, 11 R270). -/

namespace Sys2Proof.Machine

/-! Channel elements (R317). -/

/-- Whether a function's reset is in progress (R352). -/
def resetting (s : State) (fn : Nat) : Bool := (SMap.get {} s.chip.vfr fn).busy

/-- The first element for a core of this module that may arrive at this cycle: its cycle has come, drained work is done, and no
earlier element of its channel is on its way (R317, R318, R272). -/
def elementReady (s : State) : Option Sent :=
  let here := s.chip.elements.filter (fun x => x.remote.isNone)
  here.find? (fun x => x.at_ ≤ s.cyc && holdClear s x.hold &&
    !((here.takeWhile (fun y => y.id ≠ x.id)).any (fun y =>
        y.element.source = x.element.source && y.element.core = x.element.core && y.element.channel = x.element.channel)))

/-- An element is written whole into its receiver's ring, or discarded: misdirected, to a full ring, to a fenced scratchpad, to a
function under reset (R255, R317, R223, R357). -/
def acceptElement (s : State) (e : Element) : List Act :=
  let c := e.core
  let t := s.chtOf c e.channel
  if (s.coreOf c).fenced then []
  else if resetting s (s.fnOf c) || !chtValid t 0 || e.source ≠ 1024 * chtModule t + chtPeer t || e.bytes.length ≠ chtBytes t then [post s 0x17 (s.fnOf c) c 0 0]
  else if chtSlots t ≤ chtCount t then [.cht c e.channel (chtOverflow t true)]
  else noteWrite engineRank (.spd c) (ringOff t (chtCount t)) e.bytes.length :: writeHome s (.spd c) (ringOff t (chtCount t)) e.bytes e.poison ++ [.cht c e.channel (chtPut t)]

/-- CHANNEL_ELEMENT_ARRIVAL: an element of this module once it is due, or one whose flits have come over a link. -/
def elementActs (s : State) (e : Element) : List Act :=
  if e.source / 1024 ≠ s.chip.modId then acceptElement s e
  else
    match elementReady s with
    | some x =>
      if x.element = e then .chip (fun h => { h with elements := h.elements.filter (fun y => y.id ≠ x.id) }) :: acceptElement s e else []
    | none => []

def execChannelElementArrival (element : Element) (s : State) : Host.Outcome State Fault Refusal :=
  done (elementActs s element ++ [bump]) s

/-! Walks (R243). -/

/-- What an access at va that waited for a walk meets (R242, R245). -/
def afterWalk (s : State) (e : Option TlbEntry) (va : Nat) (write : Bool) : Translation :=
  match e with
  | some e => e.use s va write
  | none => .fault 0

/-- Whether the end of a walk, with what it found, serves an address: it lies in the page the walk was begun for, or in the page found. -/
def Walk.serves (w : Walk) (e : Option TlbEntry) (va : Nat) : Bool :=
  va / 4096 = w.page || (match e with | some e => e.covers w.fn va | none => false)

/-- Parts of an engine's access after a walk. -/
def settleParts (s : State) (w : Walk) (e : Option TlbEntry) (write : Bool) (l : List PagePart) : List PagePart :=
  l.map (fun p => if p.trans = .waiting && w.serves e p.va then { p with trans := afterWalk s e p.va write } else p)

/-- Whether parts wait for a walk that its end serves. -/
def partsServed (w : Walk) (e : Option TlbEntry) (l : List PagePart) : Bool := l.any (fun p => p.trans = .waiting && w.serves e p.va)

/-- A copy after a walk. -/
def Copy.afterWalk (s : State) (w : Walk) (e : Option TlbEntry) (y : Copy) : Copy :=
  if y.fn ≠ w.fn || y.q / 1024 ≠ w.die then y
  else
    { y with chunks := y.chunks.mapIdx (fun i k =>
      let va := y.dst + (y.chunks.take i).foldl (fun n k => n + k.n) y.cursor
      { k with src := settleParts s w e false k.src
               dst := if k.dst = .waiting && w.serves e va then Machine.afterWalk s e va true else k.dst }) }

/-- An access after a walk. -/
def Access.afterWalk (s : State) (w : Walk) (e : Option TlbEntry) (a : Access) : Access :=
  if a.fn ≠ w.fn || a.q / 1024 ≠ w.die then a
  else
    { a with
      pieces := settleParts s w e true a.pieces
      trans := if a.trans = .waiting && w.serves e a.va then Machine.afterWalk s e a.va (a.kind ≠ .load) else a.trans }

/-- The units of one store with the formula bound of the stacks that their walks have found, where one of them has just been found (R256). -/
def rebound (s : State) (old new : List Access) : List Access :=
  let found := fun (a : Access) => old.any (fun b => b.id = a.id && b.trans ≠ a.trans)
  let with_ := fun (a b : Access) => a.id = b.id || (a.origin.isSome && a.origin = b.origin)
  new.map (fun a =>
    if !a.engine && a.kind = .store && new.any (fun b => with_ a b && found b) then
      { a with bound := (new.filter (with_ a)).foldl (fun m b => max m (formula s (b.q / 4) b.va b.size (s.choice 2) b.trans)) 0 }
    else a)

/-- Accesses in the order issued, each ordered after those of its sequencer before it whose unit it is now found to share (R264). -/
def alignDeps (s : State) (l : List Access) : List Access :=
  l.mapIdx (fun i a =>
    let before := (l.take i).filter (fun b => !b.performed && !b.engine && b.q = a.q && b.meets s a && !a.deps.accs.contains b.id)
    if a.performed || a.engine || before.isEmpty then a else { a with deps := { a.deps with accs := a.deps.accs ++ before.map (fun b => b.id) } })

/-- TLB_WALK_COMPLETE: a walk ends, filling the TLBs of the cores that wait for it, or giving them the fault: accesses, copies' chunks, rows
of drains and tiles; a fault of a page that the SL4, a reducer or the JNE waits for stays for it (log 84). What had joined it, and it does not
serve, begins a walk of its own; the next miss that waits for the walker begins. -/
def walkActs (s : State) (w : Walk) : List Act :=
  if !w.started || s.cyc < w.at_ then []
  else
    let e := walkNow s w.fn (w.page * 4096) (s.choice 0)
    let tiles := s.staging.filter (fun x => x.1 / 2048 / 256 = w.die && s.fnOf (x.1 / 2048) = w.fn && partsServed w e x.2.parts)
    let cores := (s.work.accesses.filter (fun a => a.fn = w.fn && a.q / 1024 = w.die &&
        ((a.trans = .waiting && w.serves e a.va) || partsServed w e a.pieces))).map (fun a => a.q / 4) ++
      (s.work.copies.filter (fun y => y.afterWalk s w e ≠ y)).map (fun y => y.q / 4) ++ tiles.map (fun x => x.1 / 2048)
    let fills := match e with
      | some e => (w.core :: cores).eraseDups.map (fun c => Act.chip (fillTlbs c e))
      | none => []
    let next := (s.work.walks.find? (fun x => x.die = w.die && !x.started)).map (fun x => x.id)
    let left := fun (k : Work) =>
      (k.accesses.filter (fun a => a.fn = w.fn && a.q / 1024 = w.die)).flatMap (fun a =>
        (if a.trans = .waiting then [(a.q / 4, a.va)] else []) ++ (a.pieces.filter (fun p => p.trans = .waiting)).map (fun p => (a.q / 4, p.va))) ++
      (k.copies.filter (fun y => y.fn = w.fn && y.q / 1024 = w.die)).flatMap (fun y => y.chunks.mapIdx (fun i k => (i, k)) |>.flatMap (fun k =>
        (k.2.src.filter (fun p => p.trans = .waiting)).map (fun p => (y.q / 4, p.va)) ++
          (if k.2.dst = .waiting then [(y.q / 4, y.dst + (y.chunks.take k.1).foldl (fun n k => n + k.n) y.cursor)] else []))) ++
      (s.staging.filter (fun x => x.1 / 2048 / 256 = w.die && s.fnOf (x.1 / 2048) = w.fn)).flatMap (fun x =>
        (x.2.parts.filter (fun p => p.trans = .waiting && !w.serves e p.va)).map (fun p => (x.1 / 2048, p.va)))
    fills ++ partChecks s 0 ((tablePlaces s w.fn (w.page * 4096) (s.choice 0)).map (fun a => ⟨a, 8, .done a⟩)) ++
      tiles.map (fun x => Act.stage x.1 { x.2 with parts := settleParts s w e false x.2.parts }) ++
      [.work (fun k =>
        let k := { k with
          failed := if e.isSome then k.failed else k.failed ++ [(w.die, w.fn, w.page)]
          walks := (k.walks.filter (fun x => x.id ≠ w.id)).map (fun x =>
            if some x.id = next then { x with started := true, at_ := s.cyc + 1 + s.choice 1 } else x)
          accesses := alignDeps s (rebound s k.accesses (k.accesses.map (fun a => a.afterWalk s w e)))
          copies := k.copies.map (fun y => y.afterWalk s w e) }
        (left k).foldl (fun k p => k.walkFor s p.1 w.fn p.2 (s.cyc + 1 + s.choice 3) none) k)]

def execTlbWalkComplete (id : Nat) (s : State) : Host.Outcome State Fault Refusal :=
  done ((match s.work.walks.find? (fun w => w.id = id) with | some w => walkActs s w | none => []) ++ [bump]) s

/-! Invalidation (R244). -/

/-- The chip without the TLB entries of a function that meet the addresses lo to hi. -/
def Chip.dropTlb (h : Chip) (fn lo hi : Nat) : Chip :=
  let keep := fun (e : TlbEntry) => !(e.fn = fn && e.base ≤ hi && lo < e.base + e.size)
  let part := fun (m : SMap (List TlbEntry)) => (m.map (fun e => (e.1, e.2.filter keep))).filter (fun e => !e.2.isEmpty)
  { h with l1 := part h.l1, tlb := part h.tlb }

/-- Two lists of what uses dropped translations. -/
def Invalidation.and (a b : Invalidation) : Invalidation := ⟨a.accs ++ b.accs, a.copies ++ b.copies, a.rows ++ b.rows⟩

/-- Whether a part of an engine's access has been translated and lies among the addresses lo to hi. -/
def PagePart.within (lo hi : Nat) (p : PagePart) : Bool :=
  (match p.trans with | .done _ => true | _ => false) && windowOf p.va = 1 && p.va ≤ hi && lo < p.va + p.n

/-- Whether a chunk of a copy issued so far has translated an address among lo to hi. -/
def Copy.within (lo hi : Nat) (y : Copy) : Bool :=
  (y.chunks.mapIdx (fun i k => (i, k))).any (fun e =>
    let va := y.dst + (y.chunks.take e.1).foldl (fun n k => n + k.n) y.cursor
    e.2.src.any (PagePart.within lo hi) || PagePart.within lo hi ⟨va, e.2.n, e.2.dst⟩)

/-- What uses translations of function fn for the addresses lo to hi: accesses not performed, copies by the byte that their issued chunks end
at, rows of the staging stores on their way (R244). -/
def translationUsers (s : State) (fn lo hi : Nat) : Invalidation :=
  { accs := (s.work.accesses.filter (fun a => !a.performed && a.fn = fn && windowOf a.va = 1 && a.va ≤ hi && lo < a.va + a.size && !a.devicePlaces.isEmpty)).map (fun a => a.id)
    copies := (s.work.copies.filter (fun y => y.fn = fn && y.within lo hi)).map (fun y => (y.id, y.issued))
    rows := (s.staging.filter (fun x => s.fnOf (x.1 / 2048) = fn && !x.2.present && !x.2.bad && x.2.parts.any (PagePart.within lo hi))).map (fun x => (x.1, x.2.va)) }

/-- TLB_INVALIDATE: a write of the FN and GO register; GO starts an invalidation, done once every access that used an old
translation has performed. -/
def invalidateActs (s : State) (v : Word) : List Act :=
  let fn := (v.extractLsb' 0 5).toNat
  let lo := s.chip.invLo.toNat
  let hi := s.chip.invHi.toNat
  if !v.getLsbD 8 then [.chip (fun h => { h with invFn := fn })]
  else
    [.chip (fun h => { (h.dropTlb fn lo hi) with invFn := fn, invDone := false, invalidating := some ((h.invalidating.getD {}).and (translationUsers s fn lo hi)) })]

def execTlbInvalidate (value : Word) (s : State) : Host.Outcome State Fault Refusal := done (invalidateActs s value ++ [bump]) s

/-- Whether something that an invalidation waits for still uses an old translation. -/
def Invalidation.busy (s : State) (l : Invalidation) : Bool :=
  s.work.accesses.any (fun a => !a.performed && l.accs.contains a.id) ||
    s.work.copies.any (fun y => l.copies.any (fun e => e.1 = y.id && (y.cursor < e.2 || s.work.accesses.any (fun a => !a.performed && a.origin = some y.id)))) ||
    l.rows.any (fun e => let x := SMap.get {} s.staging e.1; x.va = e.2 && !x.present && !x.bad && !x.parts.isEmpty)

/-- Whether the invalidation in progress is complete. -/
def invalidated (s : State) : Bool :=
  match s.chip.invalidating with
  | some l => !(l.busy s)
  | none => false

def execTlbInvalidateComplete (s : State) : Host.Outcome State Fault Refusal :=
  done ((if invalidated s then [.chip (fun h => { h with invalidating := none, invDone := true })] else []) ++ [bump]) s

/-! Host-shared pages (R246, R270). -/

/-- What an access does when it performs. -/
def accessActs (s : State) (a : Access) : List Act :=
  match a.kind with
  | .load | .column _ => loadActs s a
  | .store | .drainRow _ _ | .record _ => storeActs s a
  | _ => requestActs s a

/-- Whether an access can perform before its cycle: translated, its store's other units too, its engine work done, and no row of a checksummed
drain, which is compared first (R205). -/
def forwardable (s : State) (a : Access) : Bool :=
  !(a.origin.isSome && !a.engine && s.work.accesses.any (fun b => b.origin = a.origin && !b.engine && b.trans = .waiting)) && !a.trans.isOpen && !(a.pieces.any (fun p => p.trans.isOpen)) && holdEnginesDone s a.deps &&
    !(match a.kind with
      | .drainRow n _ => s.work.commands.any (fun y => y.id = n && (match y.kind with | .drain _ _ _ _ ck _ _ => ck | _ => false))
      | _ => false)

/-- Performs accesses in the order given, each after the accesses it depends on; one that cannot perform yet stays. fuel bounds the depth of
dependence. -/
def bringForward : Nat → List Nat → State → List Act
  | 0, _, _ => []
  | fuel + 1, ids, s =>
    (ids.foldl (fun acc id =>
      match acc.2.accessOf id with
      | some a =>
        if a.performed || !forwardable acc.2 a then acc
        else
          let l := bringForward fuel ((pendingOf acc.2 a.deps).map (fun b => b.id)) acc.2
          let t := applyActs l acc.2
          let m := match t.accessOf id with | some b => if (pendingOf t b.deps).isEmpty then accessActs t b else [] | none => []
          (acc.1 ++ l ++ m, applyActs m t)
      | none => acc) (([] : List Act), s)).1

/-- The last-level table of a function's address (R242). -/
def leafTable (s : State) (fn va : Nat) : Option Nat :=
  let root := SMap.get 0 s.chip.roots fn
  let down := fun (t : Option Nat) (idx : Nat) =>
    t.bind (fun t =>
      let p := leValue (s.readBytes .hbm (t + 8 * idx) 8)
      if p % 4 = 1 then some (p / 2 ^ 12 % 2 ^ 28 * 4096) else none)
  if root.getLsbD 0 then
    down (down (down (some ((root.extractLsb' 20 20).toNat * 2 ^ 20)) (va / 2 ^ 39 % 2 ^ 17)) (va / 2 ^ 30 % 512)) (va / 2 ^ 21 % 512)
  else none

/-- Sets OWN in the 16 entries of a host-shared page. -/
def setOwn (s : State) (table va : Nat) (b : Bool) : List Act :=
  (List.range 16).map (fun i =>
    let a := table + 8 * (va / 4096 % 512 / 16 * 16 + i)
    let v := s.readByte .hbm a
    Act.write .hbm a [if b then v ||| 0x40 else v &&& 0xBF] [s.unitPoisoned .hbm a])

/-- Whether an access is a device write to a page: translated into it, or waiting for the walk that finds it. -/
def writesPage (a : Access) (e : TlbEntry) : Bool :=
  !a.performed && a.kind.stores &&
    (a.devicePlaces.any (fun p => rangesMeet p.1 p.2 e.pa e.size) || (a.fn = e.fn && a.trans = .waiting && e.covers e.fn a.va) ||
      (a.fn = e.fn && a.pieces.any (fun p => p.trans = .waiting && e.covers e.fn p.va)))

/-- An access whose walk finds a page now. -/
def Access.found (s : State) (e : TlbEntry) (a : Access) : Access :=
  let t := fun (va : Nat) (t : Translation) => if t = .waiting && e.covers e.fn va then e.use s va true else t
  { a with trans := t a.va a.trans, pieces := a.pieces.map (fun p => { p with trans := t p.va p.trans }) }

/-- A copy whose chunks' destinations that wait for a walk find a page now. -/
def Copy.found (s : State) (e : TlbEntry) (y : Copy) : Copy :=
  { y with chunks := y.chunks.mapIdx (fun i k =>
    let va := y.dst + (y.chunks.take i).foldl (fun n k => n + k.n) y.cursor
    if k.dst = .waiting && e.covers y.fn va then { k with dst := e.use s va true } else k) }

/-- Whether a store held in a LOOPP commit window goes to a page (R125). -/
def pageHeld (s : State) (e : TlbEntry) : Bool :=
  s.seqs.any (fun y => s.fnOf (y.1 / 4) = e.fn && (y.2.window ++ y.2.frozen.window).any (fun h => windowOf h.va = 1 && e.covers e.fn h.va))

/-- Whether a device write to a page is still to perform: an access, a chunk of a copy, a store of a commit window. -/
def pageWritten (s : State) (e : TlbEntry) : Bool :=
  s.work.accesses.any (fun a => writesPage a e) || pageHeld s e ||
    s.work.copies.any (fun y => y.chunks.any (fun k => match k.dst with | .done pa => rangesMeet pa k.n e.pa e.size | _ => false))

/-- The first of a page's move or handover: the writes that wait for a walk to it find it, and those that can perform do (R246, R270). -/
def writesFirst (s : State) (e : TlbEntry) : List Act :=
  let writes := (s.work.accesses.filter (fun a => writesPage a e)).map (fun a => a.id)
  let find : Act := .work (fun w => { w with accesses := w.accesses.map (fun a => if writes.contains a.id then a.found s e else a)
                                             copies := w.copies.map (fun y => y.found s e) })
  find :: bringForward (s.work.accesses.length + 1) writes (applyActs [find] s)

/-- A stage tried again in the next cycle. -/
def again (s : State) (p : PutOff) : Act := .work (fun w => { w with putOff := w.putOff ++ [(s.cyc + 1, p)] })

/-- PAGE_HANDOVER: a host-shared page passes to the host, once every device write to it issued before has performed, or back to the
device; the entry's translations are invalidated. Writes that cannot perform yet put the handover off (R246, R270). -/
def handoverActs (s : State) (fn va : Nat) (toHost : Bool) : List Act :=
  match walkNow s fn va (s.choice 0), leafTable s fn va with
  | some e, some t =>
    if !e.hostShared || e.own = toHost then []
    else
      let own : State → List Act := fun s => setOwn s t va toHost ++ [.chip (fun h => h.dropTlb fn e.base (e.base + e.size - 1))]
      if !toHost then own s
      else
        let l := writesFirst s e
        let r := applyActs l s
        l ++ (if pageWritten r e then [.work (fun w => { w with agenda := w.agenda ++ [(s.cyc + 1, .pageHandover fn va toHost)] })] else own r)
  | _, _ => []

def execPageHandover (fn va : Nat) (toHost : Bool) (s : State) : Host.Outcome State Fault Refusal :=
  done (handoverActs s fn va toHost ++ [bump]) s

/-- Where a host-link request of a function finds a byte of memory: the PF by device physical address, a VF by its device virtual
address; a page that the host owns is no fault to the host (R246, R348, R352; log 12). -/
def hostPlace (s : State) (fn va : Nat) (write : Bool) : Translation :=
  if fn = 0 then (if backed s va then .done va else .fault 0)
  else
    match translateNow s 0 fn va (s.choice 0) write, walkNow s fn va (s.choice 0) with
    | .fault 2, some e => .done (e.pa + (va - e.base))
    | t, _ => t

/-- A write of the host, page by page; to a range under migration it is held, as one that came before the access that takes the name stamp
(R253). -/
def hostWrite (s : State) (fn va : Nat) (bytes : List Byte) (stamp : Nat) : List Act :=
  (splitPages (bytes.length / 4096 + 2) va bytes.length).flatMap fun p =>
    let b := (bytes.drop (p.1 - va)).take p.2
    match hostPlace s fn p.1 true with
    | .done pa => [.write .hbm pa b (List.replicate b.length false)]
    | .held _ => [.chip (fun h => { h with hostHeld := h.hostHeld ++ [(fn, p.1, b, stamp)] })]
    | _ => []

/-! Range moves (R253). -/

/-- The bytes a range entry maps. -/
def rangeBytes (e : BitVec 192) : Nat := (rangeField e 80 40 + 1 - rangeField e 16 40) * 2 ^ 16

/-- Whether a launch of a function is resident: accepted and not done. -/
def residentFn (s : State) (fn : Nat) : Bool := s.work.launches.any (fun l => l.fn = fn)

/-- An access with the parts that a moving range n holds translated by its new entry. -/
def Access.rangeMoved (s : State) (n : Nat) (e : BitVec 192) (a : Access) : Access :=
  let t := fun (va : Nat) (t : Translation) => if t = .held n then checkMapping s (rangePa e va) true false true else t
  { a with trans := t a.va a.trans, pieces := a.pieces.map (fun p => { p with trans := t p.va p.trans })
           at_ := if a.trans = .held n then min a.at_ s.cyc else a.at_ }

/-- The work with what a moving range n holds translated by its new entry; the stores it held have the bound of where they go now (R256). -/
def Work.rangeMoved (w : Work) (s : State) (n : Nat) (e : BitVec 192) : Work :=
  { w with
    accesses := rebound s w.accesses (w.accesses.map (fun a => a.rangeMoved s n e))
    copies := w.copies.map (fun y => { y with chunks := y.chunks.mapIdx (fun i k =>
      if k.dst = .held n then { k with dst := checkMapping s (rangePa e (y.dst + (y.chunks.take i).foldl (fun n k => n + k.n) y.cursor)) true false true }
      else k) }) }

/-- Whether a moving range holds an access, or one of its pages. -/
def Access.heldBy (n : Nat) (a : Access) : Bool := a.trans = .held n || a.pieces.any (fun p => p.trans = .held n)

/-- The names of the accesses that a range holds, and the host's held writes with theirs, in the order held. -/
def heldOrder (s : State) (n : Nat) : List (Nat × Option (Nat × Nat × List Byte × Nat)) :=
  sortBy (fun e => 2 * e.1 + (if e.2.isSome then 0 else 1))
    (s.chip.hostHeld.map (fun h => (h.2.2.2, some h)) ++ (s.work.accesses.filter (fun a => !a.performed && a.heldBy n)).map (fun a => (a.id, none)))

/-- Performs what has been held in the order held, on the state after the range's update (R253). -/
def releaseOrder (fuel : Nat) (l : List (Nat × Option (Nat × Nat × List Byte × Nat))) (s : State) : List Act :=
  (l.foldl (fun acc e =>
    let m := match e.2 with
      | some h => hostWrite acc.2 h.1 h.2.1 h.2.2.1 h.2.2.2
      | none => bringForward fuel [e.1] acc.2
    (acc.1 ++ m, applyActs m acc.2)) (([] : List Act), s)).1

/-- Whether a copy's chunk is still to write into n bytes at a physical address. -/
def chunkWrites (s : State) (pa n : Nat) : Bool :=
  s.work.copies.any (fun y => y.chunks.any (fun k => match k.dst with | .done a => rangesMeet a k.n pa n | _ => false))

/-- RANGE_MIGRATION: a range moves to another place, in the steps 0 (W is cleared, and stores are held), 1 (the
writes translated before have performed, and the bytes are copied; it is put off while one cannot perform yet), 2, only after a copy to the place it
names (OFFSET is written and W set at once, and the held stores perform in the order held). A range with STAY does not move while its function has a
resident launch: where one has come since step 0, step 2 leaves it where it was. moving holds for each moving range one more than the OFFSET it
has been copied to. -/
def migrateActs (s : State) (n newOffset stage : Nat) : List Act :=
  let e := SMap.get 0 s.chip.ranges n
  let fn := rangeField e 4 5
  let set := fun (v : BitVec 192) (h : Chip) => { h with ranges := SMap.set 0 h.ranges n v }
  let old := rangeField e 144 24 * 2 ^ 16
  let new := newOffset % 2 ^ 24 * 2 ^ 16
  match stage, s.chip.moving.find? (fun m => m.1 = n) with
  | 0, none =>
    if !e.getLsbD 0 || (e.getLsbD 2 && residentFn s fn) then []
    else [.chip (fun h => { (set (setField e 1 1 0) h) with moving := h.moving ++ [(n, 0)] })]
  | 1, some _ =>
    let writes := (s.work.accesses.filter (fun a => !a.performed && a.kind.stores &&
      a.devicePlaces.any (fun p => rangesMeet p.1 p.2 old (rangeBytes e)))).map (fun a => a.id)
    let l := bringForward (s.work.accesses.length + 1) writes s
    let t := applyActs l s
    if t.work.accesses.any (fun a => writes.contains a.id && !a.performed) || chunkWrites t old (rangeBytes e) then l ++ [again s (.range n newOffset 1)]
    else
      l ++ eccChecks t [(.hbm, old, rangeBytes e)] fn ++ [.write .hbm new (t.readBytes .hbm old (rangeBytes e)) (t.readPoison .hbm old (rangeBytes e)),
            .chip (fun h => { h with moving := h.moving.map (fun m => if m.1 = n then (n, newOffset % 2 ^ 24 + 1) else m) })]
  | 2, some m =>
    let stays := e.getLsbD 2 && residentFn s fn
    if s.work.putOff.any (fun e => e.2 = .range n newOffset 1) then [again s (.range n newOffset 2)]
    else if m.2 ≠ newOffset % 2 ^ 24 + 1 && !stays then []
    else
    let e' := setField (if stays then e else setField e 144 24 newOffset) 1 1 1
    let l : List Act := [.chip (fun h => { (set e' h) with moving := h.moving.filter (fun k => k.1 ≠ n), hostHeld := [] }),
     .work (fun w => w.rangeMoved s n e')]
    l ++ releaseOrder (s.work.accesses.length + 1) (heldOrder s n) (applyActs l s)
  | _, _ => []

def execRangeMigration (entry newOffset stage : Nat) (s : State) : Host.Outcome State Fault Refusal :=
  done (migrateActs s entry newOffset stage ++ [bump]) s

end Sys2Proof.Machine
end

