-- ==== Sys2Proof/Machine/Queues.lean ====
section
/-! DEFINITION. Launches on their cores: start, tasks, end, slices, switches, deadlines (13 R283 to R291, R380, R381). -/

namespace Sys2Proof.Machine

/-! Start (R283). -/

/-- The kernel that a launch runs on core c (R280). -/
def kernelFor (s : State) (l : Launch) (c : Nat) : Kernel :=
  let i := if l.task then 0 else (l.cores.findIdx? (fun d => d = c)).getD 0
  match s.kernels.find? (fun k => k.1 = l.images.getD i 0) with | some k => k.2 | none => {}

/-- Loads a kernel's images on top of the initial state (R283, 04 R74, 05 R102, R103). A device image that does not translate is dropped, and the
launch starts without it (DESIGN CHOICE, log 89: no rule says what it does). -/
def loadImages (s : State) (c fn : Nat) (k : Kernel) : List Act :=
  k.dict.mapIdx (fun i b => Act.dict c i b) ++ k.ucode.map (fun e => .ucode c e.1 e.2) ++ k.routines.map (fun e => .routine c e.1 e.2) ++
    k.cht.map (fun e => .cht c e.1 e.2) ++
    k.data.flatMap (fun d =>
      let clean := List.replicate d.bytes.length false
      match d.place with
      | .spd => [.write (.spd c) d.off d.bytes clean]
      | .bos => [.write (.bos c) d.off d.bytes clean]
      | .device => match writeDevice s c fn d.off (s.choice 1) d.bytes clean with | .ok l => l | .error _ => [])

/-- The launch state of a core (R283). -/
def Core.launched (y : Core) (l : Launch) (k : Kernel) : Core :=
  { y with width := l.width, allot := l.allot, launchId := BitVec.ofNat 64 l.launchId, seed := BitVec.ofNat 64 l.seed, budget := l.budget
           det := l.level + 4 * l.dprom, streamBytes := k.stream.length, stream := k.stream, dictCount := k.dict.length
           ptBase := 0, ptSize := 0, rr := 0, cktol := 0, chk := {}, writePending := [], idleUntil := none }

/-- The runs of device memory that a launch's images on a core are written to (R102). -/
def imageWrites (s : State) (l : Launch) (c : Nat) : List (Nat × Nat) :=
  ((kernelFor s l c).data.filter (fun d => d.place = .device)).map (fun d => (d.off, d.bytes.length))

/-- Whether a core can take a launch: it is in service and owned by the launch's queue (R283), and no page of its images is under a
migration or needs a walk any more (R243, R246). -/
def canTake (s : State) (l : Launch) (c : Nat) : Bool :=
  let y := s.coreOf c
  (imageWrites s l c).all (fun r => !heldWrite s l.fn r.1 r.2 && mapped s c l.fn r.1 r.2 true) &&
    y.switching.isNone && !quiescing s c && !y.outOfService &&
    (match y.owner with | some n => n = l.queue && !(y.queues.getD n {}).quiesced && (y.queues.getD n {}).launch = some l.id | none => false)

/-- Whether a launch has begun on a core. -/
def hasBegun (s : State) (l : Launch) (c : Nat) : Bool :=
  let q := (s.coreOf c).queues.getD l.queue {}
  q.launch = some l.id && q.started

/-- Whether a launch may start on a core: its start cycle has come, the core can take it, and for a TIMED launch so can every other core
of its set, so that all of them start in one cycle (R283). -/
def launchReady (s : State) (l : Launch) (c : Nat) : Bool :=
  (match l.startAt with | some t => t ≤ s.cyc | none => false) && s.cyc % 4 = 0 && canTake s l c && !hasBegun s l c &&
    (l.task || l.remaining.all (fun d => hasBegun s l d || canTake s l d))

/-- LAUNCH_START: a launch takes a core: initial state, images, sequencer 0 at stream address 0; a TASK launch's sequencers wait for
their tasks. -/
def launchActs (s : State) (l : Launch) (c : Nat) : List Act :=
  if !launchReady s l c then []
  else
    let k := kernelFor s l c
    [dropTiles c, .clearCore c] ++ (List.range 4).flatMap (fun i =>
        [Act.clearSeq (4 * c + i), .seq (4 * c + i) (fun _ => { run := if i = 0 && !l.task then .run else .idle })]) ++
      [.core c (fun y => y.launched l k), modQueue c l.queue (fun q => { q with started := true })] ++ loadImages s c l.fn k

def execLaunchStart (launch core : Nat) (s : State) : Host.Outcome State Fault Refusal :=
  done ((match s.work.launches.find? (fun l => l.id = launch) with | some l => launchActs s l core | none => []) ++ [bump]) s

/-! Tasks (R289, R290). -/

/-- The next task of a core, once the one before is done (R290). -/
def taskReady (s : State) (c : Nat) : Option (Launch × Nat) :=
  let y := s.coreOf c
  match y.owner with
  | none => none
  | some n =>
    let q := y.queues.getD n {}
    match s.launchOf c n, q.tasks with
    | some l, i :: _ => if q.started && !q.quiesced && !q.ended && y.switching.isNone && !quiescing s c && restsOn s c n then some (l, i) else none
    | _, _ => none

/-- TASK_START: sequencer 0 runs at ENTRY with s1 and s2 set; FMT and the flags are as at launch; the run that ended with the last
HALT before it counts no more (R288). -/
def taskActs (s : State) (c : Nat) : List Act :=
  match taskReady s c with
  | none => []
  | some (l, i) =>
    let found := deviceChecks s c l.fn (l.taskList + 16 * i) 16 (s.choice 0)
    let e := match readDevice s c l.fn (l.taskList + 16 * i) 16 (s.choice 0) with
      | .ok r => if (r.2.take 8).any (fun p => p) then (List.replicate 8 0xFF ++ r.1.drop 8, r.2) else r
      | .error _ => (List.replicate 16 0xFF, List.replicate 16 true)
    let arg := (e.2.drop 8).any (fun p => p)
    found ++ (List.range 4).flatMap (fun k => .seq (4 * c + k) (fun z => { z with fmt := Config.fmtReset }) :: clearFlags (4 * c + k)) ++
      [.scalar (4 * c) 1 ⟨BitVec.ofNat 64 i, false⟩,
       .scalar (4 * c) 2 ⟨if arg then 0 else BitVec.ofNat 64 (leValue (e.1.drop 8)), arg⟩,
       .seq (4 * c) (fun z => { z with run := .run, wait := .none, pc := leValue (e.1.take 4) }),
       modQueue c l.queue (fun q => { q with tasks := q.tasks.drop 1, sinceYield := 0, overrun := false })]

def execTaskStart (core : Nat) (s : State) : Host.Outcome State Fault Refusal := done (taskActs s core ++ [bump]) s

/-! Ends (R284, R381). -/

/-- The key of a queue's save area (R287). -/
def saveKey (c n : Nat) : Nat := 8 * c + n

/-- A queue left free, its rank and PASS its own. -/
def Queue.freed (q : Queue) : Queue := { rank := q.rank, pass := q.pass }

/-- LAUNCH_DONE: a launch done on every core of its set gets its record, and its queues become free (R284). -/
def launchDoneActs (s : State) (l : Launch) : List Act :=
  if !l.remaining.isEmpty then []
  else
    l.cores.flatMap (fun c =>
      [modQueue c l.queue (fun q => if q.launch = some l.id then q.freed else q), .forget (saveKey c l.queue)]) ++
    [.work (fun w => { w with launches := w.launches.filter (fun k => k.id ≠ l.id), copies := w.copies.filter (fun y => y.launch ≠ some l.id) })] ++
      complete s l.fn (completionRecord 0x07 0x01 l.launchId l.pix 0)

def execLaunchDone (launch : Nat) (s : State) : Host.Outcome State Fault Refusal :=
  done ((match s.work.launches.find? (fun l => l.id = launch) with | some l => launchDoneActs s l | none => []) ++ [bump]) s

/-- The launch that is done on the core it owns, if one is. -/
def ownerDone (s : State) (c : Nat) : Option Nat :=
  match (s.coreOf c).owner with
  | some n => if (s.coreOf c).switching.isNone && doneOn s c n then some n else none
  | none => none

/-- Whether the arbiter has a decision to make on a core that runs no launch (R381). -/
def idleDecision (s : State) (c : Nat) : Bool :=
  let y := s.coreOf c
  (ownerDone s c).isSome || (y.owner.isNone && y.switching.isNone && !quiescing s c && !coreIdle y s.cyc && y.queues.any Queue.ready)

/-- ARBITER_IDLE_GRANT: the running launch is done on the core, or a queue has become ready there: the arbiter decides with no
running queue. -/
def idleGrantActs (s : State) (c : Nat) : List Act :=
  if !idleDecision s c then []
  else
    let free : List Act := match ownerDone s c with
      | some n =>
        [modQueue c n (fun q => { q with done := true }), .core c (fun y => { y with owner := none, idleUntil := none })] ++
          (match s.launchOf c n with
           | some l => [.work (fun w => { w with launches := w.launches.map (fun k =>
               if k.id = l.id then { k with remaining := k.remaining.filter (fun d => d ≠ c) } else k) })]
           | none => [])
      | none => []
    let t := applyActs free s
    free ++ (if !quiescing s c && (t.coreOf c).queues.any Queue.ready then decide' t c (arbitrate (t.coreOf c) t.cyc none false) else [])

def execArbiterIdleGrant (core : Nat) (s : State) : Host.Outcome State Fault Refusal := done (idleGrantActs s core ++ [bump]) s

/-! Slices (R286, R380). -/

/-- The end of the slice in progress as the core's fields hold it. -/
def sliceEnd (y : Core) : Nat := match y.stretched with | some e => e | none => y.sliceStart + y.slice

/-- Whether a core's slice resets are watched: it holds a launch, a rank waits for its next one (R281), or its slice is stretched. -/
def sliceWatched (y : Core) : Bool := y.queues.any (fun q => q.launch.isSome) || !y.pendRanks.isEmpty || y.stretched.isSome

/-- A queue as a slice ends (R286): a ready one that did not own the core gains 1 in PASS, up to 16. -/
def Queue.aged (q : Queue) (own : Bool) : Queue :=
  { q with pass := if q.ready && !q.ownedSlice then min 16 (q.pass + 1) else q.pass, ownedSlice := own }

/-- A core as its slice ends and the next begins: ranks and slice length that a QSET has set apply. -/
def Core.nextSliceAt (y : Core) (t : Nat) : Core :=
  { y with sliceStart := t, slice := y.nextSlice, stretched := none, stretchFor := none, pendRanks := []
           queues := y.queues.mapIdx (fun i q =>
             let q := match (y.pendRanks.reverse.find? (fun e => e.1 = i)) with | some e => { q with rank := e.2 } | none => q
             q.aged (y.owner = some i && y.switching.isNone)) }

/-- Whether the arbiter decides at a slice reset: the core stands at a YIELD or holds no running launch (R286, R302). -/
def decidesAtReset (y : Core) : Bool := y.switching.isNone && (y.owner.isNone || y.idleUntil.isSome)

/-- SLICE_RESET: the slice ends; PASS ages; a core that waits for it gets the arbiter's choice, or an idle grant (R375). -/
def sliceResetActs (s : State) (c : Nat) : List Act :=
  let y := s.coreOf c
  if s.cyc < sliceEnd y then []
  else
    let waits := decidesAtReset y && (match y.idleUntil with | some u => sliceEnd y ≤ u | none => true)
    let l : List Act := [.core c (fun y => y.nextSliceAt s.cyc)]
    let t := applyActs l s
    let power : List Act := match idleGrant t (t.coreOf c) 50002 with
      | some u => [.core c (fun y => { y with idleUntil := some (max u (y.idleUntil.getD 0)) }),
                   .chip (fun h => { h with idleGrants := min (h.idleGrants + 1) (2 ^ 32 - 1) })]
      | none => []
    if waits && !quiescing s c && (y.owner.isSome || (t.coreOf c).queues.any Queue.ready) then
      l ++ decide' t c (arbitrate (t.coreOf c) t.cyc (match y.owner with | some n => if (y.queues.getD n {}).ready then some n else none | none => none) true) ++ power
    else l

def execSliceReset (core : Nat) (s : State) : Host.Outcome State Fault Refusal := done (sliceResetActs s core ++ [bump]) s

/-! Switches (R287). -/

/-- QUEUE_SWITCH_COMPLETE: the outgoing launch's state is in its save area, its copies suspended; the incoming one's is restored and
its copies go on; one that has not begun takes the core. -/
def switchActs (s : State) (c : Nat) : List Act :=
  let y := s.coreOf c
  match y.switching with
  | some (to_, t) =>
    if s.cyc < t || !settledCore s c || y.outOfService then []
    else
      let out : List Act := match y.owner with
        | some m => if (y.queues.getD m {}).ended then [] else [.save c (saveKey c m)]
        | none => []
      let moveCopies := fun (n : Nat) (b : Bool) =>
        match s.launchOf c n with
        | some l => [Act.work (fun w => { w with copies := w.copies.map (fun k => if k.launch = some l.id && k.q / 4 = c then { k with suspended := b } else k) })]
        | none => []
      let back : List Act := match to_ with
        | some n => if (y.queues.getD n {}).started then .restore c (saveKey c n) :: moveCopies n false else []
        | none => []
      let l := out ++ (match y.owner with | some m => moveCopies m true | none => []) ++ stopCore c ++ back ++
        [.core c (fun y => { y with owner := to_, switching := none })]
      let u := applyActs l s
      l ++ (match to_ with | some n => if (y.queues.getD n {}).started then [] else fixStart u c n | none => [])
  | none => []

def execQueueSwitchComplete (core : Nat) (s : State) : Host.Outcome State Fault Refusal := done (switchActs s core ++ [bump]) s

/-! Deadlines and stated runs (R288, R291). -/

/-- Whether the launch that owns a core has spent its budget there. -/
def deadlineDue (s : State) (c : Nat) : Bool :=
  match (s.coreOf c).owner with
  | some n =>
    let q := (s.coreOf c).queues.getD n {}
    q.started && q.grace.isNone && !q.ended && !doneOn s c n && (s.coreOf c).budget ≤ q.owned
  | none => false

/-- DEADLINE_FAULT: every sequencer that is not IDLE takes the deadline fault at its next boundary; the grace begins. -/
def deadlineActs (s : State) (c : Nat) : List Act :=
  if !deadlineDue s c then []
  else
    match (s.coreOf c).owner with
    | some n =>
      (List.range 4).map (fun i => Act.seq (4 * c + i) (fun z => if z.run = .idle then z else { z with deadline := true })) ++
        [modQueue c n (fun q => { q with grace := some (q.owned + Config.graceCycles) }), post s 0x15 (s.fnOf c) c 0 0]
    | none => []

def execDeadlineFault (core : Nat) (s : State) : Host.Outcome State Fault Refusal := done (deadlineActs s core ++ [bump]) s

/-- Whether the grace of a queue has ended with its launch not done. -/
def graceOver (s : State) (c n : Nat) : Bool :=
  let q := (s.coreOf c).queues.getD n {}
  (match q.grace with | some g => g ≤ q.owned | none => false) && !doneOn s c n

/-- DEADLINE_ABORT: the launch is ended on the core (R291). -/
def execDeadlineAbort (core queue : Nat) (s : State) : Host.Outcome State Fault Refusal :=
  done ((if graceOver s core queue then endLaunch s core queue 0x08 0x15 0 else []) ++ [bump]) s

/-- Whether the owner of a core runs past its stated run, not yet reported (R288). -/
def overrunDue (s : State) (c : Nat) : Bool :=
  match (s.coreOf c).owner with
  | some n =>
    let q := (s.coreOf c).queues.getD n {}
    q.started && !q.overrun && q.run < q.sinceYield && (List.range 4).any (fun i => (s.seqOf (4 * c + i)).run ≠ .idle)
  | none => false

/-- STATED_RUN_OVERRUN: the overrun event, and nothing else. -/
def overrunPost (s : State) (c : Nat) : List Act :=
  match (s.coreOf c).owner with
  | some n => if overrunDue s c then [modQueue c n (fun q => { q with overrun := true }), post s 0x30 (s.fnOf c) c 0 0] else []
  | none => []

def execStatedRunOverrun (core : Nat) (s : State) : Host.Outcome State Fault Refusal := done (overrunPost s core ++ [bump]) s

end Sys2Proof.Machine
end

