-- ==== Sys2Proof/Machine/Packets.lean ====
section
/-! DEFINITION. Command packets (13 R279 to R282, R289, R292, R293): what a function's ring holds, refusals, LAUNCH, DETLEVEL, QSET, RESUME,
ABORT. -/

namespace Sys2Proof.Machine

/-! The command ring (R282). -/

/-- The ring of a function. -/
def Chip.ring (h : Chip) (fn : Nat) : Ring := SMap.get {} h.rings fn

/-- Whether the SL4 reads a packet from a function's ring: enabled, not empty, its completion ring with room, no reset (R282, R352). -/
def ringReady (s : State) (fn : Nat) : Bool :=
  let r := s.chip.ring fn
  r.en && r.cmdHead ≠ r.cmdTail && r.waiting.isEmpty && r.used < 2 ^ r.cplLog && !resetting s fn

/-- The packet at a ring's head (R282). -/
def ringPacket (s : State) (fn : Nat) : Packet :=
  let r := s.chip.ring fn
  ⟨fn, r.cmdHead, BitVec.ofNat 2048 (leValue (s.readBytes .host (r.cmdBase + 256 * (r.cmdHead % 2 ^ r.cmdLog)) 256))⟩

/-- A field of a packet. -/
def packetField (p : Packet) (b w : Nat) : Nat := (p.bits.extractLsb' b w).toNat

/-- The function a packet names: its ring's for LAUNCH, FN for the others (R281). -/
def packetFn (p : Packet) : Nat := if packetField p 0 8 = 1 then p.ring else packetField p 8 5

/-- The fields of each packet code, by first bit and width (R280, R281). -/
def packetFields (code : Nat) : List (Nat × Nat) :=
  match code with
  | 1 => [(0, 18), (32, 32), (64, 64), (128, 48), (176, 32), (208, 16), (256, 9), (266, 11), (288, 9), (298, 11), (320, 9), (330, 11),
          (352, 9), (362, 11), (384, 64), (448, 64), (512, 64), (576, 32)]
  | 2 => [(0, 13), (16, 2)]
  | 3 => [(0, 20), (32, 32), (64, 16), (128, 64)]
  | 4 => [(0, 13), (32, 32), (64, 64), (128, 64)]
  | 5 => [(0, 13), (64, 64), (128, 64)]
  | 6 => [(0, 13)]
  | 7 => [(0, 13), (32, 32)]
  | _ => []

/-- The bits a packet code uses. -/
def packetMask (code : Nat) : BitVec 2048 :=
  (packetFields code).foldl (fun m f => m ||| BitVec.ofNat 2048 ((2 ^ f.2 - 1) * 2 ^ f.1)) 0

/-- Whether a function exists and is enabled (R281). -/
def fnEnabled (s : State) (fn : Nat) : Bool := fn = 0 || (s.chip.vfEnable && fn ≤ s.chip.numVfs && fn ≤ 16)

/-- Whether a packet's target is not one that its ring may name (R281). -/
def badTarget (s : State) (p : Packet) : Bool :=
  packetField p 0 8 ≠ 1 && (if p.ring = 0 then !fnEnabled s (packetFn p) else packetFn p ≠ p.ring)

/-- Whether a function's context is quiesced (R303). -/
def quiesced (s : State) (fn : Nat) : Bool := s.chip.quiesces.any (fun z => z.fn = fn && z.cut)

/-- Whether the launch named by an ABORT is one of the function's (R281). -/
def namedLaunch (s : State) (fn id : Nat) : Option Launch := s.work.launches.find? (fun l => l.fn = fn && l.launchId = id)

/-- Whether a packet is refused with BAD_PACKET (R279 to R281). -/
def packetBad (s : State) (p : Packet) : Bool :=
  let f := packetField p
  let code := f 0 8
  code = 0 || 7 < code || p.bits &&& ~~~(packetMask code) ≠ 0 || badTarget s p ||
    (match code with
     | 1 => f 12 2 = 3 || f 14 2 = 3 || f 16 2 = 3 || f 128 48 = 0 || f 176 32 = 0 || f 208 16 = 0 || 1024 < f 208 16
     | 2 => f 16 2 = 3
     | 3 => (f 19 1 = 1 && f 32 32 < 1000) || f 64 16 = 0 || 1024 < f 64 16
     | 4 => f 32 32 = 0 || f 64 64 % 4096 ≠ 0
     | 6 => !quiesced s (packetFn p)
     | 7 => (namedLaunch s (packetFn p) (f 32 32)).isNone
     | _ => false)

/-- Whether a packet is the one its ring holds at its head, to be read now. -/
def packetPending (s : State) (p : Packet) : Bool := ringReady s p.ring && ringPacket s p.ring = p

/-- Takes a packet from its ring and does what it asks (R282). -/
def takePacket (s : State) (p : Packet) (body : State → List Act) : List Act :=
  if packetPending s p then
    let l : List Act := [.chip (fun h => { h with rings := SMap.set {} h.rings p.ring { h.ring p.ring with cmdHead := (p.index + 1) % 2 ^ 32 } })]
    l ++ body (applyActs l s)
  else []

/-- The record that answers a packet at once. -/
def answer (s : State) (p : Packet) (status launchId : Nat) : List Act :=
  complete s p.ring (completionRecord status (packetField p 0 8) launchId p.index 0)

/-- The launch that a packet refused with BAD_PACKET concerns: a LAUNCH names it, the other packets none (R282; log 67). -/
def badLaunch (p : Packet) : Nat := if packetField p 0 8 = 1 then packetField p 32 32 else 0

def execBadPacket (packet : Packet) (s : State) : Host.Outcome State Fault Refusal :=
  done ((if packetBad s packet then takePacket s packet (fun s => answer s packet 0x01 (badLaunch packet)) else []) ++ [bump]) s

/-- A packet of a code that is not refused with BAD_PACKET. -/
def codedPacket (s : State) (p : Packet) (code : Nat) (body : State → List Act) : List Act :=
  if packetField p 0 8 = code && !packetBad s p then takePacket s p body else []

/-! LAUNCH (R26, R280, R289, R292). -/

/-- n little-endian entries of w bytes of a list in a function's device virtual memory; none where the list does not translate or reads
poisoned (R364). -/
def readList (s : State) (fn va n w : Nat) : Option (List Nat) :=
  match readDevice s 0 fn va (n * w) (s.choice 3) with
  | .ok r => if r.2.any (fun p => p) then none else some ((chunks w n r.1).map leValue)
  | .error _ => none

/-- A core as the core-set list names it (R280). -/
def listedCore (v : Nat) : Nat := 256 * (v / 256 % 4) + v % 256

/-- The core-set list of a packet. -/
def coreSet (s : State) (fn va n : Nat) : Option (List Nat) := (readList s fn va n 2).map (fun l => l.map listedCore)

/-- Base, size and SH of an allotment word (R34). -/
def allotFields (v : Nat) : Nat × Nat × Bool := (v % 512, v / 2 ^ 10 % 2 ^ 10, v.testBit 20)

/-- Whether the allotments of the first w sequencers break R26. -/
def allotsBad (w : Nat) (l : List Nat) : Bool :=
  let a := (l.take w).map allotFields
  a.any (fun e => e.2.1 = 0 || 512 < e.1 + e.2.1) ||
    (List.range w).any (fun i => (List.range i).any (fun j =>
      let x := a.getD i (0, 0, false)
      let y := a.getD j (0, 0, false)
      x.1 < y.1 + y.2.1 && y.1 < x.1 + x.2.1 && !(x.2.2 && y.2.2)))

/-- The tasks of the core at a position of the core-set list (R289). -/
def placedTasks (seed ntask ncore pos : Nat) : List Nat :=
  (List.range ntask).filter (fun i => (generator (BitVec.ofNat 64 seed) (BitVec.ofNat 64 i)).toNat / 2 ^ 32 % ncore = pos)

/-- The runs of device memory that the SL4 reads for a packet, address and bytes (R280, R281, R305). -/
def packetReads (p : Packet) : List (Nat × Nat) :=
  let f := packetField p
  match f 0 8 with
  | 1 => [(f 384 64, 2 * f 208 16), (f 448 64, 16 * (if f 11 1 = 1 then 1 else f 208 16))]
  | 3 => [(f 128 64, 2 * f 64 16)]
  | 5 => [(f 64 64, f 128 64)]
  | _ => []

/-- Whether no page of them needs a walk any more (R243; log 84). -/
def packetMapped (s : State) (p : Packet) : Bool := (packetReads p).all (fun r => mapped s 0 p.ring r.1 r.2 false)

/-- The launch that a LAUNCH packet describes, its lists read, or none where they do not translate. -/
def packetLaunch (s : State) (fn : Nat) (p : Packet) : Option Launch :=
  let f := packetField p
  let n := f 208 16
  let task := f 11 1 = 1
  match coreSet s fn (f 384 64) n, readList s fn (f 448 64) (if task then 1 else n) 16 with
  | some cs, some im =>
    some { id := s.work.nextId, fn := fn, ring := p.ring, pix := p.index, queue := f 8 3, task := task, width := 2 ^ f 12 2, dreq := f 14 2
           dprom := f 16 2, level := SMap.get 0 s.chip.levels fn, launchId := f 32 32, seed := f 64 64, budget := f 128 48, run0 := f 176 32
           allot := (List.range 4).map (fun i => BitVec.ofNat 64 (f (256 + 32 * i) 32)), cores := cs, images := im.map (fun v => v % 2 ^ 64)
           taskList := f 512 64, ntask := if task then f 576 32 else 0, remaining := cs.eraseDups, packet := p.bits }
  | _, _ => none

/-- The ECC checks of the lists that a LAUNCH or QSET reads (R254, R364). -/
def listChecks (s : State) (p : Packet) : List Act :=
  let f := packetField p
  let n := f 208 16
  if f 0 8 = 1 then
    deviceChecks s 0 p.ring (f 384 64) (2 * n) (s.choice 3) ++
      deviceChecks s 0 p.ring (f 448 64) (16 * (if f 11 1 = 1 then 1 else n)) (s.choice 3)
  else deviceChecks s 0 p.ring (f 128 64) (2 * f 64 16) (s.choice 3)

/-- The status of a LAUNCH (R280, R293). -/
def launchStatus (s : State) (p : Packet) (l : Option Launch) : Nat :=
  let f := packetField p
  if f 16 2 < f 14 2 || f 16 2 < SMap.get 0 s.chip.levels p.ring then 0x02
  else if allotsBad (2 ^ f 12 2) ((List.range 4).map (fun i => f (256 + 32 * i) 32)) then 0x03
  else
    match l with
    | none => 0x04
    | some l =>
      if l.cores.any (fun c =>
          let k := kernelFor s l c
          ((s.coreOf c).queues.getD l.queue {}).launch.isSome || s.fnOf c ≠ l.fn || (s.coreOf c).outOfService ||
            4096 < k.dict.length || k.ucode.any (fun e => 4096 ≤ e.1) || k.routines.any (fun e => 256 ≤ e.1)) then 0x04
      else 0

/-- A queue of core c has become ready: a core that the arbiter left idle until its slice reset with no queue running gets a decision in
this cycle (R381). -/
def wakeArbiter (s : State) (c : Nat) : Act :=
  .core c (fun y =>
    let y := y.atSlice s.cyc
    { y with idleUntil := if y.owner.isNone && y.idleUntil = some (sliceEnd y) then none else y.idleUntil })

/-- Queues an accepted launch on its cores. -/
def queueLaunch (s : State) (l : Launch) : List Act :=
  .work (fun w => { w with launches := w.launches ++ [l], nextId := w.nextId + 1 }) ::
    l.remaining.flatMap (fun c =>
      let pos := (l.cores.findIdx? (fun d => d = c)).getD 0
      [wakeArbiter s c,
       modQueue c l.queue (fun q => { q.freed with
         launch := some l.id, run := l.run0, tasks := if l.task then placedTasks l.seed l.ntask l.cores.length pos else [] })])

/-- LAUNCH: checked, answered, and queued on its core set. -/
def execLaunch (packet : Packet) (s : State) : Host.Outcome State Fault Refusal :=
  done (codedPacket s packet 1 (fun s =>
    let l := packetLaunch s packet.ring packet
    let st := launchStatus s packet l
    listChecks s packet ++ answer s packet st (packetField packet 32 32) ++ (if st = 0 then (match l with | some l => queueLaunch s l | none => []) else [])) ++ [bump]) s

/-! DETLEVEL, QSET, RESUME, ABORT. -/

/-- DETLEVEL: the context level for launches accepted from now on (R293). -/
def execDetlevel (packet : Packet) (s : State) : Host.Outcome State Fault Refusal :=
  done (codedPacket s packet 2 (fun s =>
    .chip (fun h => { h with levels := SMap.set 0 h.levels (packetFn packet) (packetField packet 16 2) }) :: answer s packet 0 0) ++ [bump]) s

/-- QSET: a queue's rank, and a slice length, from each core's next slice reset (R281, R380). -/
def execQset (packet : Packet) (s : State) : Host.Outcome State Fault Refusal :=
  done (codedPacket s packet 3 (fun s =>
    let f := packetField packet
    listChecks s packet ++ match coreSet s packet.ring (f 128 64) (f 64 16) with
    | none => answer s packet 0x04 0
    | some cs =>
      if cs.any (fun c => s.fnOf c ≠ packetFn packet) then answer s packet 0x04 0
      else
        cs.map (fun c => Act.core c (fun y =>
          let y := y.atSlice s.cyc
          { y with pendRanks := y.pendRanks ++ [(f 13 3, f 16 3)], nextSlice := if f 19 1 = 1 then f 32 32 else y.nextSlice })) ++
          answer s packet 0 0) ++ [bump]) s

/-- The cores of a function. -/
def coresOf (s : State) (fn : Nat) : List Nat := (s.cores.filter (fun e => e.2.mapFn = fn)).map (fun e => e.1)

/-- A quiesced context goes on in place (R303): its sequencers run on their next turns, its queues and copies go on. -/
def resumeContext (s : State) (fn : Nat) : List Act :=
  (coresOf s fn).flatMap (fun c =>
    (List.range 4).map (fun i => Act.seq (4 * c + i) (fun z => if z.run = .quiesced then z.proceed else z)) ++
      [.core c (fun y => { y with queues := y.queues.map (fun q => { q with quiesced := false }) }), wakeArbiter s c]) ++
    [.chip (fun h => { h with quiesces := h.quiesces.filter (fun z => z.fn ≠ fn) })]

def execResume (packet : Packet) (s : State) : Host.Outcome State Fault Refusal :=
  done (codedPacket s packet 6 (fun s => resumeContext s (packetFn packet) ++ answer s packet 0 0) ++ [bump]) s

/-- Ends a launch on every core on which it is not yet done, one after another (R279, R291). -/
def abortLaunch (l : Launch) : List Nat → State → List Act
  | [], _ => []
  | c :: cs, s =>
    let a := endLaunch s c l.queue 0x08 0x15 0
    a ++ abortLaunch l cs (applyActs a s)

def execAbort (packet : Packet) (s : State) : Host.Outcome State Fault Refusal :=
  done (codedPacket s packet 7 (fun s =>
    let a := answer s packet 0 (packetField packet 32 32)
    a ++ (match namedLaunch s (packetFn packet) (packetField packet 32 32) with
      | some l => abortLaunch l l.remaining (applyActs a s)
      | none => [])) ++ [bump]) s

end Sys2Proof.Machine
end

