-- ==== Sys2Proof/Machine/Quiesce.lean ====
section
/-! DEFINITION. Quiesce, the serial state image, and restore (13 R302 to R305, 17 R346; log 15). -/

namespace Sys2Proof.Machine

/-! Frames of a cut (R296, R303 step 7). -/

/-- Bytes brought to a length with zeros. -/
def pad (n : Nat) (l : List Byte) : List Byte := (l ++ List.replicate (n - l.length) 0).take n

/-- The register save area of sequencer i of a saved core: TIME of TCMP in cycles past the cut. -/
def saveArea (v : SavedCore) (y : Seq) (i cyc : Nat) : List (Nat × List Byte) :=
  let s := fun (r : Nat) => SMap.get {} v.scalars (64 * i + r)
  let m := fun (r : Nat) => SMap.get {} v.masks (16 * i + r)
  let g := fun (r : Nat) => SMap.get {} v.glints (4 * i + r)
  let time := (y.tcmp.toNat % 2 ^ 48 + 2 ^ 48 - cyc % 2 ^ 48) % 2 ^ 48 + y.tcmp.toNat / 2 ^ 48 * 2 ^ 48
  [(0x2600, (List.range 64).flatMap (fun r => leBytes 8 (s r).val.toNat)),
   (0x2800, leBytes 128 (2 ^ 1024 - 1) ++ (List.range 15).flatMap (fun r => leBytes 128 (m (r + 1)).val.toNat)),
   (0x3000, (List.range 4).flatMap (fun r => leBytes 8 (g r).val.toNat) ++ leBytes 8 y.fmt.toNat ++ leBytes 8 y.tb.toNat ++ leBytes 8 time ++
      leBytes 8 (packBits ((List.range 64).map (fun r => (s r).poison))) ++ leBytes 2 (packBits ((List.range 16).map (fun r => (m r).poison))) ++
      leBytes 2 (packBits ((List.range 4).map (fun r => (g r).poison))))]

/-- What the cut writes into the frame of sequencer i of a saved core; a quiesced one reads as parked at its YIELD. -/
def cutFrame (v : SavedCore) (i cyc : Nat) : List (Nat × List Byte) :=
  let y := v.seqs.getD i {}
  let z := if y.run = .quiesced then { y with run := .parked, wait := .none } else y
  let events := y.events ++ y.orderFaults
  ([(0, leBytes 8 y.pc), (0x10, headerTail z 0 events.length),
    (0x100, pad 0xC0 (y.loops.flatMap LoopEntry.bytes)),
    (0x200, (List.range 24).flatMap (fun k => leBytes 128 (SMap.get 0 v.laneFlags (24 * i + k)).toNat)),
    (0x1600, events.flatMap Pending.bytes)] ++ saveArea v y i cyc).map (fun (e : Nat × List Byte) => (frameOff i + e.1, e.2))

/-- The frames of a saved core. -/
def cutFrames (v : SavedCore) (cyc : Nat) : List (Nat × List Byte) := (List.range 4).flatMap (fun i => cutFrame v i cyc)

/-- A saved core with its frames written. -/
def sealed (v : SavedCore) (cyc : Nat) : SavedCore := { v with spd := (cutFrames v cyc).foldl (fun m e => Memory.write m e.1 e.2) v.spd }

/-! The image (R304). -/

/-- The launches of a function. -/
def launchesOf (s : State) (fn : Nat) : List Launch := s.work.launches.filter (fun l => l.fn = fn)

/-- The logical cores of a function, in ascending order of die and core. -/
def imageCores (s : State) (fn : Nat) : List Nat := (List.range Config.cores).filter (fun c => s.fnOf c = fn)

/-- The queues of a core whose launches have started there and are not done. -/
def begunQueues (y : Core) : List Nat :=
  (List.range 8).filter (fun n => let q := y.queues.getD n {}; q.launch.isSome && q.started && !q.done && !q.ended)

/-- The queue of a core whose state the core's section holds: the one that owns it, else the first that has begun there; none where no launch
has. -/
def sectionQueue (y : Core) : Option Nat :=
  match y.owner with
  | some n => if (begunQueues y).contains n then some n else (begunQueues y).head?
  | none => (begunQueues y).head?

/-- The core sections of a function's image (R304), one for each logical core, with the queue whose state it holds. -/
def coreSections (s : State) (fn : Nat) : List (Nat × Option Nat) := (imageCores s fn).map (fun c => (c, sectionQueue (s.coreOf c)))

/-- The queues that are cut from their save areas beside those (R303), by core; their states stand after the core sections (log 15). -/
def furtherQueues (s : State) (fn : Nat) : List (Nat × Option Nat) :=
  (imageCores s fn).flatMap (fun c => ((begunQueues (s.coreOf c)).filter (fun n => some n ≠ sectionQueue (s.coreOf c))).map (fun n => (c, some n)))

/-- The state of a queue of a core: the core's own where the queue owns it or none has begun there, else its save area. -/
def queueState (s : State) (c : Nat) (n : Option Nat) : SavedCore :=
  match n with
  | some k =>
    if (s.coreOf c).owner = some k then s.snapshot c
    else match s.saved.find? (fun e => e.1 = saveKey c k) with | some e => e.2 | none => s.snapshot c
  | none => s.snapshot c

/-- The queue number of a section that holds no queue's state. -/
def noQueue : Nat := 0xFF

/-- The header of a core section: place, queue, allotments, budget used, probe state, CKTOL, checksum status, what the launch gives, and the
slice state of the core in cycles past the cut; the sequencers under a deadline fault not yet taken (R300); for each queue its rank, PASS and run. -/
def coreHeader (s : State) (fn c : Nat) (no : Option Nat) (v : SavedCore) : List Byte :=
  let y := s.coreOf c
  let n := no.getD noQueue
  let q := match no with | some k => y.queues.getD k {} | none => {}
  let k := v.core
  let word := fun (x : Nat) => leBytes 8 x
  let owner := if y.owner = no && no.isSome then 1 else 0
  let ix := ((launchesOf s fn).findIdx? (fun l => some l.id = q.launch)).getD 0
  pad 4096 (word (c / 256 + 2 ^ 8 * (c % 256) + 2 ^ 16 * n + 2 ^ 24 * q.rank + 2 ^ 32 * q.pass + 2 ^ 40 * owner) ++ word q.run ++ word q.owned ++
    word q.sinceYield ++ word (match q.grace with | some g => g + 1 | none => 0) ++ k.allot.flatMap (fun a => word a.toNat) ++ word k.ptBase ++
    word k.ptSize ++ word k.cktol ++ word (k.chk.ccnt + 2 ^ 16 * k.chk.ucnt + 2 ^ 32 * k.chk.crow + 2 ^ 41 * k.chk.ccol + (if k.chk.lastu then 2 ^ 50 else 0)) ++
    word k.width ++ word k.budget ++ word k.launchId.toNat ++ word k.seed.toNat ++ word k.det ++ word k.dictCount ++ word ix ++
    word (sliceLeft y s.cyc) ++ word y.nextSlice ++ word (match y.idleUntil with | some u => u - s.cyc | none => 0) ++
    word (packBits (v.seqs.map (fun z => z.deadline))) ++ (List.range 8).flatMap (fun _ => word 0) ++
    y.queues.flatMap (fun q => word (q.rank + 2 ^ 8 * q.pass + 2 ^ 16 * q.run)))

/-- A core section: 8 MiB. -/
def coreSection (s : State) (fn c : Nat) (n : Option Nat) : List Byte :=
  let v := sealed (queueState s c n) s.cyc
  let row := fun (r : Nat) => SMap.get {} v.rows r
  pad 0x800000 (coreHeader s fn c n v ++ (List.range 512).flatMap (fun r => leBytes 2048 (row r).data.toNat) ++
    (List.range 512).flatMap (fun r => leBytes 64 (row r).poison.toNat ++ leBytes 32 (row r).mark.toNat) ++ Memory.readBytes v.spd 0 0x400000 ++
    (List.range 0x10000).map (fun k => BitVec.ofNat 8 (packBits ((List.range 8).map (fun b => (SMap.get .clear v.spdPoison (8 * k + b)).bad)))) ++
    pad 4096 ((List.range 1024).flatMap (fun b => leBytes 2 (SMap.get 0 v.tags b).toNat)) ++ Memory.readBytes v.bos 0 0x200000 ++
    (List.range 4096).flatMap (fun k => leBytes 48 (SMap.get 0 v.dict k).toNat) ++ (List.range 4096).flatMap (fun k => leBytes 8 (SMap.get 0 v.ucode k).toNat) ++
    pad 4096 ((List.range 256).flatMap (fun k => leBytes 8 (SMap.get 0 v.routines k).toNat)) ++
    pad 4096 ((List.range 64).flatMap (fun k => leBytes 16 (SMap.get 0 v.ths k).toNat) ++ (List.range 8).flatMap (fun k => leBytes 8 (SMap.get 0 v.mps k).toNat)) ++
    pad 12288 ((List.range 1024).flatMap (fun k => let e := SMap.get {} v.ptt k; leBytes 8 (e.block + (if e.valid then 1 else 0))) ++ leBytes 8 v.core.rr))

/-- A function's granules of a die, in the SRAM (below 8) or the overflow area. -/
def granulesOf (s : State) (fn d : Nat) (sram : Bool) : List Nat :=
  (List.range (8 + ovfBytes s d / Config.granule)).filter (fun g => SMap.get 0 s.chip.owners (2048 * d + g) = fn && (g < 8) = sram)

/-- The home and offset of a granule. -/
def granulePlace (s : State) (d g : Nat) : Home × Nat :=
  if g < 8 then (.sye d, g * Config.granule) else (.hbm, ovfBase s d + (g - 8) * Config.granule)

/-- The granules' bytes after their length. -/
def granuleBytes (s : State) (fn d : Nat) (sram : Bool) : List Byte :=
  let l := (granulesOf s fn d sram).flatMap (fun g => let p := granulePlace s d g; s.readBytes p.1 p.2 Config.granule)
  leBytes 8 l.length ++ l

/-- A suspended copy as the image holds it. -/
def copyBytes (s : State) (fn : Nat) (y : Copy) : List Byte :=
  let ix := ((launchesOf s fn).findIdx? (fun l => some l.id = y.launch)).getD 0
  leBytes 8 (y.q + 2 ^ 16 * y.slot + 2 ^ 24 * y.op + 2 ^ 32 * ix + (if y.faulted then 2 ^ 48 else 0)) ++ leBytes 8 y.ch ++ leBytes 8 y.addr ++ leBytes 8 y.cursor ++
    leBytes 8 y.src ++ leBytes 8 y.dst ++ leBytes 8 y.len ++ leBytes 8 y.tag.toNat ++ leBytes 8 y.bar ++
    leBytes 8 (match y.probe with | some k => k + 1 | none => 0)

/-- A list after its length. -/
def counted {α : Type} (l : List α) (f : α → List Byte) : List Byte := leBytes 8 l.length ++ l.flatMap f

/-- The module section: SYE, CHT, journal, translation, tasks, copies. -/
def moduleSection (s : State) (fn : Nat) : List Byte :=
  let j := s.chip.journal
  let tasks := (coresOf s fn).flatMap (fun c => (List.range 8).filterMap (fun n =>
    let q := (s.coreOf c).queues.getD n {}
    if q.launch.isSome && !q.tasks.isEmpty then some (c, n, q.tasks) else none))
  (List.range Config.dies).flatMap (fun d => granuleBytes s fn d true ++ granuleBytes s fn d false) ++
    counted (imageCores s fn) (fun c => leBytes 8 c ++ (List.range 256).flatMap (fun n => leBytes 16 (s.chtOf c n).toNat)) ++
    (List.range 8).flatMap (fun k => leBytes 8 (j.register k).toNat) ++ leBytes 8 j.wcom ++ leBytes 8 j.pcom ++ counted j.marks (leBytes 8) ++
    counted (s.chip.ranges.filter (fun e => rangeField e.2 4 5 = fn)) (fun e => leBytes 8 e.1 ++ leBytes 24 e.2.toNat) ++
    leBytes 8 (SMap.get 0 s.chip.roots fn).toNat ++
    counted tasks (fun e => leBytes 8 (8 * e.1 + e.2.1) ++ counted e.2.2 (leBytes 8)) ++
    counted (s.work.copies.filter (fun y => y.fn = fn)) (copyBytes s fn)

/-- A launch's block: its packet, with rank, PASS, stated run and the cores not yet done in the bits the packet reserves. -/
def launchBlock (s : State) (l : Launch) : List Byte :=
  let q := (s.coreOf (l.cores.headD 0)).queues.getD l.queue {}
  leBytes 80 l.packet.toNat ++
    leBytes 128 (packBits (l.cores.map (fun c => l.remaining.contains c))) ++
    pad 48 (leBytes 4 (q.rank + 2 ^ 8 * q.pass + 2 ^ 16 * l.level) ++ leBytes 4 q.run ++ leBytes 8 l.pix)

/-- The offset of the module section, and of the first core section, in an image. -/
def moduleOffset (s : State) (fn : Nat) : Nat := 0x1040 + 256 * (launchesOf s fn).length
def sectionsOffset (s : State) (fn : Nat) (n : Nat) : Nat := (moduleOffset s fn + n + 0x7FFFFF) / 0x800000 * 0x800000

/-- The length of a function's image. -/
def imageLength (s : State) (fn : Nat) : Nat :=
  sectionsOffset s fn (moduleSection s fn).length + 0x800000 * (coreSections s fn).length + 0x800004 * (furtherQueues s fn).length

/-- The serial state image of a function (R304); the states of further queues follow the core sections, then a CRC-32C of each (log 15). -/
def stateImage (s : State) (fn : Nat) : List Byte :=
  let m := moduleSection s fn
  let sections := (coreSections s fn).map (fun e => coreSection s fn e.1 e.2)
  let further := (furtherQueues s fn).map (fun e => coreSection s fn e.1 e.2)
  let dprom := fun (n : Nat) => ((launchesOf s fn).filter (fun l => l.queue = n)).foldl (fun d l => max d l.dprom) 0
  let levels := packDigits 2 (SMap.get 0 s.chip.levels fn :: (List.range 8).map dprom)
  pad (sectionsOffset s fn m.length)
    (leBytes 4 0x49534A5A ++ leBytes 4 0x00010000 ++ leBytes 2 fn ++ leBytes 2 0xFF03 ++ leBytes 4 levels ++ leBytes 8 s.cyc ++ leBytes 8 s.gtime ++
      leBytes 8 (moduleOffset s fn) ++ leBytes 8 m.length ++ leBytes 8 (sectionsOffset s fn m.length) ++ leBytes 4 sections.length ++ leBytes 4 (crc32c m) ++
      pad 4096 (sections.flatMap (fun b => leBytes 4 (crc32c b))) ++ (launchesOf s fn).flatMap (launchBlock s) ++ m) ++ sections.flatten ++ further.flatten ++
    further.flatMap (fun b => leBytes 4 (crc32c b))

/-! QUIESCE (R281, R303). -/

/-- A Quiesce begins: parked sequencers stop (R303). -/
def beginQuiesce (s : State) (z : Quiesce) : List Act :=
  .chip (fun h => { h with quiesces := h.quiesces ++ [z] }) ::
    (coresOf s z.fn).flatMap (fun c => (List.range 4).map (fun i =>
      Act.seq (4 * c + i) (fun y => if y.run = .parked then { y with run := .quiesced } else y)))

/-- QUIESCE: refused when the buffer is shorter than the image; else the cut begins. -/
def execQuiesce (packet : Packet) (s : State) : Host.Outcome State Fault Refusal :=
  done (codedPacket s packet 4 (fun s =>
    let f := packetField packet
    let fn := packetFn packet
    if f 128 64 < imageLength s fn then answer s packet 0x0A 0
    else
      beginQuiesce s { fn := fn, ring := packet.ring, pix := packet.index, deadline := s.cyc + f 32 32, buf := f 64 64, len := f 128 64
                       reseed := s.chip.journal.state = 3 }) ++ [bump]) s

/-- Lantern's own Quiesce of every function that has a launch and no Quiesce yet, in the mode that QUIES selects; its timeout is open, and it
writes no image (R368; log 86). -/
def quiesceAll (s : State) : List Act :=
  if s.chip.duty.getLsbD 6 then askHost s 6
  else
    (((s.work.launches.map (fun l => l.fn)).eraseDups).filter (fun fn => !(s.chip.quiesces.any (fun z => z.fn = fn)))).flatMap (fun fn =>
      beginQuiesce s { fn := fn, ring := 0, pix := 0, deadline := s.cyc + 1 + s.choice (900 + fn) % (2 ^ 32 - 1), buf := 0, len := 0, own := true
                       reseed := s.chip.journal.state = 3 })

/-- Whether a Quiesce of Lantern's own has not come to its cut. -/
def ownQuiescing (s : State) : Bool := s.chip.quiesces.any (fun z => z.own && !z.cut)

/-- The contexts that Lantern has quiesced go on, once no layer is leaving and no die quadrant or layer reads above 105 °C (log 86). -/
def resumeOwn (s : State) : List Act :=
  let read := fun (n : Nat) => SMap.get (0 : Int) s.chip.lantern.sensors n
  if s.chip.hbmStacks.any (fun e => e.2.leaving.isSome) || (List.range 16).any (fun n => 420 < read n) || (List.range 192).any (fun n => 105 < read (16 + n)) then []
  else (s.chip.quiesces.filter (fun z => z.own)).flatMap (fun z => resumeContext s z.fn)

/-- The Quiesce of a function that is under way. -/
def quiesceOf (s : State) (fn : Nat) : Option Quiesce := s.chip.quiesces.find? (fun z => z.fn = fn && !z.cut)

/-- Whether a function's journal is settled for a cut (R346, R347): every record that it appended is durable, every emission has performed, and
a Quiesce that came while a spare was being reseeded finds STATE = 1. -/
def journalSettled (s : State) (z : Quiesce) : Bool :=
  !(s.chip.journal.tags.any (fun e => e.2 = z.fn && s.chip.journal.dur ≤ e.1)) && !(s.chip.emits.any (fun e => e.fn = z.fn)) &&
    (!z.reseed || s.chip.journal.state = 1)

/-- Whether no element, and nothing that a function's cores sent or are to receive, is on a link or in a port (R303 step 5, R330). -/
def linksEmpty (s : State) (fn : Nat) : Bool :=
  let mine := fun (f : Flit) => f.fn = fn && f.source / 1024 = s.chip.modId
  let forCore := fun (f : Flit) => flitKind f = 0 && flitDest f = s.chip.modId && s.fnOf (256 * flitField f 10 2 + flitField f 12 8) = fn
  !(s.chip.elements.any (fun e => e.fn = fn || (e.remote.isNone && s.fnOf e.element.core = fn))) &&
    !(s.chip.ports.any (fun e => e.2.waiting.any (fun f => mine f.1) || e.2.queues.any (fun r => forCore r.flit))) &&
    !(s.work.agenda.any (fun e => match e.2 with | .channelElementArrival x => s.fnOf x.core = fn | _ => false))

/-- Whether a function's work has drained (R303 steps 2 to 6): commands, copies, reducer steps, elements, results. -/
def drainedFn (s : State) (fn : Nat) : Bool :=
  let own := fun (q : Nat) => s.fnOf (q / 4) = fn
  !(s.work.commands.any (fun y => y.fn = fn)) && !(s.work.copies.any (fun y => y.fn = fn && (!y.chunks.isEmpty || y.fault.isSome))) &&
    !(s.chip.srds.any (fun e => e.2.any (fun y => y.fn = fn))) &&
    linksEmpty s fn &&
    !(s.work.flights.any (fun f => own f.q)) && !(s.work.flagPosts.any (fun p => own p.q)) && !(s.work.accesses.any (fun a => a.fn = fn && !a.performed))

/-- Whether a Quiesce has reached its cut; while its buffer is under a migration, or its pages are walked, the image waits (R243, R246). -/
def cutReady (s : State) (fn : Nat) : Bool :=
  match quiesceOf s fn with
  | some z => stoppedFn s fn && drainedFn s fn && journalSettled s z &&
    (z.own || (!heldWrite s z.ring z.buf (imageLength s fn) && mapped s 0 z.ring z.buf (imageLength s fn) true))
  | none => false

/-- Changes the Quiesce of a packet. -/
def modQuiesce (z : Quiesce) (f : Quiesce → Option Quiesce) : Act :=
  .chip (fun h => { h with quiesces := h.quiesces.filterMap (fun y => if y = z then f y else some y) })

/-- The sequencers that a Quiesce has stopped run again, when it gives up (R303). -/
def releaseQuiesced (s : State) (z : Quiesce) : List Act :=
  (coresOf s z.fn).flatMap (fun c => (List.range 4).map (fun i =>
    Act.seq (4 * c + i) (fun y => if y.run = .quiesced then y.proceed else y))) ++ [modQuiesce z (fun _ => none)]

/-- The cut: frames are written and the queues are quiesced (R303 step 7). -/
def cutContext (s : State) (z : Quiesce) : List Act :=
  (coreSections s z.fn).flatMap (fun e =>
    if e.2.isSome && (s.coreOf e.1).owner = e.2 then (cutFrames (s.snapshot e.1) s.cyc).map (fun b => putBytes e.1 b.1 b.2) else []) ++
  (coresOf s z.fn).map (fun c => Act.core c (fun y => { y with queues := y.queues.map (fun q => if q.launch.isSome then { q with quiesced := true } else q) })) ++
  [modQuiesce z (fun y => some { y with cut := true, cutCyc := s.cyc })]

/-- QUIESCE_CUT_COMPLETE: the cut is made, the image written, and OK reported with its length; Lantern's own Quiesce has no image. -/
def cutActs (s : State) (fn : Nat) : List Act :=
  match quiesceOf s fn with
  | none => []
  | some z =>
    if !cutReady s fn then []
    else if z.own then cutContext s z
    else
      match writeDevice s 0 z.ring z.buf (s.choice 0) (stateImage s fn) (List.replicate (imageLength s fn) false) with
      | .error _ => releaseQuiesced s z ++ complete s z.ring (completionRecord 0x05 0x04 0 z.pix 0)
      | .ok l =>
        l ++ cutContext s z ++ complete s z.ring (completionRecord 0 0x04 0 z.pix ((imageLength s fn + 4095) / 4096))

def execQuiesceCutComplete (fn : Nat) (s : State) : Host.Outcome State Fault Refusal := done (cutActs s fn ++ [bump]) s

/-- QUIESCE_TIMEOUT: the sequencers have not all stopped in time, or the journal is not settled; the context runs on (R303 step 1, R346). -/
def quiesceTimeoutActs (s : State) (fn : Nat) : List Act :=
  match quiesceOf s fn with
  | some z => if s.cyc < z.deadline || (stoppedFn s fn && journalSettled s z) then []
    else releaseQuiesced s z ++ if z.own then [] else complete s z.ring (completionRecord 0x05 0x04 0 z.pix 0)
  | none => []

def execQuiesceTimeout (fn : Nat) (s : State) : Host.Outcome State Fault Refusal := done (quiesceTimeoutActs s fn ++ [bump]) s

/-! RESTORE (R281, R305). -/

/-- n bytes at an offset of an image, as a number. -/
def imageField (b : List Byte) (off n : Nat) : Nat := leValue ((b.drop off).take n)

/-- A counted list of an image: its elements as byte lists, of the size that each one's bytes tell, and the rest. -/
def takeCounted (size : List Byte → Nat) (b : List Byte) : List (List Byte) × List Byte :=
  (List.range (imageField b 0 8)).foldl (fun a _ => let n := size a.2; (a.1 ++ [a.2.take n], a.2.drop n)) ([], b.drop 8)

/-- A map of the values that a list of values gives, those equal to d left out. -/
def mapOf {α : Type} [DecidableEq α] (d : α) (l : List α) : SMap α := (l.mapIdx (fun i v => (i, v))).filter (fun e => e.2 ≠ d)

/-- The n-th to last of count values of w bytes from an offset. -/
def imageValues (b : List Byte) (off w count : Nat) : List Nat := chunks w count (b.drop off) |>.map leValue

/-- A loop-stack entry of a frame. -/
def imageLoop (b : List Byte) (off : Nat) : LoopEntry :=
  let f := imageField b off 4
  ⟨f, imageField b (off + 4) 4, imageField b (off + 8) 4, imageField b (off + 12) 4, (imageField b (off + 16) 4) % 2 = 1, imageField b (off + 16) 4 / 2 % 8, 0⟩

/-- A pending event of a frame, 64 bytes. -/
def imageEvent (b : List Byte) (off : Nat) : Pending :=
  let w := imageField b off 4
  { code := w % 2 ^ 8, slot := w / 2 ^ 8 % 8, ch := w / 2 ^ 11 % 4, abandon := w / 2 ^ 13 % 2 = 1, fdrow := w / 2 ^ 14 % 2 = 1
    dlost := w / 2 ^ 15 % 2 = 1, sub := w / 2 ^ 16 % 16, faddr := imageField b (off + 4) 4, addr := imageField b (off + 8) 8
    info := imageField b (off + 16) 8, data := BitVec.ofNat 64 (imageField b (off + 24) 8) }

/-- A sequencer of a core section, its cycle values rebased by delta to the resume cycle (R305). b is the scratchpad's part. -/
def imageSeq (b : List Byte) (i resume : Nat) (delta : Word) : Seq :=
  let o := frameOff i
  let f := imageField b
  let status := f (o + 0x10) 8
  let events := (List.range (status / 2 ^ 20 % 2 ^ 8)).map (fun k => imageEvent b (o + 0x1600 + 64 * k))
  let tcmp := f (o + 0x3030) 8
  { pc := f o 4, run := if status / 2 % 2 = 1 then .run else .idle
    loops := ((List.range 6).map (fun k => imageLoop b (o + 0x100 + 32 * k))).takeWhile (fun e => e.count ≠ 0)
    fmt := BitVec.ofNat 64 (f (o + 0x3020) 4), tb := BitVec.ofNat 64 (f (o + 0x3028) 8) + delta
    fls0 := BitVec.ofNat 5 (f (o + 0x28) 8), fls1 := BitVec.ofNat 5 (f (o + 0x30) 8), fls2 := BitVec.ofNat 5 (f (o + 0x50) 8)
    fls3 := BitVec.ofNat 5 (f (o + 0x58) 8), fev := BitVec.ofNat 64 (f (o + 0x38) 8) &&& 0xFFFFFFFF0001FFFF
    tcmp := BitVec.ofNat 64 ((tcmp + resume) % 2 ^ 48 + tcmp / 2 ^ 48 % 2 * 2 ^ 48), resumeAt := resume, events := events.filter (fun e => e.code ≠ 0x33), orderFaults := events.filter (fun e => e.code = 0x33)
    fdBusy := events.any Pending.fdrow }

/-- The core that a section describes; reserved bits of its registers read zero (R9). -/
def imageCore (b : List Byte) (k : Kernel) : Core :=
  let f := fun (k : Nat) => imageField b (8 * k) 8
  let chk := f 12
  { width := f 13, allot := (List.range 4).map (fun i => BitVec.ofNat 64 (f (5 + i)) &&& 0x1FFDFF), launchId := BitVec.ofNat 64 (f 15 % 2 ^ 32), seed := BitVec.ofNat 64 (f 16)
    budget := f 14 % 2 ^ 48, det := f 17 % 16, streamBytes := k.stream.length, stream := k.stream, dictCount := f 18, ptBase := (BitVec.ofNat 64 (f 9) &&& 0x3FF000).toNat, ptSize := (BitVec.ofNat 64 (f 10) &&& 0x7FF000).toNat
    rr := imageField b (0x758000 + 8192) 8, cktol := f 11 % 64
    chk := { ccnt := chk % 2 ^ 16, ucnt := chk / 2 ^ 16 % 2 ^ 16, crow := chk / 2 ^ 32 % 2 ^ 9, ccol := chk / 2 ^ 41 % 2 ^ 9, lastu := chk.testBit 50 } }

/-- A core section as the state of one queue (R304, R305); the CHT comes from the module section. -/
def imageState (b : List Byte) (k : Kernel) (resume : Nat) (delta : Word) (cht : List Nat) : SavedCore :=
  let spd := (b.drop 0x10D000).take 0x400000
  let area := fun (i o w n : Nat) => imageValues spd (frameOff i + o) w n
  let bit := fun (i o r n : Nat) => (imageField spd (frameOff i + o) n).testBit r
  let four := fun {α : Type} (g : Nat → List α) => (List.range 4).flatMap g
  { core := imageCore b k, seqs := (List.range 4).map (fun i => { imageSeq spd i resume delta with deadline := (imageField b 184 8).testBit i })
    scalars := mapOf {} (four (fun i => (area i 0x2600 8 64).mapIdx (fun r v => (⟨BitVec.ofNat 64 v, bit i 0x3038 r 8⟩ : SReg))))
    masks := mapOf {} (four (fun i => (area i 0x2800 128 16).mapIdx (fun r v => if r = 0 then {} else (⟨BitVec.ofNat 1024 v, bit i 0x3040 r 2⟩ : MReg))))
    glints := mapOf {} (four (fun i => (area i 0x3000 8 4).mapIdx (fun r v => (⟨BitVec.ofNat 64 v, bit i 0x3042 r 2⟩ : SReg))))
    laneFlags := mapOf 0 (four (fun i => (area i 0x200 128 24).map (BitVec.ofNat 1024)))
    rows := mapOf {} ((List.range 512).map (fun r => (⟨BitVec.ofNat _ (imageField b (0x1000 + 2048 * r) 2048), BitVec.ofNat _ (imageField b (0x101000 + 96 * r) 64),
      BitVec.ofNat _ (imageField b (0x101040 + 96 * r) 32), 0⟩ : Row)))
    mps := mapOf 0 ((imageValues b 0x757400 8 8).map (BitVec.ofNat 64)), ths := mapOf 0 ((imageValues b 0x757000 16 64).map (BitVec.ofNat 128))
    spd := Memory.cells 0 spd
    spdPoison := mapOf .clear (((b.drop 0x50D000).take 0x10000).flatMap (fun v => (List.range 8).map (fun k => if v.getLsbD k then .stored else .clear)))
    tags := mapOf 0 ((imageValues b 0x51D000 2 1024).map (BitVec.ofNat 16)), bos := Memory.cells 0 ((b.drop 0x51E000).take 0x200000), bosPoison := []
    dict := mapOf 0 ((imageValues b 0x71E000 48 4096).map (BitVec.ofNat 384)), ucode := mapOf 0 ((imageValues b 0x74E000 8 4096).map (BitVec.ofNat 64))
    routines := mapOf 0 ((imageValues b 0x756000 8 256).map (BitVec.ofNat 64)), cht := mapOf 0 (cht.map (BitVec.ofNat 128))
    ptt := mapOf {} ((imageValues b 0x758000 8 1024).map (fun v => (⟨v % 2 = 1, v / 2 * 2⟩ : PttEntry)))
    staging := [] }

/-- The parts of an image's module section. -/
structure ImageParts where
  granules : List (List Byte)
  chts : List (List Byte)
  journal : List Byte
  marks : List (List Byte)
  ranges : List (List Byte)
  root : Nat
  tasks : List (List Byte)
  copies : List (List Byte)

/-- Cuts a module section into its parts. -/
def moduleParts (b : List Byte) : ImageParts :=
  let g := (List.range (2 * Config.dies)).foldl (fun a _ => let n := imageField a.2 0 8; (a.1 ++ [(a.2.drop 8).take n], a.2.drop (8 + n))) (([] : List (List Byte)), b)
  let c := takeCounted (fun _ => 8 + 4096) g.2
  let m := takeCounted (fun _ => 8) (c.2.drop 80)
  let r := takeCounted (fun _ => 32) m.2
  let t := takeCounted (fun x => 16 + 8 * imageField x 8 8) (r.2.drop 8)
  ⟨g.1, c.1, c.2.take 80, m.1, r.1, imageField r.2 0 8, t.1, (takeCounted (fun _ => 80) t.2).1⟩

/-- The launch that a block of an image describes, for the target function. -/
def imageLaunch (s : State) (fn : Nat) (b : List Byte) (id : Nat) : Option Launch :=
  let p : Packet := ⟨fn, imageField b 216 8, BitVec.ofNat 2048 (leValue (b.take 76))⟩
  (packetLaunch s fn p).map (fun l => { l with
    id := id, level := imageField b 208 4 / 2 ^ 16
    remaining := (l.cores.mapIdx (fun i c => (i, c))).filterMap (fun e => if (imageField b 80 128).testBit e.1 then some e.2 else none) })

/-- The core and queue of a core section, and whether the queue owned the core. -/
def sectionPlace (b : List Byte) : Nat × Nat × Bool :=
  (256 * imageField b 0 1 + imageField b 1 1, imageField b 2 1, imageField b 5 1 = 1)

/-- The core sections of an image, and the states of further queues after them. -/
def imageSections (b : List Byte) : List (List Byte) :=
  let at_ := imageField b 0x30 8
  let n := imageField b 0x38 4
  (List.range (n + (b.length - at_ - 0x800000 * n) / 0x800004)).map (fun i => (b.drop (at_ + 0x800000 * i)).take 0x800000)

/-- Whether an image may be restored on function fn (R305, R346): its shape and length, its CRCs, free queues on cores of the
function, granules of the same size, and a partner that holds its journal. -/
def imageFits (s : State) (fn : Nat) (b : List Byte) (sections : List (List Byte)) (launches : List (Option Launch)) : Bool :=
  let f := imageField b
  let m := (b.drop (f 0x20 8)).take (f 0x28 8)
  let p := moduleParts m
  let state := imageField p.journal 0 8 / 2 ^ 11 % 4
  f 0 4 = 0x49534A5A && f 4 4 = 0x00010000 && f 0xA 2 = 0xFF03 && b.length = f 0x30 8 + 0x800000 * f 0x38 4 + 0x800004 * (sections.length - f 0x38 4) && crc32c m = f 0x3C 4 &&
    (List.range sections.length).all (fun i =>
      crc32c (sections.getD i []) = f (if i < f 0x38 4 then 0x40 + 4 * i else f 0x30 8 + 0x800000 * sections.length + 4 * (i - f 0x38 4)) 4) && launches.all Option.isSome &&
    (launches.filterMap id).all (fun l => l.remaining.all (fun c => ((s.coreOf c).queues.getD l.queue {}).launch.isNone && s.fnOf c = fn)) &&
    sections.all (fun x => s.fnOf (sectionPlace x).1 = fn) &&
    (List.range (2 * Config.dies)).all (fun k => (p.granules.getD k []).length = Config.granule * (granulesOf s fn (k / 2) (k % 2 = 0)).length) &&
    (match s.chip.journal.receiver, s.chip.journal.heard with
     | none, _ | some _, none => state = 0
     | some _, some n => n = imageField p.journal 32 8)

/-- The journal that a restore of function fn continues (R346). -/
def restoreJournal (fn : Nat) (p : ImageParts) (j : Journal) : Journal :=
  let f := fun (k : Nat) => imageField p.journal (8 * k) 8
  { j with tail := f 4, dur := f 4, head := f 6, cur := f 7, wcom := f 8, pcom := f 9, marks := p.marks.map leValue
           tags := (List.range (f 4 - f 6)).map (fun i => (f 6 + i, fn)), sentAt := [] }

/-- The bits of a range entry, and of a page-table root, that are not reserved (R241, R242). -/
def rangeMask : BitVec 192 := BitVec.ofNat 192 (0x1F7 + 0xFFFFFFFFFF * 2 ^ 16 + 0xFFFFFFFFFF * 2 ^ 80 + 0xFFFFFF * 2 ^ 144)
def rootMask : Word := 0xFFFFF00001

/-- What a restore makes of the translation in an image: the function's range entries and its page-table root. -/
def restoreTranslation (fn : Nat) (p : ImageParts) : Act :=
  .chip (fun h => { h with
    ranges := p.ranges.foldl (fun m e => SMap.set 0 m (imageField e 0 8 % 256) (setField (BitVec.ofNat 192 (imageField e 8 24)) 4 5 fn &&& rangeMask)) h.ranges
    roots := SMap.set 0 h.roots fn (BitVec.ofNat 64 p.root &&& rootMask) })

/-- What a restore makes of the rest of the module section: granules, the journal, copies from their cursors. -/
def restoreModule (s : State) (fn : Nat) (p : ImageParts) (launches : List Launch) (resume : Nat)
    (owners : List (Nat × Nat)) : List Act :=
  (List.range (2 * Config.dies)).flatMap (fun k =>
    (granulesOf s fn (k / 2) (k % 2 = 0)).mapIdx (fun i g =>
      let w := granulePlace s (k / 2) g
      Act.write w.1 w.2 (((p.granules.getD k []).drop (Config.granule * i)).take Config.granule) (List.replicate Config.granule false))) ++
    [.chip (fun h => { h with journal := restoreJournal fn p h.journal }),
     .work (fun w => { w with
       copies := w.copies ++ p.copies.mapIdx (fun i e =>
         let f := fun (k : Nat) => imageField e (8 * k) 8
         let l := (launches[f 0 / 2 ^ 32 % 2 ^ 16]?).map (fun l => l.id)
         { id := w.nextId + i, q := f 0 % 2 ^ 16, fn := fn, launch := l, op := f 0 / 2 ^ 24 % 2 ^ 8, ch := f 1
           src := f 4, dst := f 5, len := f 6, tag := BitVec.ofNat 16 (f 7), bar := f 8, start := resume, cursor := f 3, faulted := (f 0).testBit 48
           suspended := !(owners.any (fun o => o.1 = f 0 % 2 ^ 16 / 4 && some o.2 = l))
           probe := if f 9 = 0 then none else some (f 9 - 1), slot := f 0 / 2 ^ 16 % 2 ^ 8, addr := f 2 })
       nextId := w.nextId + p.copies.length })]

/-- A restored sequencer whose pending copy events name the restored copies again. -/
def linkCopies (q base : Nat) (copies : List (List Byte)) (y : Seq) : Seq :=
  { y with events := y.events.map (fun e =>
      if e.code = 0x22 then
        { e with copy := (copies.findIdx? (fun b =>
            imageField b 0 2 = q && imageField b 8 8 = e.ch && imageField b 16 8 = e.faddr && imageField b 24 8 = e.info)).map (fun i => base + i) }
      else e) }

/-- What a restore makes of one core section: the queue it fills, and its state on the core, or in the save area; the slice of a core that
the queue owned goes on with the cycles it had left (R305; log 15). -/
def restoreSection (s : State) (p : ImageParts) (launches : List Launch) (copyBase resume : Nat) (delta : Word) (b : List Byte) : List Act :=
  let place := sectionPlace b
  let c := place.1
  let n := place.2.1
  let f := fun (k : Nat) => imageField b (8 * k) 8
  let cht := match p.chts.find? (fun x => imageField x 0 8 = c) with | some x => imageValues x 8 16 256 | none => []
  let free := (s.coreOf c).owner.isNone
  match (if n = noQueue then none else launches[f 19]?) with
  | none =>
    let key := saveKey Config.cores c
    if n = noQueue && free then [.stow key (imageState b {} resume delta cht), .restore c key] else []
  | some l =>
    let tasks := match p.tasks.find? (fun x => imageField x 0 8 = 8 * c + n) with | some x => imageValues x 16 8 (imageField x 8 8) | none => []
    let v := imageState b (kernelFor s l c) resume delta cht
    let v := { v with seqs := v.seqs.mapIdx (fun i y => linkCopies (4 * c + i) copyBase p.copies y) }
    [.stow (saveKey c n) v, wakeArbiter s c,
     modQueue c n (fun _ => { launch := some l.id, rank := imageField b 3 1, pass := imageField b 4 1, run := f 1, owned := f 2, sinceYield := f 3
                              grace := if f 4 = 0 then none else some (f 4 - 1), tasks := tasks, started := true })] ++
      (if place.2.2 && free then
        [.restore c (saveKey c n),
         .core c (fun y => { y with owner := some n, sliceStart := s.cyc, stretched := some (resume + f 20), nextSlice := f 21
                                    idleUntil := if f 22 = 0 then none else some (resume + f 22) })]
       else [])

/-- Queues a restored launch on the cores where it has not begun, with the rank, the PASS and the stated run that the core's section gives. -/
def restoreQueues (s : State) (l : Launch) (sections : List (List Byte)) (started : List Nat) : List Act :=
  (l.remaining.filter (fun c => !(started.contains c))).flatMap (fun c =>
    let w := match sections.find? (fun b => (sectionPlace b).1 = c) with | some b => imageField b (256 + 8 * l.queue) 8 | none => 0
    let pos := (l.cores.findIdx? (fun d => d = c)).getD 0
    [wakeArbiter s c,
     modQueue c l.queue (fun _ => {
      launch := some l.id, rank := w % 2 ^ 8, pass := w / 2 ^ 8 % 2 ^ 8, run := w / 2 ^ 16, tasks := if l.task then placedTasks l.seed l.ntask l.cores.length pos else [] })])

/-- The resume cycle: later than now, and differing from the cut's by a multiple of 4 (R305). -/
def resumeCycle (now cut : Nat) : Nat := now + 1 + (cut + 4 - (now + 1) % 4) % 4

/-- RESTORE: an image that fits is loaded on the target function's cores and resumed; another is refused (R305). -/
def restoreActs (s : State) (packet : Packet) : List Act :=
  let fn := packetFn packet
  let f := packetField packet
  deviceChecks s 0 packet.ring (f 64 64) (f 128 64) (s.choice 0) ++ match readDevice s 0 packet.ring (f 64 64) (f 128 64) (s.choice 0) with
  | .error _ => answer s packet 0x06 0
  | .ok r =>
    let b := r.1
    let g := imageField b
    let blocks := (List.range ((g 0x20 8 - 0x1040) / 256)).map (fun i => (b.drop (0x1040 + 256 * i)).take 256)
    let p := moduleParts ((b.drop (g 0x20 8)).take (g 0x28 8))
    let launches := blocks.mapIdx (fun i x => imageLaunch (applyAct (restoreTranslation fn p) s) fn x (s.work.nextId + i))
    let sections := imageSections b
    if r.2.any (fun x => x) || !imageFits s fn b sections launches then answer s packet 0x06 0
    else
      let ls := launches.filterMap id
      let resume := resumeCycle s.cyc (g 0x10 8)
      let delta := BitVec.ofNat 64 resume - BitVec.ofNat 64 (g 0x10 8)
      let owners := sections.filterMap (fun x =>
        let place := sectionPlace x
        if place.2.2 then (ls[imageField x 152 8]?).map (fun l => (place.1, l.id)) else none)
      answer s packet 0 0 ++
        [.work (fun w => { w with launches := w.launches ++ ls, nextId := w.nextId + ls.length }),
         .chip (fun h => { h with levels := SMap.set 0 h.levels fn (g 0xC 4 % 4) })] ++
        restoreTranslation fn p :: restoreModule s fn p ls resume owners ++
        ls.flatMap (fun l => restoreQueues s l sections ((sections.filter (fun x => (ls[imageField x 152 8]?).map (fun k => k.id) = some l.id)).map (fun x => (sectionPlace x).1))) ++
        sections.flatMap (restoreSection s p ls (s.work.nextId + ls.length) resume delta)

def execRestore (packet : Packet) (s : State) : Host.Outcome State Fault Refusal :=
  done (codedPacket s packet 5 (fun s => restoreActs s packet) ++ [bump]) s

end Sys2Proof.Machine
end

