-- ==== Sys2Proof/Machine/Registers.lean ====
section
/-! DEFINITION. Writes of module registers (13 R282, 10 R237, R241, R242, R244, R248, R250, 17 R335, R340, R344, 19 R366 to R369, R375). -/

namespace Sys2Proof.Machine

/-- Whether a host-link request of a function other than a configuration request is refused: before bring-up ends, in the fatal
state, during the function's reset (R352, R362, R377). -/
def hostBlocked (s : State) (fn : Nat) : Bool := !s.chip.lantern.up || s.chip.fatal || s.chip.halted || resetting s fn

/-- Changes the ring registers of a function. -/
def modRing (fn : Nat) (f : Ring → Ring) : Act := .chip (fun h => { h with rings := SMap.set {} h.rings fn (f (h.ring fn)) })

/-! Ring registers (R282). -/

/-- RING_ENABLE_WRITE: EN goes to 1 only with both rings of 2^4 to 2^16 entries. -/
def ringEnable (s : State) (fn : Nat) (v : Word) : List Act :=
  if hostBlocked s fn then []
  else
    [modRing fn (fun r =>
      { r with en := v.getLsbD 0 && 4 ≤ r.cmdLog && r.cmdLog ≤ 16 && 4 ≤ r.cplLog && r.cplLog ≤ 16, irq := v.getLsbD 1 })]

def execRingEnableWrite (fn : Nat) (value : Word) (s : State) : Host.Outcome State Fault Refusal := done (ringEnable s fn value ++ [bump]) s

/-- CMDTAIL_WRITE: new packets may be read. -/
def cmdTail (s : State) (fn : Nat) (v : Word) : List Act :=
  if hostBlocked s fn then [] else [modRing fn (fun r => { r with cmdTail := v.toNat % 2 ^ 32 })]

def execCmdtailWrite (fn : Nat) (value : Word) (s : State) : Host.Outcome State Fault Refusal := done (cmdTail s fn value ++ [bump]) s

/-- CPLHEAD_WRITE: records that wait are written as far as space allows. -/
def cplHead (s : State) (fn : Nat) (v : Word) : List Act :=
  if hostBlocked s fn then [] else drainRecords { s.chip.ring fn with cplHead := v.toNat % 2 ^ 32 } fn

def execCplheadWrite (fn : Nat) (value : Word) (s : State) : Host.Outcome State Fault Refusal := done (cplHead s fn value ++ [bump]) s

/-- The end of a function's MSI-X table: 64 vectors of 16 bytes in the PF, 8 in a VF (R365, R366). -/
def msixEnd (fn : Nat) : Nat := 0x8000 + 16 * (if fn = 0 then 64 else 8)

/-- A write to a function's ring registers or MSI-X table: bases and sizes are ignored while EN = 1. A base that is no multiple of 4 KiB is held,
and used, as it is written (log 79). -/
def ringBases (s : State) (fn off : Nat) (v : Word) : List Act :=
  if 0x8000 ≤ off && off < msixEnd fn then
    (if hostBlocked s fn then [] else [.chip (fun h => h.setMsix fn ((off - 0x8000) / 8) v)])
  else if off = 0x10 then cmdTail s fn v
  else if off = 0x30 then cplHead s fn v
  else if off = 0x40 then ringEnable s fn v
  else if hostBlocked s fn || (s.chip.ring fn).en then []
  else if off = 0x00 then [modRing fn (fun r => { r with cmdBase := v.toNat })]
  else if off = 0x08 then [modRing fn (fun r => { r with cmdLog := v.toNat % 32 })]
  else if off = 0x20 then [modRing fn (fun r => { r with cplBase := v.toNat })]
  else if off = 0x28 then [modRing fn (fun r => { r with cplLog := v.toNat % 32 })]
  else []

/-! DUTY, PWRCAP, TKO (R250, R368, R369, R375). -/

def dutyActs (v : Word) : List Act := [.chip (fun h => { h with duty := v &&& 0xFF })]

/-- DUTY_WRITE: each duty goes by the new bits from its next start on. -/
def execDutyWrite (value : Word) (s : State) : Host.Outcome State Fault Refusal :=
  done ((if hostBlocked s 0 then [] else dutyActs value) ++ [bump]) s

def powerCapActs (v : Word) : List Act :=
  let w := v.toNat % 2 ^ 13
  if 2400 ≤ w && w ≤ 4400 then [.chip (fun h => { h with cap := w })] else []

/-- PWRCAP_WRITE: a cap outside 2,400 to 4,400 W is ignored. -/
def execPwrcapWrite (value : Word) (s : State) : Host.Outcome State Fault Refusal :=
  done ((if hostBlocked s 0 then [] else powerCapActs value) ++ [bump]) s

/-- Changes a stack. -/
def modStack (k : Nat) (f : Stack → Stack) : Act := .chip (fun h => { h with hbmStacks := SMap.set {} h.hbmStacks k (f (SMap.get {} h.hbmStacks k)) })

/-- TKO_WRITE of 1 by the agent that REFR selects: refresh is handed back at the next interval boundary after 16 heartbeats. -/
def tkoActs (s : State) (k : Nat) (byHost : Bool) : List Act :=
  let t := s.stackAt k
  if byHost = s.chip.duty.getLsbD 2 && t.tko && 16 ≤ t.beats then [modStack k (fun t => { t with handback := true, handbackAt := s.cyc + 1 + s.choice 0 % (3900 / max 1 t.tkoRate) })] else []

def execTkoWrite (stack : Nat) (byHost : Bool) (s : State) : Host.Outcome State Fault Refusal := done (tkoActs s stack byHost ++ [bump]) s

/-! Journal registers (R335, R338, R340, R344). -/

/-- Changes the journal. -/
def modJournal (f : Journal → Journal) : Act := .chip (fun h => { h with journal := f h.journal })

/-- STATE after a write of the pairing: active while a partner is set and the ring size is valid (R335). -/
def Journal.settle (j : Journal) : Journal :=
  let state := if j.pval && (ringSize j.ringLog).isSome then (if j.state = 0 then 1 else j.state) else 0
  { j with state := state, rseed := if state = 3 then j.rseed else 0 }

/-- The spares, in order, that are valid and have a route. -/
def Chip.spare (h : Chip) : Option (Nat × Nat) :=
  ((List.range 4).map (fun k => (k, (h.journal.spares.extractLsb' (12 * k) 10).toNat))).find? (fun e =>
    h.journal.spares.getLsbD (12 * e.1 + 10) && (h.route e.2).isSome)

/-- The records from number a to the tail, sent for the first time to a module at cycle t. -/
def Journal.sentFrom (j : Journal) (a t : Nat) : List (Nat × Nat) := (List.range (j.tail - a)).map (fun i => (a + i, t))

/-- Reseeding begins (R341): the lowest spare that qualifies, at a ring base that the agent chooses; records go to it from HEAD. With
none, STATE stays 2 and partner-lost is posted. -/
def reseedActs (s : State) : List Act :=
  match s.chip.spare with
  | none => [post s 0x18 0 0 0 0]
  | some (k, m) =>
    let l : List Act := [modJournal (fun j => { j with
      spares := setField j.spares (12 * k + 10) 1 0, rseed := m, state := 3, spareBase := s.choice 0 % 2 ^ 24, spareAck := j.head, sentAt := j.sentFrom j.head s.cyc })]
    let t := applyActs l s
    l ++ resendActs t t.chip.journal.head t.chip.journal.tail

/-- A pairing write by the agent that the duty split selects, of MPAIR, MSPARE, MRING or MHOST by its system register index; an ACKB below
1,024, which R335 does not admit, leaves ACKB as it was and the other fields are written (log 79). Two indices of the model's own stand for
what comes from the other side of a pair (log 52): 0x048 tells the hosting side the writer's HEAD, which the next write of HV := 1 expects and
below which hosted records are released; 0x049 is an acknowledgement request of the writer, answered with the expected number (R343). A module
that becomes paired sends from HEAD (R338). -/
def pairingActs (s : State) (index : Nat) (v : Word) : List Act :=
  let f := fun (b w : Nat) => (v.extractLsb' b w).toNat
  let start := fun (l : List Act) =>
    let t := applyActs l s
    l ++ (if s.chip.journal.state = 0 && t.chip.journal.state = 1 then
            modJournal (fun j => { j with sentAt := j.sentFrom j.head s.cyc }) :: resendActs t t.chip.journal.head t.chip.journal.tail
          else [])
  if index = 0x040 then
    start [modJournal (fun j => ({ j with partner := f 0 10, heard := if v.getLsbD 10 && j.partner = f 0 10 then j.heard else none, pval := v.getLsbD 10, ackb := if 1024 ≤ f 32 24 then f 32 24 else j.ackb }).settle)]
  else if index = 0x041 then
    let l : List Act := [modJournal (fun j => { j with spares := v &&& 0x7FF7FF7FF7FF })]
    l ++ (if s.chip.journal.state = 2 then reseedActs (applyActs l s) else [])
  else if index = 0x042 then
    start [modJournal (fun j => ({ j with ringBase := f 0 24, ringLog := f 24 5, localBase := f 32 24 }).settle)]
  else if index = 0x043 then
    [modJournal (fun j =>
      let k := { j with hostBase := f 0 24, hostLog := f 24 5, hv := v.getLsbD 29, writer := f 32 10 }
      if v.getLsbD 29 && !j.hv then
        { k with hostedNext := j.hostedHead, hostedMarks := [], hostedCom := j.hostedHead - 1, matched := [], wfail := false, heardAt := s.cyc }
      else k)]
  else if index = 0x049 then
    (if s.chip.journal.hv && !s.chip.journal.wfail then
      [modJournal (fun j => { j with heardAt := s.cyc }), .chip (fun h => h.tell s.cyc h.journal.writer (.journalAck h.journal.hostedNext))]
     else [])
  else if index = 0x048 then [modJournal (fun j => { j with hostedHead := v.toNat, hostedMarks := j.hostedMarks.filter (fun k => v.toNat ≤ k) })]
  else []

def execMirrorPairingWrite (index : Nat) (value : Word) (s : State) : Host.Outcome State Fault Refusal := done (pairingActs s index value ++ [bump]) s

/-- MCUR_WRITE: the replay cursor, writable only while WFAIL = 1, becomes active, and the start of a replay is posted (R332, R344, R360). -/
def cursorActs (s : State) (v : Word) : List Act :=
  if s.chip.journal.wfail then
    modJournal (fun j => { j with cur := v.toNat, ract := v.toNat < j.hostedNext }) ::
      (if v.toNat < s.chip.journal.hostedNext then [post s 0x31 0 0 0 0] else [])
  else []

def execMcurWrite (value : Word) (s : State) : Host.Outcome State Fault Refusal := done (cursorActs s value ++ [bump]) s

/-- JPCOM_WRITE: through the PF of the hosting module it must name an unreleased MARK of the writer, and is forwarded to it;
forwarded, it is the writer's PCOM, after which marks are released (R340). -/
def pcomActs (s : State) (v : Word) (forwarded : Bool) : List Act :=
  let j := s.chip.journal
  if forwarded then [modJournal (fun j => if j.pcom = v.toNat then j else { j with pcom := v.toNat }.truncate)]
  else if !hostBlocked s 0 && j.hostedMarks.contains v.toNat then
    [modJournal (fun j => { j with hostedCom := v.toNat }), .chip (fun h => h.tell s.cyc j.writer (.commit v.toNat))]
  else []

def execJpcomWrite (value : Word) (forwarded : Bool) (s : State) : Host.Outcome State Fault Refusal := done (pcomActs s value forwarded ++ [bump]) s

/-! Routes (R313, R314). -/

/-- ROUTE_TABLE_WRITE: an entry gives the egress port toward a module; held flits follow it, and a module that it leaves without a route has
none from now on. -/
def routeActs (s : State) (m : Nat) (v : Word) : List Act :=
  let m := m % 1024
  [.chip (fun h =>
    let g := { h with routes := SMap.set 0 h.routes m (v &&& 0x9F) }
    { g with noRoute := if (h.route m).isSome && (g.route m).isNone then SMap.set 0 h.noRoute m s.cyc else h.noRoute }.release m)]

def execRouteTableWrite (target : Nat) (value : Word) (s : State) : Host.Outcome State Fault Refusal := done (routeActs s target value ++ [bump]) s

/-! The other module registers (R367). -/

/-- Whether a launch is resident on a core (R348). -/
def residentCore (y : Core) : Bool := y.queues.any (fun q => q.launch.isSome)

/-- Byte k of a register write. -/
def byteOf (v : Word) (k : Nat) : Nat := v.toNat / 2 ^ (8 * k) % 256

/-- Writes 8 bytes of the core-function map; an entry changes only while no launch is resident, and not to a reserved function. -/
def writeCoreMap (off : Nat) (v : Word) : List Act :=
  (List.range 8).map (fun k =>
    let fn := byteOf v k % 32
    Act.core (off + k) (fun y => if residentCore y || (16 < fn && fn < 31) then y else { y with mapFn := fn }))

/-- Writes 8 granule owners; a die has 1,032 granules (R349). -/
def writeOwners (off : Nat) (v : Word) : List Act :=
  if off % 2048 < 1032 then [.chip (fun h => { h with owners := (List.range 8).foldl (fun m k => SMap.set 0 m (off + k) (byteOf v k % 32)) h.owners })] else []

/-- Writes an overflow register: only while no launch is resident on the die, the area inside the die's backed regions. -/
def writeOverflow (s : State) (d : Nat) (v : Word) : List Act :=
  let size := v.toNat % 2 ^ 11
  let base := (v.extractLsb' 20 20).toNat * 2 ^ 20
  let resident := s.cores.any (fun e => e.1 / 256 = d && residentCore e.2)
  let inside := (List.range size).all (fun i =>
    let a := base + i * 2 ^ 20
    a / Config.regionBytes / 16 = d && backed s a && backed s (a + 2 ^ 20 - 1) && (a + 2 ^ 20 - 1) / Config.regionBytes / 16 = d)
  if resident || 1024 < size || !inside then []
  else [.chip (fun h => { h with ovf := SMap.set 0 h.ovf d (v &&& 0xFFFFF007FF) })]

/-- Writes word k of a range entry, on all RTUs at once (R244). -/
def writeRange (n k : Nat) (v : Word) : List Act :=
  if 3 ≤ k then []
  else [.chip (fun h => { h with ranges := SMap.set 0 h.ranges n (setField (SMap.get 0 h.ranges n) (64 * k) 64 v.toNat &&& rangeMask) })]

/-- A write of 8 bytes at an offset of PF BAR 0 (R367); offsets from 0x200_0000 on stand for PF BAR 2. -/
def registerActs (s : State) (off : Nat) (v : Word) : List Act :=
  if 0x2000000 ≤ off then ringBases s 0 (off - 0x2000000) v
  else if 0x1000000 ≤ off then (if 1 ≤ (off - 0x1000000) / 0x10000 && (off - 0x1000000) / 0x10000 ≤ 16 then ringBases s ((off - 0x1000000) / 0x10000) (off % 0x10000) v else [])
  else if hostBlocked s 0 then []
  else if off = 0x20000 then dutyActs v
  else if off = 0x20008 then powerCapActs v
  else if 0x30000 ≤ off && off < 0x30400 then writeCoreMap (off - 0x30000) v
  else if 0x40000 ≤ off && off < 0x42000 then writeOwners (off - 0x40000) v
  else if 0x42000 ≤ off && off < 0x42020 then writeOverflow s ((off - 0x42000) / 8) v
  else if 0x50000 ≤ off && off < 0x52000 then writeRange ((off - 0x50000) / 32) ((off - 0x50000) / 8 % 4) v
  else if 0x60000 ≤ off && off < 0x60088 then [.chip (fun h => { h with roots := SMap.set 0 h.roots ((off - 0x60000) / 8) (v &&& rootMask) })]
  else if off = 0x60100 then [.chip (fun h => { h with invLo := v })]
  else if off = 0x60108 then [.chip (fun h => { h with invHi := v })]
  else if off = 0x60110 then invalidateActs s v
  else if 0x70000 ≤ off && off < 0x72000 then routeActs s ((off - 0x70000) / 8) v
  else if 0x80000 ≤ off && off < 0x80020 then (if s.chip.duty.getLsbD 1 then pairingActs s (0x040 + (off - 0x80000) / 8) v else [])
  else if off = 0x80038 then (if s.chip.duty.getLsbD 1 then cursorActs s v else [])
  else if off = 0x80048 then pcomActs s v false
  else if 0x90000 ≤ off && off < 0x90060 then (if v.getLsbD 32 then tkoActs s ((off - 0x90000) / 8) true else [])
  else []

/-- REGISTER_WRITE: a write of a module register; an offset not listed ignores it. -/
def execRegisterWrite (offset : Nat) (value : Word) (s : State) : Host.Outcome State Fault Refusal := done (registerActs s offset value ++ [bump]) s

end Sys2Proof.Machine
end

