-- ==== Sys2Proof/Machine/Hbm.lean ====
section
/-! DEFINITION. Device memory's stacks, sensors and power (10 R247 to R253, 19 R371, R375, R376). -/

namespace Sys2Proof.Machine

/-! Map-out (R251). -/

/-- The first address of a layer's region (R247). -/
def regionBase (k layer : Nat) : Nat := Config.regionBytes * (16 * (k / 3) + layer)

/-- Whether n bytes at a physical address meet a layer's region. -/
def inRegion (k layer pa n : Nat) : Bool := rangesMeet pa n (regionBase k layer) Config.regionBytes

/-- Whether a layer's region still has to serve something on the old mapping: an access translated into it, or of sync memory that lies there; a
chunk of a copy; a row on its way to a staging store. -/
def layerBusy (s : State) (k layer : Nat) : Bool :=
  let part := fun (p : PagePart) => match p.trans with | .done pa => inRegion k layer pa p.n | _ => false
  s.work.accesses.any (fun a => !a.performed && (a.devicePlaces.any (fun p => inRegion k layer p.1 p.2) ||
      (windowOf a.va = 2 && (pieces s (a.place s).1 (a.place s).2 a.size).any (fun p => p.1 = .hbm && inRegion k layer p.2.1 p.2.2)))) ||
    s.work.copies.any (fun y => y.chunks.any (fun c => (!c.read && c.src.any part) || part ⟨0, c.n, c.dst⟩)) ||
    s.staging.any (fun x => !x.2.present && !x.2.bad && x.2.parts.any part)

/-- The valid entries of a table of device memory that the listed bytes hold: index and entry. -/
def tableEntries (s : State) (table n : Nat) : List (Nat × Nat) :=
  (s.hbm.filter (fun c => table ≤ c.1 && c.1 < table + 8 * n && (c.1 - table) % 8 = 0 && c.2.getLsbD 0)).map
    (fun c => ((c.1 - table) / 8, leValue (s.readBytes .hbm c.1 8)))

/-- A page as its table maps it: the address of its entry, its virtual and physical address, its size. -/
structure MappedPage where
  entry : Nat
  va : Nat
  pa : Nat
  size : Nat

/-- The pages that a table maps from a virtual address on, k levels below it. -/
def tablePages (s : State) : Nat → Nat → Nat → List MappedPage
  | k, va, table =>
    (tableEntries s table (if k = 3 then 2 ^ 17 else 512)).flatMap (fun e =>
      let a := e.2 / 2 ^ 12 % 2 ^ 28 * 4096
      let v := va + e.1 * 2 ^ (12 + 9 * k)
      if e.2 / 2 % 2 = 1 then
        let size := 2 ^ (if e.2 / 4 % 4 = 0 then 12 else if e.2 / 4 % 4 = 1 then 16 else if e.2 / 4 % 4 = 2 then 21 else 30)
        [⟨table + 8 * e.1, v / size * size, a, size⟩]
      else match k with
        | 0 => []
        | k + 1 => tablePages s k v a)

/-- The pages of all functions, each with its function. -/
def allPages (s : State) : List (Nat × MappedPage) :=
  s.chip.roots.flatMap (fun r => if r.2.getLsbD 0 then (tablePages s 3 0 ((r.2.extractLsb' 20 20).toNat * 2 ^ 20)).map (fun p => (r.1, p)) else [])

/-- The first physical address of a range entry. -/
def rangeBase (e : BitVec 192) : Nat := rangeField e 144 24 * 2 ^ 16

/-- Whether a range entry or a page of some function still maps into a layer's region, or a range that moves holds it (R251 step 2). -/
def regionMapped (s : State) (k layer : Nat) : Bool :=
  s.chip.ranges.any (fun e => e.2.getLsbD 0 && (inRegion k layer (rangeBase e.2) (rangeBytes e.2) || s.chip.moving.any (fun m => m.1 = e.1))) ||
    (allPages s).any (fun p => inRegion k layer p.2.pa p.2.size)

/-- The places in device memory that are taken: what entries and pages map, where a range is to move to, the overflow areas and the journal's
rings. -/
def takenPlaces (s : State) : List (Nat × Nat) :=
  let j := s.chip.journal
  (s.chip.ranges.filter (fun e => e.2.getLsbD 0)).map (fun e => (rangeBase e.2, rangeBytes e.2)) ++
    s.work.putOff.filterMap (fun e => match e.2 with
      | .range n off _ => some (off % 2 ^ 24 * 2 ^ 16, rangeBytes (SMap.get 0 s.chip.ranges n))
      | .layer _ _ _ => none) ++
    (allPages s).flatMap (fun p => [(p.2.pa, p.2.size), (p.2.entry / 4096 * 4096, 4096)]) ++
    (List.range 4).map (fun d => (ovfBase s d, ovfBytes s d)) ++
    [j.localBase, j.ringBase, j.hostBase].map (fun b => (b * 2 ^ 16, 64 * 2 ^ (max j.ringLog j.hostLog)))

/-- Whether n bytes at a physical address may take what leaves a layer's region: backed, outside the region, and free. -/
def placeFree (s : State) (k layer pa n : Nat) : Bool :=
  0 < n && backed s pa && backed s (pa + n - 1) && !inRegion k layer pa n &&
    (List.range ((pa + n - 1) / Config.regionBytes - pa / Config.regionBytes)).all (fun i => (regionStacks s (pa / Config.regionBytes + i)).length = 3) &&
    !((takenPlaces s).any (fun p => rangesMeet p.1 p.2 pa n))

/-- Moves a page to a physical address as R253 moves a range, in one step: the writes made before perform first, and the move waits for one
that cannot yet; the bytes are copied, the entry names the new address, and its translations are dropped (log 54). -/
def pageMove (s : State) (fn : Nat) (p : MappedPage) (pa : Nat) : List Act :=
  match walkNow s fn p.va 0 with
  | none => []
  | some e =>
    let l := writesFirst s e
    let t := applyActs l s
    if pageWritten t e then l
    else
      let first := if p.size = 2 ^ 16 then p.entry / 128 * 128 else p.entry
      l ++ eccChecks t [(.hbm, p.pa, p.size)] fn ++ [.write .hbm pa (t.readBytes .hbm p.pa p.size) (t.readPoison .hbm p.pa p.size)] ++
        (List.range (if p.size = 2 ^ 16 then 16 else 1)).map (fun i =>
          let v := leValue (t.readBytes .hbm (first + 8 * i) 8)
          Act.write .hbm (first + 8 * i) (leBytes 8 (v - v / 2 ^ 12 % 2 ^ 28 * 2 ^ 12 + pa)) (List.replicate 8 false)) ++
        [.chip (fun h => h.dropTlb fn p.va (p.va + p.size - 1))]

/-- The moves of what lies in a layer's region, each to a free choice of a place that may take it: a range by RANGE_MIGRATION's three stages, a
page at once (R251 step 2, R253). -/
def regionMoves (s : State) (k layer : Nat) : List Act :=
  let ranges := s.chip.ranges.flatMap (fun e =>
    let off := s.choice (1000 + e.1) % 2 ^ 24
    if e.2.getLsbD 0 && inRegion k layer (rangeBase e.2) (rangeBytes e.2) && !(s.chip.moving.any (fun m => m.1 = e.1)) &&
        !(e.2.getLsbD 2 && residentFn s (rangeField e.2 4 5)) && placeFree s k layer (off * 2 ^ 16) (rangeBytes e.2) then
      migrateActs s e.1 off 0 ++ [again s (.range e.1 off 1), again s (.range e.1 off 2)]
    else [])
  let pages := ((allPages s).filter (fun p => inRegion k layer p.2.pa p.2.size)).mapIdx (fun i p => (i, p))
  ranges ++ (pages.foldl (fun acc e =>
    let pa := s.choice (5000 + e.1) % (Config.hbmBytes / e.2.2.size) * e.2.2.size
    let m := if (allPages acc.2).any (fun q => q.1 = e.2.1 && q.2.entry = e.2.2.entry && q.2.pa = e.2.2.pa) && placeFree acc.2 k layer pa e.2.2.size
      then pageMove acc.2 e.2.1 e.2.2 pa else []
    (acc.1 ++ m, applyActs m acc.2)) (([] : List Act), applyActs ranges s)).1

/-- LAYER_MAP_OUT: step 0 marks a layer for removal, in the mode of LMAP then (R369), and lets the contexts quiesce (R368); step 1 moves its ranges and pages, in hardware mode, and goes on until none is left (in
host-assisted mode the host driver does, by RANGE_MIGRATION and by the page tables); step 2, once nothing maps into its region, commits it out
when the accesses issued before have performed: its region takes the reduced interleave, its data are not preserved (log 54), and the hot-remove
event is posted. -/
def mapOutActs (s : State) (k layer stage : Nat) : List Act :=
  match stage with
  | 0 => modStack k (fun t => { t with leaving := some layer, leavingHost := s.chip.duty.getLsbD 4 }) :: (askHost s 4 ++ quiesceAll s)
  | 1 =>
    if (s.stackAt k).leaving ≠ some layer || (s.stackAt k).leavingHost || !regionMapped s k layer then []
    else if ownQuiescing s then [again s (.layer k layer 1)]
    else regionMoves s k layer ++ [again s (.layer k layer 1)]
  | 2 =>
    if (s.stackAt k).leaving ≠ some layer || regionMapped s k layer then []
    else if layerBusy s k layer || ownQuiescing s then [again s (.layer k layer 2)]
    else
      let l : List Act := [modStack k (fun t => { t with good := setField t.good layer 1 0, leaving := none }),
       .wipe .hbm (regionBase k layer) Config.regionBytes, post s 0x19 0 k 0 layer]
      l ++ resumeOwn (applyActs l s)
  | _ => []

def execLayerMapOut (stack layer stage : Nat) (s : State) : Host.Outcome State Fault Refusal :=
  done (mapOutActs s stack (layer % 16) stage ++ [bump]) s

/-! Refresh (R249, R250). -/

/-- The rate of a layer read at t °C whose rate was old: up at once, down once the reading is 2 °C below the band's upper edge. -/
def refreshRate (old t : Nat) : Nat :=
  let up := if t ≤ 85 then 1 else if t ≤ 95 then 2 else 4
  if old ≤ up then up else if t ≤ 83 then 1 else if t ≤ 93 then min old 2 else min old 4

/-- The rates reported within the last 100 µs of cycle t. -/
def recentRates (y : Stack) (t : Nat) : List Nat := (y.reports.filter (fun e => t ≤ e.1 + 100000)).map (fun e => e.2)

/-- REFRESH_RATE_EVAL: the base-die core sets and reports the rates from the readings, one for each layer; above 105 °C the event. A takeover
leaves the layers' own bands as they go on. -/
def refreshActs (s : State) (k : Nat) (temps : List Nat) : List Act :=
  let y := s.stackAt k
  let rates := (List.range 16).map (fun i => refreshRate (y.rates.getD i 1) (temps.getD i 0))
  modStack k (fun y => { y with
      rates := rates
      evalAt := s.cyc
      reports := (y.reports.filter (fun e => s.cyc ≤ e.1 + 100000)) ++ [(s.cyc, rates.foldl max 1)] }) ::
    (if temps.any (fun t => 105 < t) then post s 0x1A 0 k 0 0 :: quiesceAll s else resumeOwn s)

def execRefreshRateEval (stack : Nat) (temps : List Nat) (s : State) : Host.Outcome State Fault Refusal :=
  done (refreshActs s stack temps ++ [bump]) s

/-- HEARTBEAT: one more in a row, or the first after a gap; the sixteenth since a takeover allows the handback (R250). -/
def heartbeatActs (s : State) (k : Nat) : List Act :=
  let n := if s.cyc < (s.stackAt k).lastBeat + 2000 then (s.stackAt k).beats + 1 else 1
  modStack k (fun y => { y with lastBeat := s.cyc, beats := n }) :: (if (s.stackAt k).tko && n = 16 then askHost s 2 else [])

def execHeartbeat (stack : Nat) (s : State) : Host.Outcome State Fault Refusal := done (heartbeatActs s stack ++ [bump]) s

/-- Whether four heartbeats have been missed since the last one. -/
def beatMissed (s : State) (k : Nat) : Bool :=
  let y := s.stackAt k
  0 < y.lastBeat && !y.tko && y.lastBeat + 4000 ≤ s.cyc

/-- HEARTBEAT_TIMEOUT: the SCT takes refresh over at twice the highest rate reported, or at 4 times nominal. -/
def takeoverActs (s : State) (k : Nat) : List Act :=
  if !beatMissed s k then []
  else
    let l := recentRates (s.stackAt k) s.cyc
    [modStack k (fun y => { y with tko := true, beats := 0, handback := false, src := if l.isEmpty then 2 else 1
                                   tkoRate := if l.isEmpty then 4 else 2 * l.foldl max 1 }), post s 0x06 0 k 0 0]

/-- Whether a stack's base-die core re-evaluates the rates now: every 10 µs, while its heartbeats come or have not begun (R249). -/
def evalDue (s : State) (k : Nat) : Bool :=
  let y := s.stackAt k
  y.evalAt + 10000 ≤ s.cyc && (y.lastBeat = 0 || s.cyc < y.lastBeat + 4000)

def execHeartbeatTimeout (stack : Nat) (s : State) : Host.Outcome State Fault Refusal := done (takeoverActs s stack ++ [bump]) s

/-- REFRESH_INTERVAL_BOUNDARY: an accepted handback takes effect. -/
def boundaryActs (s : State) (k : Nat) : List Act :=
  if (s.stackAt k).handback then [modStack k (fun y => { y with tko := false, src := 0, handback := false, tkoRate := 0 })] else []

/-- Whether the refresh interval boundary at which a handback takes effect has come (R250). -/
def boundaryDue (s : State) (k : Nat) : Bool := (s.stackAt k).handback && (s.stackAt k).handbackAt ≤ s.cyc

def execRefreshIntervalBoundary (stack : Nat) (s : State) : Host.Outcome State Fault Refusal := done (boundaryActs s stack ++ [bump]) s

/-! Retrain (R252). -/

/-- RETRAIN_REQUEST: deferred while saves that carry a deadline read or write the stack, which stacks a save touches being open (log 78);
else the retrain runs. -/
def retrainActs (s : State) (k : Nat) : List Act :=
  let saves := (s.cores.filter (fun e => s.choice e.1 % 2 = 1)).filterMap (fun e => (deadlineSave s e.1).map (fun t => (e.1, t)))
  [modStack k (fun y => if saves.isEmpty then { y with retrain := true } else { y with rtd := true, waits := saves })]

def execRetrainRequest (stack : Nat) (s : State) : Host.Outcome State Fault Refusal := done (retrainActs s stack ++ [bump]) s

def execDataRateRetrainComplete (stack : Nat) (s : State) : Host.Outcome State Fault Refusal :=
  done [modStack stack (fun y => { y with retrain := false }), bump] s

/-- Retrains whose saves have completed, or been given up, start (R252). -/
def deferredRetrains (s : State) : List Act :=
  (s.chip.hbmStacks.filter (fun e => e.2.rtd && !(e.2.waits.any (fun w => deadlineSave s w.1 = some w.2)))).map (fun e =>
    modStack e.1 (fun y => { y with rtd := false, waits := [], retrain := true }))

/-! Sensors and power (R253, R371, R375, R376). -/

/-- The sensors in one numbering: 16 die quadrants (in 0.25 °C), 192 HBM layers (in °C, 16 for each stack), 28 rails, 2 coolant. -/
def layerSensor (k layer : Nat) : Nat := 16 + 16 * k + layer

/-- A temperature in °C as a byte of the heat map. -/
def heatByte (i : Int) : Nat := min i.toNat 255

/-- HEAT_MAP_PUBLISH: 384 bytes, one for each stack and channel, then 192, one for each layer, from the layer sensors. -/
def heatMap (s : State) : List Nat :=
  let t := fun (k layer : Nat) => heatByte (SMap.get 0 s.chip.lantern.sensors (layerSensor k layer))
  let hottest := fun (k : Nat) => ((List.range 16).map (t k)).foldl max 0
  (List.range 12).flatMap (fun k => List.replicate 32 (hottest k)) ++ (List.range 12).flatMap (fun k => (List.range 16).map (t k))

/-- Changes Lantern. -/
def modLantern (f : Lantern → Lantern) : Act := .chip (fun h => { h with lantern := f h.lantern })

/-- Whether Lantern publishes the heat map now: every 1 ms (R253). -/
def heatDue (s : State) : Bool := s.chip.lantern.heatAt + 1000000 ≤ s.cyc

/-- HEAT_MAP_PUBLISH: the map by which the agent of TMIG chooses what to move (R253, R368; log 72). -/
def execHeatMapPublish (s : State) : Host.Outcome State Fault Refusal :=
  done (modLantern (fun l => { l with heat := heatMap s, heatAt := s.cyc }) :: (askHost s 5 ++ [bump])) s

/-- SENSOR_SAMPLE: a reading is published; a die quadrant above 105 °C posts the over-temperature event, one at 115 °C or above the
thermal trip: the dies stop, and the stacks go into self-refresh. -/
def sensorActs (s : State) (n : Nat) (r : Int) : List Act :=
  let l : List Act := [modLantern (fun l => { l with sensors := SMap.set 0 l.sensors n r })]
  l ++ (if n < 16 && 420 < r then post s 0x1A 0 (256 * (n / 4)) 0 n :: quiesceAll s else resumeOwn (applyActs l s)) ++
    (if n < 16 && 460 ≤ r then
      [post s 0x23 0 (256 * (n / 4)) 0 n,
       .chip (fun h => { h with halted := true, hbmStacks := (List.range 12).foldl (fun m k => SMap.set {} m k { SMap.get {} m k with selfRefresh := true }) h.hbmStacks })]
     else [])

def execSensorSample (sensor : Nat) (reading : Int) (s : State) : Host.Outcome State Fault Refusal := done (sensorActs s sensor reading ++ [bump]) s

/-- POWER_CAP_EVAL: the average of the last 1 ms, which decides on idle grants. -/
def execPowerCapEval (measured : Nat) (s : State) : Host.Outcome State Fault Refusal :=
  done [.chip (fun h => { h with meas := measured % 2 ^ 13 }), bump] s

end Sys2Proof.Machine
end

