-- ==== Sys2Proof/Machine/Mirror.lean ====
section
/-! DEFINITION. Mirror's events: records and acknowledgements, resends, emissions, failures on either side (8 R226, 11 R269, 17 R337 to
R344). -/

namespace Sys2Proof.Machine

/-! The hosted ring (R338, R343). -/

/-- The ring's write of a record, accepted only in sequence and with its CRC good, and its acknowledgement; a failed writer's flits are
discarded. -/
def recordActs (s : State) (r : RingRecord) (ok : Bool) : List Act :=
  let j := s.chip.journal
  if !j.hv || j.wfail || r.writer % 1024 ≠ j.writer || (ringSize j.hostLog).isNone then []
  else
    modJournal (fun j => { j with heardAt := s.cyc }) ::
      (if ok && r.number = j.hostedNext then
        [.write .hbm (ringPlace j.hostBase j.hostLog r.number) (recordBytes r) (List.replicate 64 false),
         .chip (fun h =>
           let j := h.journal
           ({ h with journal := { j with hostedNext := j.hostedNext + 1
                                         hostedMarks := if r.kind % 16 = 3 then j.hostedMarks ++ [r.number] else j.hostedMarks } }).tell
             s.cyc j.writer (.journalAck (j.hostedNext + 1)))]
       else [])

/-- JOURNAL_RECORD_RECEIVE. -/
def execJournalRecordReceive (record : RingRecord) (crcOk : Bool) (s : State) : Host.Outcome State Fault Refusal :=
  done (recordActs s record crcOk ++ [bump]) s

/-- The writer is declared failed; the last durable record is then fixed. -/
def writerFails (s : State) : List Act := [modJournal (fun j => { j with wfail := true }), post s 0x31 0 0 0 0]

/-- Whether a writer with unreleased records has been silent for 4 ACKB cycles. -/
def writerSilent (s : State) : Bool :=
  let j := s.chip.journal
  j.hv && !j.wfail && j.hostedHead < j.hostedNext && j.heardAt + 4 * j.ackb ≤ s.cyc

/-- WRITER_FAILURE_TIMEOUT: in hardware mode the writer is declared failed; in host-assisted mode the host driver is asked (R368). -/
def silentActs (s : State) : List Act :=
  if !writerSilent s then []
  else if s.chip.duty.getLsbD 1 then
    modJournal (fun j => { j with heardAt := s.cyc }) :: askHost s 1
  else writerFails s

def execWriterFailureTimeout (s : State) : Host.Outcome State Fault Refusal := done (silentActs s ++ [bump]) s

/-- WRITER_DOWN_REPORT: the agent reports the writer down. -/
def downActs (s : State) : List Act := if s.chip.journal.hv && !s.chip.journal.wfail then writerFails s else []

def execWriterDownReport (s : State) : Host.Outcome State Fault Refusal := done (downActs s ++ [bump]) s

/-! The own ring (R338, R341). -/

/-- JOURNAL_ACK: DUR is the highest number that the partner has acknowledged, in every STATE (R338); a spare under reseeding is heard until it
has the whole ring (R341); nobody else is. -/
def ackActs (s : State) (sender n : Nat) : List Act :=
  let j := s.chip.journal
  if j.state = 3 && sender = j.rseed then [modJournal (fun j => { j with spareAck := max j.spareAck n, sentAt := j.sentAt.filter (fun e => n ≤ e.1) })]
  else if j.pval && sender = j.partner then
    [modJournal (fun j => { j with dur := max j.dur n, heard := some n
                                   sentAt := if j.state = 1 then j.sentAt.filter (fun e => n ≤ e.1) else j.sentAt })]
  else []

def execJournalAck (ack : RecordAck) (s : State) : Host.Outcome State Fault Refusal := done (ackActs s ack.sender ack.number ++ [bump]) s

/-- When the oldest record that the receiver has not acknowledged was first sent; none without a receiver or such a record. -/
def Journal.oldestSent (j : Journal) : Option Nat := if j.receiver.isSome then j.sentAt.head?.map (fun e => e.2) else none

/-- Whether a record has waited ACKB / 4 cycles since it was sent. -/
def resendDue (s : State) : Bool :=
  let j := s.chip.journal
  !s.chip.fatal && (match j.oldestSent with | some t => max t j.resentAt + j.ackb / 4 ≤ s.cyc | none => false)

/-- JOURNAL_RESEND_TIMEOUT: every record not acknowledged is sent again, in order. -/
def resendTimeoutActs (s : State) : List Act :=
  let j := s.chip.journal
  if resendDue s then
    modJournal (fun j => { j with resentAt := s.cyc }) :: resendActs s (if j.state = 3 then j.spareAck else j.dur) j.tail
  else []

def execJournalResendTimeout (s : State) : Host.Outcome State Fault Refusal := done (resendTimeoutActs s ++ [bump]) s

/-- Whether a record has waited ACKB cycles since it was first sent. -/
def partnerSilent (s : State) : Bool :=
  match s.chip.journal.oldestSent with | some t => t + s.chip.journal.ackb ≤ s.cyc | none => false

/-- PARTNER_FAILURE_TIMEOUT: the partner, or a spare under reseeding, is declared failed; reseeding of the next spare begins, or the host
driver is asked (R368). -/
def partnerActs (s : State) : List Act :=
  if !partnerSilent s then []
  else
    let l : List Act := [modJournal (fun j => { j with state := 2, rseed := 0 }), post s 0x18 0 0 0 0]
    l ++ (if s.chip.duty.getLsbD 1 then askHost s 1 else reseedActs (applyActs l s))

def execPartnerFailureTimeout (s : State) : Host.Outcome State Fault Refusal := done (partnerActs s ++ [bump]) s

/-- Whether the spare under reseeding holds every record. -/
def reseeded (s : State) : Bool := s.chip.journal.state = 3 && s.chip.journal.tail ≤ s.chip.journal.spareAck

/-- SPARE_RESEED_COMPLETE: in one cycle the spare becomes the partner; PCOM restarts below HEAD. -/
def reseededActs (s : State) : List Act :=
  if reseeded s then
    [modJournal (fun j => { j with partner := j.rseed, ringBase := j.spareBase, rseed := 0, state := 1, dur := j.spareAck
                                   pcom := j.head - 1, sentAt := [], heard := some j.spareAck })]
  else []

def execSpareReseedComplete (s : State) : Host.Outcome State Fault Refusal := done (reseededActs s ++ [bump]) s

/-! Emissions (R226, R269, R331, R339). -/

/-- Where the emission of an entry goes: an element, a home and offset, a translation fault, or nothing while it waits. -/
inductive EmitPlace where
  | silent
  | sent
  | channel (ch : Nat)
  | home (h : Home) (off : Nat)
  | fault (sub : Nat)
  | waits
  deriving DecidableEq, Repr

/-- The place of an entry's emission. -/
def Emit.place (s : State) (e : Emit) : EmitPlace :=
  if e.silent then .silent
  else
    match e.sent with
    | some k => if s.chip.elements.any (fun x => x.id = k) then .waits else .sent
    | none =>
      match emitChannel e.target with
      | some ch => .channel ch
      | none =>
        let a := e.target.toNat
        if windowOf a = 1 then
          match translateFast s (e.q / 4) e.fn a true with
          | some (.done pa, _) => .home .hbm pa
          | some (.fault k, _) => .fault k
          | some _ => .waits
          | none => if mapped s (e.q / 4) e.fn a 8 true then .fault 0 else .waits
        else let p := locate s (e.q / 4) a; .home p.1 p.2

/-- The next entry of the emit buffer to be freed or performed (R339): a durable record without an emission, or whose element is enqueued, is
freed wherever it stands; of the other emissions the oldest performs, once its record is durable or its JCMP has matched and the work that a
drain placed before it is done (R265, R269), unless the partner has failed (R341). None in the fatal state (R362). -/
def emissionDue (s : State) : Option Emit :=
  let j := s.chip.journal
  if s.chip.fatal then none
  else
    match s.chip.emits.find? (fun e => (e.replay || e.number < j.dur) && (e.silent || e.place s = .sent)) with
    | some e => some e
    | none =>
      match s.chip.emits.find? (fun e => !e.silent) with
      | some e =>
        if holdClear s e.hold && (e.replay || (e.number < j.dur && j.state ≠ 2 && j.state ≠ 3)) && e.place s ≠ .waits then some e else none
      | none => none

/-- Reaches sequencer q of a launch while the launch is resident on its core: there if it runs, else in its save area. -/
def reachSeq (s : State) (q : Nat) (launch : Option Nat) (here : List Act) (f : Seq → Seq) : List Act :=
  let c := q / 4
  let y := s.coreOf c
  if runningLaunch s c = launch then here
  else
    match (y.queues.mapIdx (fun i x => (i, x))).find? (fun x => x.2.launch = launch && !x.2.ended && !x.2.done) with
    | none => []
    | some (n, _) =>
      match s.saved.find? (fun v => v.1 = saveKey c n) with
      | some v => [.stow v.1 { v.2 with seqs := modifyAt (q % 4) f v.2.seqs }]
      | none => []

/-- The deferred store fault of a dropped emission, in the launch that made it while it is resident (R226). -/
def emitFault (s : State) (e : Emit) (sub : Nat) : List Act :=
  let p : Pending := { code := 0x21, slot := e.slot, sub := sub, faddr := e.addr, addr := e.target.toNat, info := 8, data := e.payload }
  reachSeq s e.q e.launch (pushEvent s e.q p) (fun z => { z with events := z.events ++ [p] })

/-- EMISSION_PERFORM: an entry is freed, or the oldest emission performs: nothing, a store of 8 bytes, or an element that its entry then waits for; one that
meets a fault is dropped. -/
def emissionActs (s : State) : List Act :=
  match emissionDue s with
  | none => []
  | some e =>
    let free : Act := .chip (fun h => { h with emits := h.emits.erase e })
    match e.place s with
    | .silent | .sent => [free]
    | .channel ch =>
      let n := chtBytes (s.chtOf (e.q / 4) ch)
      [.chip (fun h =>
        let x := sentElement s e.q e.fn ch ((leBytes 8 e.payload.toNat ++ List.replicate n 0).take n) (List.replicate n false) {} 1 h
        { (h.pushElement x) with emits := h.emits.map (fun y => if y = e then { y with sent := some h.nextElem } else y) })]
    | .home h off => free :: (if fencedFrom s h (e.q / 4) then [] else noteWrite engineRank h off 8 :: writeHome s h off (leBytes 8 e.payload.toNat) (List.replicate 8 false))
    | .fault k => free :: post s 0x1B e.fn (e.q / 4) e.target.toNat e.number :: emitFault s e k
    | .waits => []

def execEmissionPerform (s : State) : Host.Outcome State Fault Refusal := done (emissionActs s ++ [bump]) s

end Sys2Proof.Machine
end

