-- ==== Sys2Proof/Machine/Ports.lean ====
section
/-! DEFINITION. The ports' events: flits and beats that arrive, pauses, routes that fail, time messages (15 R310 to R317, R327 to R329;
log 33). -/

namespace Sys2Proof.Machine

/-- Changes a port. -/
def modPort (k : Nat) (f : Port → Port) : Act := .chip (fun h => { h with ports := SMap.set {} h.ports k (f (h.port k)) })

/-! Flits that arrive (R310, R311, R312, R313, R317). -/

/-- A flit enters its lane's receive queue; at 48 flits the lane is paused (R312). -/
def queueFlit (s : State) (k : Nat) (f : Flit) : List Act :=
  [modPort k (fun p =>
    let l := flitLane f
    let p := { p with queues := p.queues ++ [⟨l, s.cyc, f⟩] }
    if 48 ≤ p.queued l && !p.pausing.any (fun e => e.1 = l) then
      { p with pausing := p.pausing ++ [(l, s.cyc + pauseRepeat)] }.beat s.cyc (.pause l)
    else p)]

/-- A step performed at the start of the next cycle. -/
def later (s : State) (i : Instr) : Act := .work (fun w => { w with agenda := w.agenda ++ [(s.cyc, i)] })

/-- The core a flit is for. -/
def flitCore (f : Flit) : Nat := 256 * flitField f 10 2 + flitField f 12 8

/-- Whether two flits are of one channel. -/
def sameChannel (f g : Flit) : Bool := flitKind g = 0 && flitField f 0 28 = flitField g 0 28 && flitLane f = flitLane g && f.source = g.source

/-- A channel flit: with the last one of an element, the element arrives, of whatever size it was sent (R317), its flits having come over one
port or, after a change of route, over two (R314). A flit out of sequence leaves
its element incomplete: a misdirected element, posted once, with its last flit or when another element begins in its place. -/
def elementFlit (s : State) (k : Nat) (f : Flit) : List Act :=
  let c := flitCore f
  let mine := sortBy (fun r => flitFix r.flit) (s.chip.ports.flatMap (fun e => e.2.queues.filter (fun r => sameChannel f r.flit)))
  let clear : Act := .chip (fun h => { h with ports := h.ports.map (fun e => (e.1, { e.2 with queues := e.2.queues.filter (fun r => !(sameChannel f r.flit)) })) })
  let bad := post s 0x17 (s.fnOf c) c 0 0
  let last := (f.size + 255) / 256 ≤ flitFix f + 1
  if flitFix f ≠ mine.length && flitFix f ≠ 0 then clear :: (if last then [bad] else [])
  else
    let lost : List Act := if flitFix f = mine.length then [] else [clear, bad]
    let d := (if flitFix f = mine.length then mine.map (fun r => flitData r.flit) else []) ++ [flitData f]
    lost ++ (if last then
      [clear, later s (.channelElementArrival
        ⟨f.source, c, flitField f 20 8, (d.flatMap (fun x => x.1)).take f.size, (d.flatMap (fun x => x.2)).take f.size⟩)]
     else queueFlit s k f)

/-- A flit that has passed its check: forwarded, or taken in by its type. -/
def flitArrives (s : State) (k : Nat) (f : Flit) : List Act :=
  if flitDest f ≠ s.chip.modId then [.chip (fun h => h.send (flitDest f) [(f, 0)])]
  else
    match flitKind f with
    | 0 => elementFlit s k f
    | 1 => queueFlit s k f ++ [later s (.collectiveFlitArrival k f)]
    | 2 =>
      let d := flitData f
      let r := recordOf (d.1.take 64)
      recordActs s r.1 (r.2 && !((d.2.take 64).any (fun x => x)))
    | _ => []

/-- FLIT_RECEIVE: a flit that fails its CRC, and every later one until the replay, is discarded, with a retry beat for the flit that is
expected, repeated until it comes; every 8th good flit is acknowledged. -/
def receiveActs (s : State) (k : Nat) (f : Flit) (ok : Bool) : List Act :=
  let p := s.chip.port k
  if !p.up || portCount ≤ k then []
  else if ok && flitLseq f = p.expect then
    modPort k (fun p =>
      let q := { p with expect := (p.expect + 1) % 4096, discarding := false, good := p.good + 1 }
      if (p.good + 1) % 8 = 0 then q.beat s.cyc (.ack p.expect) else q) ::
      flitArrives s k f
  else if ok && p.discarding then []
  else [modPort k (fun p => { p with discarding := true, retryAt := s.cyc + pauseRepeat }.beat s.cyc (.retry p.expect))]

def execFlitReceive (port : Nat) (flit : Flit) (crcOk : Bool) (s : State) : Host.Outcome State Fault Refusal :=
  done (receiveActs s port flit crcOk ++ [bump]) s

/-! Beats that arrive (R311, R312). -/

/-- A port's link goes down in cycle t: its flits, but for those of a function being reset, wait for the new route of their module, before those held there already; the modules that it
led to have no route from now on (R314). -/
def Chip.linkDown (h : Chip) (t k : Nat) : Chip :=
  let p := h.port k
  let l := (p.retry.map (fun e => (e.2.1, e.2.2)) ++ p.waiting).filter (fun e => !h.dead e.1)
  let dests := (l.map (fun e => flitDest e.1)).eraseDups
  { h with
    ports := SMap.set {} h.ports k { p with up := false, retry := [], waiting := [], resend := none }
    noRoute := (h.routes.filter (fun e => h.route e.1 = some k)).foldl (fun m e => SMap.set 0 m e.1 t) h.noRoute
    routeHold := dests.foldl (fun m d => SMap.set [] m d (l.filter (fun e => flitDest e.1 = d) ++ SMap.get [] m d)) h.routeHold }

/-- RETRY_BEAT: the port replays from the named flit in order, without those of a function being reset; after 16 replays of one flit its link is down. -/
def retryActs (s : State) (k lseq : Nat) : List Act :=
  let p := s.chip.port k
  match p.retry.findIdx? (fun e => e.1 = lseq) with
  | none => []
  | some i =>
    let n := if p.replayed = lseq then p.replays + 1 else 1
    if 16 < n then [.chip (fun h => h.linkDown s.cyc k)]
    else [.chip (fun h => { h with ports := SMap.set {} h.ports k { (h.port k).purge i h.dead with resend := some i, replayed := lseq, replays := n } }), post s 0x04 0 0 0 k]

def execRetryBeat (port lseq : Nat) (s : State) : Host.Outcome State Fault Refusal := done (retryActs s port lseq ++ [bump]) s

/-- ACK_BEAT: the named flit and those before it leave the retry buffer. -/
def linkAckActs (k lseq : Nat) : List Act :=
  [modPort k (fun p =>
    match p.retry.findIdx? (fun e => e.1 = lseq) with
    | none => p
    | some i => { p with retry := p.retry.drop (i + 1), resend := p.resend.map (fun r => r - (i + 1)), replays := 0 })]

def execAckBeat (port lseq : Nat) (s : State) : Host.Outcome State Fault Refusal := done (linkAckActs port lseq ++ [bump]) s

/-- PAUSE_BEAT: no flit of the lane starts until no pause beat has come for 128 flit times. -/
def execPauseBeat (port lane : Nat) (s : State) : Host.Outcome State Fault Refusal :=
  done [modPort port (fun p => { p with paused := p.paused.filter (fun e => e.1 ≠ lane) ++ [(lane, s.cyc + pauseLength)] }), bump] s

/-- PAUSE_EXPIRY: the lane's flits start again. -/
def execPauseExpiry (port lane : Nat) (s : State) : Host.Outcome State Fault Refusal :=
  done [modPort port (fun p => { p with paused := p.paused.filter (fun e => !(e.1 = lane && e.2 ≤ s.cyc)) }), bump] s

/-! No route (R314). -/

/-- Whether no route to a module has existed for 1 ms, and flits for it are held; noRoute holds when its last route ceased, since reset none
having existed. -/
def noRouteDue (s : State) (m : Nat) : Bool :=
  SMap.get 0 s.chip.noRoute m + 1000000 ≤ s.cyc && (s.chip.route m).isNone && !(SMap.get [] s.chip.routeHold m).isEmpty

/-- NO_ROUTE_TIMEOUT: the flits held are discarded, with an uncontainable fabric error. -/
def noRouteActs (s : State) (m : Nat) : List Act :=
  if noRouteDue s m then
    [.chip (fun h => { h with routeHold := SMap.set [] h.routeHold m [] }), post s 0x22 0 0 0 m]
  else []

def execNoRouteTimeout (target : Nat) (s : State) : Host.Outcome State Fault Refusal := done (noRouteActs s target ++ [bump]) s

/-! Time (R327 to R329). -/

/-- What the TBU shows after a message: THETA is the sum of its terms, 0 at the reference; LOCK needs THETA ≤ 9. -/
def messageTbu (m : TimeMessage) : Tbu :=
  let theta := if m.isReference then 0 else min (m.ptheta + m.asym + m.resid) 0xFFFF
  { lock := m.locked && theta ≤ 9, isRef := m.isReference, src := m.source % 32, hops := m.hops % 256, theta := theta
    asym := m.asym % 2 ^ 16, resid := m.resid % 2 ^ 16, ptheta := m.ptheta % 2 ^ 16 }

/-- TIME_SYNC_MESSAGE: the servo acts on it, in Lantern or, asked by vector 1, in the host driver (R328, R368; log 72); until the TBU is locked, GTIME is set forward by what the servo asks, an open choice; never back, and by no step while
LOCK = 1 (R328; log 64). -/
def execTimeSyncMessage (message : TimeMessage) (s : State) : Host.Outcome State Fault Refusal :=
  done ((if s.chip.tbu.lock then [] else [.gtime (s.choice 0)]) ++ .chip (fun h => { h with tbu := messageTbu message }) :: (askHost s 3 ++ [bump])) s

end Sys2Proof.Machine
end

