-- ==== Sys2Proof/Machine/Reducers.lean ====
section
/-! DEFINITION. The stack reducers: steps enter their queues, begin and complete; collective flits are taken or refused (8 R224, 11 R266,
15 R320 to R326; log 34). -/

namespace Sys2Proof.Machine

/-! Steps (R320 to R322). -/

/-- The queue of a stack's SRD. -/
def Chip.srd (h : Chip) (k : Nat) : List SrdStep := SMap.get [] h.srds k

/-- Changes the queue of a stack's SRD. -/
def modSrd (k : Nat) (f : List SrdStep → List SrdStep) : Act := .chip (fun h => { h with srds := SMap.set [] h.srds k (f (h.srd k)) })

def SrdStep.ordered (x : SrdStep) : Bool := x.step = 1 || x.step = 5
/-- Whether a step's entry is a collective one that compresses (R315, R325). -/
def SrdStep.wire (x : SrdStep) : Bool := chtValid x.entry 2 && x.entry.getLsbD 3
/-- Whether a step sends its output. -/
def SrdStep.sends (x : SrdStep) : Bool := x.entry.getLsbD 7
/-- Whether a step takes input from its port. -/
def SrdStep.fromPort (x : SrdStep) : Bool := x.srcb = 0 && !(x.step = 7 && x.srca ≠ 0)
/-- How many inputs a step takes. -/
def SrdStep.need (x : SrdStep) : Nat := if x.ordered || 7 ≤ x.step || x.srcb ≠ 0 then 1 else x.member + 1

/-- The wire bytes of n bytes of F32 (R325). -/
def wireBytes (n : Nat) : Nat := n / 4096 * 544

/-- The bytes of one port input. -/
def SrdStep.inLen (x : SrdStep) : Nat := if x.wire || x.step = 8 then wireBytes x.len else x.len

/-- Why a step is refused at its start: the code of its deferred fault (R320, R322, R224). -/
def SrdStep.illegal (x : SrdStep) : Bool :=
  x.len % 64 ≠ 0 || ((x.fromPort || x.sends) && !chtValid x.entry 2) || (x.wire && (x.fromPort || x.sends) && x.len % 4096 ≠ 0)

/-- The step that a descriptor's bytes describe. -/
def readStep (s : State) (y : Command) (step stack : Nat) (bs : List Byte) : SrdStep :=
  let f := fun (b w : Nat) => leValue bs / 2 ^ b % 2 ^ w
  { id := y.id, q := y.q, fn := y.fn, launch := runningLaunch s (y.q / 4), step := step, stack := stack, dst := f 0 64, srca := f 64 64
    srcb := f 128 64, len := f 192 32, chan := f 224 8, seq := f 232 24, bar := f 256 64, member := f 320 12
    entry := s.chtOf (y.q / 4) (f 224 8), addr := y.addr, slot := y.slot }

/-- SRD_STEP_ENQUEUE: at S the descriptor is read and the step queued; a descriptor that is not ready, a full queue, an entry that does not
fit: a deferred fault, and the step is dropped. -/
def enqueueActs (s : State) (y : Command) : List Act :=
  match y.kind with
  | .srd step stack d =>
    if s.cyc < y.start || !holdClear s y.hold || s.chip.fatal then []
    else
      let c := y.q / 4
      let off := d % 2 ^ 22
      let drop : Act := .work (fun w => { w with commands := w.commands.filter (fun x => x.id ≠ y.id) })
      let fault := fun (code sub addr : Nat) => drop :: pushEvent s y.q { code := code, slot := y.slot, sub := sub, faddr := y.addr, addr := addr }
      let (bs, ps) := engineBytes s c off 64
      let x := readStep s y step stack bs
      if spdNotReady s c off 64 then fault 0x23 4 d
      else eccChecks s [(.spd c, off, 64)] (s.fnOf c) ++
      if 64 ≤ (s.chip.srd stack).length then fault 0x23 0 d
      else if ps.any (fun p => p) || x.illegal then fault 0x24 0 d
      else
        [drop, .chip (fun h => { h with refused := h.refused.filter (fun e => !(e.2.1 = 256 * stack + x.chan && e.2.2 = x.seq)) }),
         modSrd stack (fun l => l ++ [x])]
  | _ => []

def execSrdStepEnqueue (id : Nat) (s : State) : Host.Outcome State Fault Refusal :=
  done ((match s.work.commands.find? (fun y => y.id = id) with | some y => enqueueActs s y | none => []) ++ [bump]) s

/-! Port input (R320, R321, R326). -/

/-- What becomes of a flit that reaches its step: taken, not yet wanted, out of sequence. -/
inductive Taken where
  | took (x : SrdStep)
  | later
  | refused

/-- Chunks of one input, and the bytes of chunk k of it. -/
def SrdStep.chunkCount (x : SrdStep) : Nat := (x.inLen + 2047) / 2048
def SrdStep.chunkSize (x : SrdStep) (k : Nat) : Nat := min 2048 (x.inLen - 2048 * (k % max x.chunkCount 1))

/-- The chunks taken from a sender. -/
def SrdStep.from (x : SrdStep) (source : Nat) : List (Nat × List Byte × List Bool × Word) := x.taken.filter (fun e => e.1 = source)

/-- How many inputs have begun to come. -/
def SrdStep.started (x : SrdStep) : Nat :=
  ((x.taken.map (fun e => e.1)).eraseDups.map (fun k => ((x.from k).length + x.chunkCount - 1) / max x.chunkCount 1)).foldl (fun a b => a + b) 0

/-- A step after a flit of its tag: the next flit of its sender's open chunk, or the first one, with its extension, of a new chunk. The one
input of steps 1, 5, 7 and 8 is IMOD's: for an ordered step a flit from elsewhere is refused, for the others it is no input (R322, R326). -/
def SrdStep.take (x : SrdStep) (f : Flit) : Taken :=
  if (x.ordered || 7 ≤ x.step) && f.source / 1024 ≠ chtField x.entry 28 10 then (if x.ordered then .refused else .later)
  else
  let mine := x.from f.source
  let d := flitData f
  let n := mine.length
  match mine.getLast? with
  | some e =>
    if e.2.1.length < x.chunkSize (n - 1) then
      let k := x.chunkSize (n - 1) - e.2.1.length
      if flitFix f ≠ e.2.1.length / 256 then .refused
      else
        let e' := (e.1, e.2.1 ++ d.1.take k, e.2.2.1 ++ d.2.take k, e.2.2.2)
        let at_ := x.taken.length - 1 - (x.taken.reverse.findIdx (fun z => z.1 = f.source))
        .took { x with taken := modifyAt at_ (fun _ => e') x.taken }
    else new x n d
  | none => new x 0 d
where
  /-- A new chunk of the sender. -/
  new (x : SrdStep) (n : Nat) (d : List Byte × List Bool) : Taken :=
    match f.ext with
    | some e =>
      if flitFix f ≠ 0 then .refused
      else if n % max x.chunkCount 1 = 0 && x.need ≤ x.started then .later
      else .took { x with taken := x.taken ++ [(f.source, d.1.take (x.chunkSize n), d.2.take (x.chunkSize n), e.extractLsb' 0 64)] }
    | none => .refused

/-- Whether a step has all its input. -/
def SrdStep.hasInput (x : SrdStep) : Bool :=
  !x.fromPort || (x.taken.length = x.need * x.chunkCount &&
    (x.taken.map (fun e => e.2.1.length)).foldl (fun a b => a + b) 0 = x.need * x.inLen)

/-- The stack, channel and sequence of a collective flit. -/
def flitTag (f : Flit) : Nat × Nat × Nat := (flitField f 12 8, flitField f 20 8, flitField f 28 24)

/-- Whether a flit carries a step's tag. -/
def SrdStep.tagged (x : SrdStep) (f : Flit) : Bool := flitKind f = 1 && flitTag f = (x.stack, x.chan, x.seq)

/-- Removes a flit from its port's queue. -/
def unqueue (k : Nat) (r : Received) : Act := modPort k (fun p => { p with queues := p.queues.erase r })

/-- Removes the flits of one transfer from every queue: those of one sender and tag. -/
def unqueueTransfer (f : Flit) : Act :=
  .chip (fun h => { h with ports := h.ports.map (fun e => (e.1, { e.2 with
    queues := e.2.queues.filter (fun r => !(flitKind r.flit = 1 && r.flit.source = f.source && flitTag r.flit = flitTag f)) })) })

/-- A refused flit (R326): the collective-order fault to the issuer of the step concerned, within 16 cycles; the flit and the rest of
its transfer, queued or still to come, are discarded, and every queued step of its channel is dropped. -/
def refuseFlit (s : State) (x : SrdStep) (r : Received) : List Act :=
  let t := flitTag r.flit
  let p : Pending := { code := 0x33, slot := x.slot, faddr := x.addr, addr := x.dst, info := x.seq + 2 ^ 24 * t.2.2 + 2 ^ 48 * x.chan
                       notBefore := s.cyc + s.choice 0 % 17 }
  let here : List Act :=
    if 64 ≤ (s.seqOf x.q).events.length + (s.seqOf x.q).orderFaults.length then doubleFault s (x.q / 4)
    else [.seq x.q (fun z => { z with orderFaults := z.orderFaults ++ [p] })]
  [unqueueTransfer r.flit, modSrd x.stack (fun l => l.filter (fun y => y.chan ≠ x.chan)),
   .chip (fun h => { h with refused := h.refused ++ [(r.flit.source, 256 * t.1 + t.2.1, t.2.2)] })] ++
    reachSeq s x.q x.launch here (fun z => { z with orderFaults := z.orderFaults ++ [p] })

/-- Once a begun step has its input, the cycle of its completion is chosen. -/
def SrdStep.settle (x : SrdStep) (t : Nat) : SrdStep := if x.begun && x.ready.isNone && x.hasInput then { x with ready := some t } else x

/-- The flits in the receive queues with their ports: in the order they came, those of one cycle by port (R322, R323). -/
def queuedInOrder (s : State) : List (Nat × Received) :=
  sortBy (fun e => 32 * e.2.at_ + e.1) (s.chip.ports.flatMap (fun e => e.2.queues.map (fun r => (e.1, r))))

/-- The begun step of a stack takes the flits of its tag from the queues, in the order they came (R322, R323). fuel bounds the flits. -/
def takeInput (k : Nat) : Nat → State → List Act
  | 0, _ => []
  | fuel + 1, s =>
    match s.chip.srd k with
    | x :: _ =>
      let wanted := fun (r : Received) => x.tagged r.flit && (match x.take r.flit with | .later => false | _ => true)
      match (if x.begun && x.ready.isNone then (queuedInOrder s).find? (fun e => wanted e.2) else none) with
      | none => []
      | some (p, r) =>
        match x.take r.flit with
        | .took y =>
          let l : List Act := [unqueue p r, modSrd k (modifyAt 0 (fun _ => y.settle (s.cyc + 1 + s.choice 1)))]
          l ++ takeInput k fuel (applyActs l s)
        | .later => []
        | .refused => refuseFlit s x r
    | [] => []

/-- Flits that wait in the module's receive queues. -/
def queuedFlits (s : State) : Nat := (s.chip.ports.map (fun e => e.2.queues.length)).foldl (fun a b => a + b) 0

/-- COLLECTIVE_FLIT_ARRIVAL: an arrival under another SEQ than the expected one, or for an ordered step from another module than IMOD, is
refused; one that the begun step wants is taken; any other waits. -/
def collectiveActs (s : State) (k : Nat) (f : Flit) : List Act :=
  let t := flitTag f
  match (s.chip.port k).queues.find? (fun r => r.flit = f) with
  | none => []
  | some r =>
    if s.chip.refused.contains (f.source, 256 * t.1 + t.2.1, t.2.2) then [unqueue k r]
    else
      match (s.chip.srd t.1).find? (fun x => x.chan = t.2.1) with
      | none => []
      | some x =>
        if x.seq ≠ t.2.2 || (x.ordered && f.source / 1024 ≠ chtField x.entry 28 10) then refuseFlit s x r
        else takeInput t.1 (queuedFlits s) s

def execCollectiveFlitArrival (port : Nat) (flit : Flit) (s : State) : Host.Outcome State Fault Refusal :=
  done (collectiveActs s port flit ++ [bump]) s

/-- A collective flit of a lane that has waited 1,024 cycles without its tag at the head of its stack's queue (R326). -/
def waitedFlit (s : State) (k lane : Nat) : Option Received :=
  (s.chip.port k).queues.find? (fun r => r.lane = lane && flitKind r.flit = 1 && r.at_ + 1024 ≤ s.cyc &&
    !(match s.chip.srd (flitTag r.flit).1 with | x :: _ => x.begun && x.tagged r.flit | [] => false))

/-- COLLECTIVE_WAIT_TIMEOUT: the flit is refused; with no step of its channel there is nobody to tell. -/
def waitedActs (s : State) (k lane : Nat) : List Act :=
  match waitedFlit s k lane with
  | none => []
  | some r =>
    let t := flitTag r.flit
    match (s.chip.srd t.1).find? (fun x => x.chan = t.2.1) with
    | some x => refuseFlit s x r
    | none => [unqueueTransfer r.flit, .chip (fun h => { h with refused := h.refused ++ [(r.flit.source, 256 * t.1 + t.2.1, t.2.2)] })]

def execCollectiveWaitTimeout (port lane : Nat) (s : State) : Host.Outcome State Fault Refusal := done (waitedActs s port lane ++ [bump]) s

/-! Begin (R320). -/

/-- Whether the oldest step of a stack may begin. -/
def beginDue (s : State) (k : Nat) : Bool :=
  match s.chip.srd k with
  | x :: _ => !x.begun && !s.chip.fatal && !resetting s x.fn
  | [] => false

/-- SRD_STEP_BEGIN: every earlier step has completed; flits that wait for the step are taken. -/
def beginActs (s : State) (k : Nat) : List Act :=
  if beginDue s k then
    let l : List Act := [modSrd k (modifyAt 0 (fun x => ({ x with begun := true }).settle (s.cyc + 1 + s.choice 1)))]
    l ++ takeInput k (queuedFlits s) (applyActs l s)
  else []

def execSrdStepBegin (stack : Nat) (s : State) : Host.Outcome State Fault Refusal := done (beginActs s stack ++ [bump]) s

/-! Effects (R322, R325). -/

/-- Bytes with their poison. -/
abbrev Data := List Byte × List Bool

/-- The bytes of an element of a step. -/
def stepSize (step : Nat) : Nat := if step = 0 then 32 else if step = 5 || step = 6 then 16 else 4

/-- One element of in and one of the other operand combined; results round RNE, NaN results are the default NaN. -/
def combineElement (step a b : Nat) : Nat :=
  let t := fun (v : Nat) => (⟨v % 2 ^ 32, v / 2 ^ 32 % 2 ^ 32, v / 2 ^ 64 % 2 ^ 32⟩ : Triple)
  let u := fun (r : Triple) => r.w + 2 ^ 32 * r.mean + 2 ^ 64 * r.m2
  match step with
  | 0 => packXa ((unpackXa a).add (unpackXa b))
  | 3 => (fminmax fp32 true a b).bits
  | 4 => (fminmax fp32 false a b).bits
  | 5 => u (Triple.merge (t a) (t b)).t
  | 6 => u (Triple.merge (t b) (t a)).t
  | _ => (fadd fp32 .rne a b).bits

/-- Two runs of elements combined; a poisoned unit poisons the elements it reaches. -/
def combineData (step : Nat) (a b : Data) : Data :=
  let z := stepSize step
  let es := (List.range (b.1.length / z)).map fun i =>
    let p := ((a.2.drop (z * i)).take z).any (fun x => x) || ((b.2.drop (z * i)).take z).any (fun x => x)
    (p, if p then 0 else combineElement step (leValue ((a.1.drop (z * i)).take z)) (leValue ((b.1.drop (z * i)).take z)))
  (es.flatMap (fun e => leBytes z e.2), es.flatMap (fun e => List.replicate z e.1))

/-- The identity that a step with SRCA = 0 starts from. -/
def stepIdentity (step n : Nat) : Data :=
  let v := if step = 3 then 0xFF800000 else if step = 4 then 0x7F800000 else 0
  ((List.range (n / 4)).flatMap (fun _ => leBytes 4 v), List.replicate n false)

/-- The F32 patterns and poison of a run of bytes. -/
def f32s (d : Data) : List (Nat × Bool) :=
  (List.range (d.1.length / 4)).map (fun i => (leValue ((d.1.drop (4 * i)).take 4), ((d.2.drop (4 * i)).take 4).any (fun x => x)))

/-- F32 patterns as bytes. -/
def f32Bytes (l : List (Nat × Bool)) : Data :=
  (l.flatMap (fun e => leBytes 4 (if e.2 then 0 else e.1)), l.flatMap (fun e => List.replicate 4 e.2))

/-- G = 1.0 of the wire format (R325). -/
def wireScale : Nat := 0x3F80

/-- Wire bytes decoded (R325): per 1,024 elements 512 bytes of planes, then 32 exponents. -/
def wireDecode (d : Data) : Data :=
  f32Bytes ((List.range (d.1.length / 544)).flatMap fun g =>
    (List.range 32).flatMap fun k =>
      let planes := (d.1.drop (544 * g + 16 * k)).take 16
      let p := ((d.2.drop (544 * g + 16 * k)).take 16).any (fun x => x) || d.2.getD (544 * g + 512 + k) false
      (List.range 32).map (fun e =>
        ((bxToF32 .rne 4 (bxMantissa 4 planes e) (d.1.getD (544 * g + 512 + k) 0).toNat wireScale).bits, p)))

/-- An output compressed with its error feedback: the wire bytes and the new feedback buffer (R325). -/
def wireEncode (out efb : Data) : Data × Data :=
  let ys := ((f32s out).zip (f32s efb)).map (fun e => ((fadd fp32 .rne e.1.1 e.2.1).bits, e.1.2 || e.2.2))
  let qs := (chunks 32 (ys.length / 32) ys).map (fun b =>
    let p := b.any (fun y => y.2)
    let q := quantise 4 (b.map (fun y => if p then 0 else y.1)) wireScale
    (b, p, q.1, q.2.1))
  let back := qs.flatMap (fun r => r.1.mapIdx (fun e y =>
    ((fsub fp32 .rne y.1 (bxToF32 .rne 4 (r.2.2.2.getD e 0) r.2.2.1 wireScale).bits).bits, r.2.1)))
  let groups := chunks 32 (qs.length / 32) qs
  ((groups.flatMap (fun g => g.flatMap (fun r => bxPlanes 4 r.2.2.2) ++ g.map (fun r => BitVec.ofNat 8 r.2.2.1)),
    groups.flatMap (fun g => g.flatMap (fun r => List.replicate 16 r.2.1) ++ List.replicate 32 false)), f32Bytes back)

/-- A step's port inputs: of each chunk of an input the ones that came, in the order they came. -/
def SrdStep.inputs (x : SrdStep) (chunk : Nat) : List Data :=
  ((x.taken.mapIdx (fun i e => (i, e))).filter (fun e =>
    ((x.taken.take e.1).filter (fun z => z.1 = e.2.1)).length % max x.chunkCount 1 = chunk)).map (fun e => (e.2.2.1, e.2.2.2.1))

/-- Whether SRCA = 0 starts a step from its identity: steps 0, 2, 3, 4 and 6; for steps 1 and 5 it is an address (R322). -/
def SrdStep.fromIdentity (x : SrdStep) : Bool := x.step = 0 || x.step = 2 || x.step = 3 || x.step = 4 || x.step = 6

/-- A run of bytes of device memory as the reducer reads it: what does not translate reads poisoned, with the fault. -/
def srdRead (s : State) (x : SrdStep) (va n : Nat) : Data × Option (Nat × Nat) :=
  match readDevice s (x.q / 4) x.fn va n (s.choice 2) with
  | .ok r => (r, none)
  | .error e => ((List.replicate n 0, List.replicate n true), some e)

/-- The runs of device memory that a step reads, address and bytes: its sources (R320). -/
def SrdStep.reads (x : SrdStep) : List (Nat × Nat) :=
  (if x.step = 8 || (x.srca = 0 && (x.fromIdentity || x.step = 7)) then [] else [(x.srca, x.len)]) ++
    (if x.srcb = 0 then [] else [(x.srcb, if x.step = 8 then wireBytes x.len else x.len)])

/-- The run that it writes. -/
def SrdStep.writes (x : SrdStep) : List (Nat × Nat) := if x.step = 7 && x.dst = 0 then [] else [(x.dst, x.len)]

/-- Whether no page of what a step reads and writes needs a walk any more (R243; log 84). -/
def SrdStep.mapped (s : State) (x : SrdStep) : Bool :=
  x.reads.all (fun r => Machine.mapped s (x.q / 4) x.fn r.1 r.2 false) && x.writes.all (fun r => Machine.mapped s (x.q / 4) x.fn r.1 r.2 true)

/-- The ECC checks of what a step reads: its sources and, in wire form, the error-feedback buffer (R254, R359, R364). -/
def srdChecks (s : State) (x : SrdStep) : List Act :=
  let c := x.q / 4
  x.reads.flatMap (fun r => deviceChecks s c x.fn r.1 r.2 (s.choice 2)) ++
    (if x.wire && x.sends then eccChecks s [(.spd c, chtField x.entry 96 32 % Config.spdBytes, x.len)] x.fn else [])

/-- The i-th of a step's inputs: of each chunk, the i-th that came (R322). -/
def SrdStep.nth (x : SrdStep) (i : Nat) : Data :=
  (List.range x.chunkCount).foldl (fun d k => match (x.inputs k)[i]? with | some e => (d.1 ++ e.1, d.2 ++ e.2) | none => d) ([], [])

/-- The result of a step, with the faults of its reads. -/
def SrdStep.result (s : State) (x : SrdStep) : Data × List (Nat × Nat) :=
  let a : Data × Option (Nat × Nat) :=
    if x.srca = 0 && x.fromIdentity then (stepIdentity x.step x.len, none)
    else if x.step = 8 || (x.step = 7 && x.srca = 0) then (([], []), none)
    else srdRead s x x.srca x.len
  let decode := fun (d : Data) => if x.step = 8 || (x.wire && x.fromPort) then wireDecode d else d
  let b : Data × Option (Nat × Nat) := if x.srcb = 0 then (([], []), none) else srdRead s x x.srcb (if x.step = 8 then wireBytes x.len else x.len)
  let faults := a.2.toList ++ b.2.toList
  let one := decode (if x.srcb = 0 then x.nth 0 else b.1)
  let out : Data :=
    if x.step = 7 then (if x.srca = 0 then one else a.1)
    else if x.step = 8 then one
    else if x.srcb ≠ 0 then combineData x.step one a.1
    else (List.range x.need).foldl (fun d i => combineData x.step (decode (x.nth i)) d) a.1
  (out, faults)

/-- The signature that comes with a step's input (R323). -/
def SrdStep.sigIn (x : SrdStep) : Word := if x.fromPort then (match x.taken with | e :: _ => e.2.2.2 | [] => 0) else 0

/-- The signature a step sends: an ordered step folds its position in; forwarding and decoding carry it unchanged (R323). -/
def SrdStep.sig (modId : Nat) (x : SrdStep) : Word :=
  if x.ordered then (x.sigIn + BitVec.ofNat 64 (modId * 2 ^ 20 + x.stack * 2 ^ 12 + x.member)) * Config.golden
  else if 7 ≤ x.step then x.sigIn else 0

/-- A step's output as transfer chunks toward OMOD (R320, R321). -/
def SrdStep.flits (modId : Nat) (x : SrdStep) (d : Data) : List Flit :=
  let stack := chtField x.entry 38 4
  let ext := BitVec.ofNat 128 ((x.sig modId).toNat + 2 ^ 64 * x.member + (if x.wire then 2 ^ 76 else 0))
  (List.range ((d.1.length + 2047) / 2048)).flatMap (fun k =>
    flitsOf x.fn (1024 * modId + x.stack) (chtModule x.entry) (stack / 3) stack x.chan x.seq 1 (chtLane x.entry) (some ext)
      ((d.1.drop (2048 * k)).take 2048) ((d.2.drop (2048 * k)).take 2048))

/-- Output for a stack of this module reaches it without a port (log 34). -/
def ownPort : Nat := 24

/-- The deferred faults of a step's accesses, to its issuer. -/
def srdFaults (s : State) (x : SrdStep) (code : Nat) (l : List (Nat × Nat)) : List Act :=
  l.flatMap (fun e =>
    let p : Pending := { code := code, slot := x.slot, sub := e.1, faddr := x.addr, addr := e.2 }
    reachSeq s x.q x.launch (pushEvent s x.q p) (fun z => { z with events := z.events ++ [p] }))

/-- Whether flits of a name are still held for a route. -/
def Chip.holdsFlits (h : Chip) (id : Nat) : Bool := h.routeHold.any (fun e => e.2.any (fun f => f.2 = id))

/-- Whether a stack's begun step goes on now: its output is written and sent, once its pages have been walked and unless its DST is under a
migration (R243, R246); then, with all its flits at their egress port, it completes (R320). -/
def stepDue (s : State) (k : Nat) : Option SrdStep :=
  match s.chip.srd k with
  | x :: _ =>
    match x.ready, x.out with
    | some t, none => if t ≤ s.cyc && x.begun && x.mapped s && !((x.step ≠ 7 || x.dst ≠ 0) && heldWrite s x.fn x.dst x.len) then some x else none
    | _, some id => if s.chip.holdsFlits id then none else some x
    | none, none => none
  | [] => none

/-- A step's completion (R320, R323, R324): the signature register and the barrier follow. -/
def stepEnds (s : State) (k : Nat) (x : SrdStep) : List Act :=
  (if x.ordered then [.chip (fun h => { h with sigs := SMap.set 0 h.sigs (256 * x.stack + x.chan) (x.sig s.chip.modId) })] else []) ++
    [modSrd k (fun q => q.drop 1)] ++
    (if x.bar ≠ 0 && windowOf x.bar = 2 && syncValid s x.fn x.bar 16 && !resetting s x.fn then [sendAddition s x.q x.fn x.launch x.slot x.addr x.bar x.len]
     else [])

/-- SRD_STEP_COMPLETE: DST and the feedback buffer are written and the output goes to its port; the step completes with that, or, where flits
are held for a route, once they have gone. -/
def stepActs (s : State) (k : Nat) : List Act :=
  match stepDue s k with
  | none => []
  | some x =>
    if x.out.isSome then stepEnds s k x
    else
    let r := x.result s
    let c := x.q / 4
    let efb := chtField x.entry 96 32 % Config.spdBytes
    let writes := x.step ≠ 7 || x.dst ≠ 0
    let w : List Act × List (Nat × Nat) :=
      if writes then (match writeDevice s c x.fn x.dst (s.choice 3) r.1.1 r.1.2 with | .ok l => (l, []) | .error e => ([], [e])) else ([], [])
    let enc := wireEncode r.1 (engineBytes s c efb x.len)
    let sent : Data := if x.wire then enc.1 else r.1
    let fs := x.flits s.chip.modId sent
    let send : List Act :=
      if !x.sends then []
      else
        (if x.wire then [noteWrite engineRank (.spd c) efb x.len, .write (.spd c) efb enc.2.1 enc.2.2] else []) ++
        (if chtModule x.entry = s.chip.modId then fs.flatMap (fun f => queueFlit s ownPort f ++ [later s (.collectiveFlitArrival ownPort f)])
         else [.chip (fun h => { h.send (chtModule x.entry) (fs.map (fun f => (f, h.nextElem))) with nextElem := h.nextElem + 1 })])
    let l := srdChecks s x ++ w.1 ++ srdFaults s x 0x20 r.2 ++ srdFaults s x 0x21 w.2 ++ send
    l ++
      (if (applyActs l s).chip.holdsFlits s.chip.nextElem then [modSrd k (modifyAt 0 (fun y => { y with out := some s.chip.nextElem }))]
       else stepEnds s k x)

def execSrdStepComplete (stack : Nat) (s : State) : Host.Outcome State Fault Refusal := done (stepActs s stack ++ [bump]) s

end Sys2Proof.Machine
end

