-- ==== Sys2Proof/Machine/Resets.lean ====
section
/-! DEFINITION. Resets: of a virtual function (18 R351 to R357, 19 R370), of the module, power and bring-up (18 R351, 19 R362, R373, R377),
and the core fatal fault (19 R363). -/

namespace Sys2Proof.Machine

/-! Function-level reset (R352 to R354). -/

/-- Changes the reset status of a VF. -/
def modVfr (v : Nat) (f : VfReset → VfReset) : Act := .chip (fun h => { h with vfr := SMap.set {} h.vfr v (f (h.vfReset v)) })

/-- A read of an engine of function v, due at cycle t, whose data are dropped: of its parts the first stands for all (R353). -/
def droppedRead (v q t va n : Nat) (l : List PagePart) : Access :=
  { id := 0, q := q, fn := v, launch := none, slot := 0, addr := 0, kind := .load, va := (l.head?.map PagePart.va).getD va, size := n, issue := t, at_ := t
    bound := t, trans := (l.head?.map PagePart.trans).getD .none, engine := true, lost := true }

/-- The outstanding reads of function v's engines: chunks of copies and rows of tiles. -/
def engineReads (s : State) (v : Nat) : List Access :=
  (s.work.copies.filter (fun y => y.fn = v)).flatMap (fun y =>
    (y.chunks.filter (fun k => !k.read)).map (fun k => droppedRead v y.q k.at_ y.src (min k.n 8) k.src)) ++
  s.work.agenda.filterMap (fun e =>
    match e.2 with
    | .tileRowArrival c h row =>
      let st := SMap.get {} s.staging (32 * (64 * c + h) + row)
      if s.fnOf c = v && !st.present && !st.bad then some (droppedRead v (4 * c) e.1 st.va 8 st.parts) else none
    | _ => none)

/-- Whether an access is a write that counts in NDISC when it never performs (R356). -/
def AccessKind.writes : AccessKind → Bool
  | .store | .atomic _ _ _ _ _ | .rowAdd | .drainRow _ _ | .barInit _ | .treeInit _ | .record _ => true
  | _ => false

/-- A chip whose fabric no longer holds what a function has sent and what has not left: its elements, begun or not, and its collective flits, those
that a replay under way would send again too; with all, its journal records too, and flits that nobody has acknowledged lose their tag (R353; log 90). -/
def Chip.dropSent (h : Chip) (v : Nat) (all : Bool) : Chip :=
  let gone := fun (f : Flit) => flitOf h v f && (all || flitKind f ≠ 2)
  { h with
    elements := h.elements.filter (fun x => x.fn ≠ v)
    ports := h.ports.map (fun e => (e.1, { e.2.purge (e.2.resend.getD e.2.retry.length) gone with
      waiting := e.2.waiting.filter (fun f => !gone f.1)
      queues := e.2.queues.filter (fun r => !(e.1 = ownPort && gone r.flit)) }))
    routeHold := h.routeHold.map (fun e => (e.1, e.2.filter (fun f => !gone f.1))) }

/-- A chip whose retry buffers hold a function's flits without its tag. -/
def Chip.untag (h : Chip) (v : Nat) : Chip :=
  { h with ports := h.ports.map (fun e => (e.1, { e.2 with
      retry := e.2.retry.map (fun f => if flitOf h v f.2.1 then (f.1, { f.2.1 with fn := noFunction }, f.2.2) else f) })) }

/-- Whether a begun step of a stack reducer still has its result to write. -/
def SrdStep.writing (x : SrdStep) : Bool := x.begun && x.out.isNone && (x.step ≠ 7 || x.dst ≠ 0)

/-- The fence and what it settles at once (R352 step 1, R353): the cores stop; commands, copies, steps and launches of the function
are gone; a write that has not performed never does; reads go on, their data to be dropped. -/
def fenceActs (s : State) (v : Nat) : List Act :=
  let cores := coresOf s v
  let mine := fun (q : Nat) => cores.contains (q / 4)
  let lost := (s.work.accesses.filter (fun a => a.fn = v && a.kind.writes && !a.performed)).length +
    (s.chip.srds.flatMap (fun e => e.2.filter (fun x => x.fn = v && x.writing))).length + (s.chip.hostHeld.filter (fun w => w.1 = v)).length
  cores.flatMap (fun c =>
    (List.range 4).map (fun i => Act.seq (4 * c + i) (fun _ => {})) ++
    [.core c (fun y => { y with queues := y.queues.map Queue.freed, owner := none, switching := none, idleUntil := none })] ++
    dropTiles c :: (List.range 8).map (fun n => Act.forget (saveKey c n))) ++
  [.work (fun w => { w with
      flights := w.flights.filter (fun f => !mine f.q), flagPosts := w.flagPosts.filter (fun p => !mine p.q)
      commands := w.commands.filter (fun y => y.fn ≠ v), copies := w.copies.filter (fun y => y.fn ≠ v)
      accesses := (w.accesses.filter (fun a => a.fn ≠ v || a.kind = .load)).map (fun a =>
        if a.fn = v then { a with flight := none, pass := none, lost := true } else a) ++
          (engineReads s v).mapIdx (fun i a => { a with id := w.nextId + i })
      nextId := w.nextId + (engineReads s v).length
      unreleased := w.unreleased.filter (fun u => !(cores.contains u.core)), launches := w.launches.filter (fun l => l.fn ≠ v) }),
   .chip (fun h => { (h.dropSent v false) with
      hostHeld := h.hostHeld.filter (fun w => w.1 ≠ v), emits := h.emits.map (fun e => if e.fn = v then e.discarded else e), srds := h.srds.map (fun e => (e.1, e.2.filter (fun x => x.fn ≠ v)))
      quiesces := h.quiesces.filter (fun z => z.fn ≠ v) }),
   modVfr v (fun _ => { busy := true, step := 2, start := s.cyc, ndisc := min lost 0xFFFF })]

/-- The reset begins at F: writes of the function that reach their home in cycle F perform (R357), then the fence. -/
def flrActs (s : State) (v : Nat) : List Act :=
  let l := bringForward (s.work.accesses.length + 1)
    ((s.work.accesses.filter (fun a => a.fn = v && !a.performed && a.kind.writes && a.at_ ≤ s.cyc && !a.trans.isOpen)).map (fun a => a.id)) s
  l ++ fenceActs (applyActs l s) v

/-- Whether an FLR write of a VF begins a reset. -/
def flrBegins (s : State) (v : Nat) : Bool := 1 ≤ v && v ≤ 16 && !(s.chip.vfReset v).busy && !s.chip.fatal && !s.chip.halted && s.chip.lantern.powered

/-- VF_FLR: a second write while the reset runs is ignored. -/
def execVfFlr (vf : Nat) (s : State) : Host.Outcome State Fault Refusal := done ((if flrBegins s vf then flrActs s vf else []) ++ [bump]) s

/-- Whether nothing tagged with a VF remains in flight: no access, no walk, no flit still to leave or to be acknowledged. -/
def drained (s : State) (v : Nat) : Bool :=
  !(s.work.accesses.any (fun a => a.fn = v)) && !(s.work.walks.any (fun w => w.fn = v)) &&
    !(s.chip.ports.any (fun e => e.2.waiting.any (fun f => flitOf s.chip v f.1) || e.2.retry.any (fun f => flitOf s.chip v f.2.1))) && !(s.chip.routeHold.any (fun e => e.2.any (fun f => flitOf s.chip v f.1)))

/-- Whether the drain ends: nothing remains, or half of the reset's 100 µs have passed, when the reads that remain complete at their homes and the
writes never perform (R351, R353; log 65). -/
def drainDone (s : State) (v : Nat) : Bool :=
  let r := s.chip.vfReset v
  r.busy && r.step = 2 && r.start < s.cyc && (drained s v || r.start + 50000 ≤ s.cyc) && !s.chip.fatal

/-- FLR_DRAIN_COMPLETE: the scrub begins; the reset is to end within 100 µs of F. -/
def drainDoneActs (s : State) (v : Nat) : List Act :=
  if drainDone s v then
    bringForward (s.work.accesses.length + 1)
      ((s.work.accesses.filter (fun a => a.fn = v && !a.performed && a.kind = .load && !a.trans.isOpen)).map (fun a => a.id)) s ++
    [.work (fun w => { w with accesses := w.accesses.filter (fun a => a.fn ≠ v), walks := w.walks.filter (fun w => w.fn ≠ v) }),
     .chip (fun h => (h.dropSent v true).untag v),
     modVfr v (fun r =>
      let u := s.cyc + 1 + s.choice 0 % max 1 (r.start + 100000 - s.cyc)
      { r with step := 3, until_ := u, four := s.cyc + 1 + s.choice 1 % (u - s.cyc) })]
  else []

def execFlrDrainComplete (vf : Nat) (s : State) : Host.Outcome State Fault Refusal := done (drainDoneActs s vf ++ [bump]) s

/-- The granules that a function owns, by die and number. -/
def ownedGranules (s : State) (v : Nat) : List (Nat × Nat) :=
  (List.range Config.dies).flatMap (fun d => (granulesOf s v d true ++ granulesOf s v d false).map (fun g => (d, g)))

/-- The core scrub (R354). -/
def scrubCore (c : Nat) : List Act :=
  .clearCore c :: (List.range 4).flatMap (fun i => [Act.clearSeq (4 * c + i), .seq (4 * c + i) (fun _ => {})]) ++
    [.core c (fun y => { (({} : Core)) with
      mapFn := y.mapFn, fenced := y.fenced, outOfService := y.outOfService, queues := y.queues, sliceStart := y.sliceStart, slice := y.slice
      nextSlice := y.nextSlice, pendRanks := y.pendRanks, stretched := y.stretched })]

/-- The module state of a function cleared (R352 step 4), with its MSI-X table (R351; log 12). -/
def scrubModule (s : State) (v : Nat) : List Act :=
  let gs := ownedGranules s v
  gs.map (fun g => let p := granulePlace s g.1 g.2; Act.wipe p.1 p.2 Config.granule) ++
  [.chip (fun h =>
    let entries := (h.ranges.filter (fun e => rangeField e.2 4 5 = v)).map (fun e => e.1)
    { (h.dropTlb v 0 (2 ^ 64)) with
      ranges := h.ranges.filter (fun e => !entries.contains e.1), moving := h.moving.filter (fun m => !entries.contains m.1)
      roots := SMap.set 0 h.roots v 0, rings := SMap.set {} h.rings v {}
      msixTable := h.msixTable.filter (fun e => e.1 / 256 ≠ v), msixPending := h.msixPending.filter (fun e => e.1 ≠ v)
      trees := h.trees.filter (fun t => !gs.contains (t.1 / 2 ^ 40, t.1 % 2 ^ 40 / Config.granule)) })]

def scrubDone (s : State) (v : Nat) : Bool :=
  let r := s.chip.vfReset v
  r.busy && r.step = 3 && r.until_ ≤ s.cyc && !s.chip.fatal

/-- FLR_SCRUB_COMPLETE: cores and module state of the function are at their reset values, and the reset is done. -/
def scrubActs (s : State) (v : Nat) : List Act :=
  if scrubDone s v then (coresOf s v).flatMap scrubCore ++ scrubModule s v ++ [modVfr v (fun r => { r with busy := false, step := 5 })] else []

def execFlrScrubComplete (vf : Nat) (s : State) : Host.Outcome State Fault Refusal := done (scrubActs s vf ++ [bump]) s

/-- Whether Lantern resets a VF of which class 2 events have ended launches: its other launches are done or ended (R370). -/
def containDue (s : State) (v : Nat) : Bool :=
  let ended := (s.chip.vfReset v).contain
  !ended.isEmpty && flrBegins s v && s.work.launches.all (fun l => l.fn ≠ v || l.remaining.isEmpty || ended.contains l.id)

def execContainmentFlr (vf : Nat) (s : State) : Host.Outcome State Fault Refusal := done ((if containDue s vf then flrActs s vf else []) ++ [bump]) s

/-! The core map (R7, R363). -/

/-- Physical cores of a die; a core that no good one is left for is given this number. -/
def physicalCores : Nat := 272

/-- The physical core that a logical core lies on, counted within its die (R7). -/
def Lantern.physical (l : Lantern) (c : Nat) : Nat := ((l.coreMap.find? (fun e => e.1 = c)).map (fun e => e.2)).getD (c % 256)

/-- The map that Lantern makes at module initialisation: the logical cores of a die in order on its good physical cores in order (R7; log 80). -/
def Lantern.mapCores (l : Lantern) : Lantern :=
  if l.badCores.isEmpty then { l with coreMap := [] }
  else
    { l with coreMap := (List.range Config.dies).flatMap (fun d =>
        let good := (List.range physicalCores).filter (fun p => !l.badCores.contains (physicalCores * d + p))
        ((List.range 256).map (fun c => (256 * d + c, good.getD c physicalCores))).filter (fun e => e.2 ≠ e.1 % 256)) }

/-- After the map is made: a logical core without a good physical core is out of service. -/
def absentCores (l : Lantern) : List Act :=
  (l.coreMap.filter (fun e => e.2 = physicalCores)).map (fun e => Act.core e.1 (fun y => { y with outOfService := true }))

/-! Core fatal fault (R363). -/

/-- CORE_FATAL_FAULT: the running launch ends on the core with DOUBLE_FAULT and event 0x16, INFO bit 0 set; the scratchpad is fenced; the
core is out of service until a module reset, at which Lantern takes it out of the map (R7). -/
def fatalFaultActs (s : State) (c : Nat) : List Act :=
  (match (s.coreOf c).owner with
   | some n => endLaunch s c n 0x09 0x16 1
   | none => stopCore c ++ [post s 0x16 (s.fnOf c) c 0 1]) ++
    [.core c (fun y => { y with fenced := true, outOfService := true, switching := none }),
     modLantern (fun l => { l with badCores := l.badCores ++ [physicalCores * (c / 256) + l.physical c] })]

def execCoreFatalFault (core : Nat) (s : State) : Host.Outcome State Fault Refusal := done (fatalFaultActs s core ++ [bump]) s

/-! Module reset, power, bring-up (R351, R373, R377). -/

/-- The check of an image that fails, as INFO of event 0x32: 1 Ed25519, 2 ML-DSA-65, 3 the security version. -/
def imageFailure (l : Lantern) (i : FirmwareImage) : Option Nat :=
  if !i.edOk then some 1 else if !i.mlOk then some 2 else if i.version < l.fuse then some 3 else none

/-- Lantern with the bank active that boots next: the other one once an image is staged there. -/
def Lantern.selected (l : Lantern) : Lantern := if l.staged then { l with active := l.inactive, inactive := l.active, staged := false } else l

/-- Lantern's banks after a reset: the bank that boots is verified; a healthy boot advances the fuse counter, a failed one leaves the other bank to
be booted at the next reset (R373, R377). A bank without an image holds the one of manufacture. -/
def Lantern.reboot (l : Lantern) : Lantern :=
  let l := l.selected
  match l.active with
  | some i => if i.boots && (imageFailure l i).isNone then { l with fuse := min 64 (max l.fuse i.version) } else { l with staged := true }
  | none => l

/-- What a boot posts: a bank that fails its verification, or the activation of a staged one (R360, R373). -/
def bootNews (s : State) : List Act :=
  match (s.chip.lantern.selected.active.bind (imageFailure s.chip.lantern)), s.chip.lantern.staged with
  | some k, _ => [post s 0x32 0 0 0 k]
  | none, true => [post s 0x32 0 0 0 0]
  | none, false => []

/-- Lantern after bring-up, its core self-test having found more bad cores, an open choice, and the core map made without them (R377). -/
def broughtUp (s : State) : Lantern :=
  let l := s.chip.lantern.reboot
  { l with badCores := (l.badCores ++ (List.range (Config.dies * physicalCores)).filter (fun p => s.choice (4000 + p) % 2 = 1)).eraseDups }.mapCores

/-- When the PF answers configuration requests, at the latest 2 s after cycle t (R377). -/
def linkUpAt (s : State) (t : Nat) : Nat := t + 1 + s.choice 3 % 2000000000

/-- The chip after a module reset: what Lantern, its flash and the stacks keep. -/
def Chip.afterReset (h : Chip) : Chip :=
  { modId := h.modId, log := h.log, flash := h.flash, lantern := h.lantern.reboot.mapCores
    hbmStacks := h.hbmStacks.map (fun e => (e.1, { good := e.2.good })) }

/-- The work after a module reset: what is still to come from outside, and the counters of free choices and names. -/
def Work.afterReset (w : Work) : Work :=
  { agenda := w.agenda.filter (fun e => match e.2 with | .channelElementArrival _ | .collectiveFlitArrival _ _ | .tileRowArrival _ _ _ => false | _ => true)
    free := w.free, nextId := w.nextId }

/-- MODULE_RESET: an FLR of the PF; every register holds its reset value, device and host memory stay. -/
def moduleResetActs (s : State) : List Act :=
  if !s.chip.lantern.powered then []
  else
    bootNews s ++ [.unload, .work Work.afterReset, .chip Chip.afterReset, .phase .reads, .cursor 0 0] ++ absentCores s.chip.lantern.mapCores

def execModuleReset (s : State) : Host.Outcome State Fault Refusal := done (moduleResetActs s ++ [bump]) s

/-- Everything that needs power is lost: the stores, device memory, Lantern's own memory. -/
def losePower : List Act :=
  [.unload, .work Work.afterReset, .wipe .hbm 0 Config.hbmBytes, .phase .reads, .cursor 0 0,
   .chip (fun h => { h.afterReset with log := [], lantern := { h.lantern with powered := false, perst := none, upAt := none, up := false, sensors := [], heat := [], report := [] } })]

/-- POWER_INTERRUPTION: the banks and the fuses stay as they are. -/
def execPowerInterruption (s : State) : Host.Outcome State Fault Refusal :=
  done ((if s.chip.lantern.powered then losePower else []) ++ [bump]) s

/-- POWER_ON: bring-up with the bank that boots, the core self-test and the core map (R377); the PF answers configuration requests at the latest 2 s after
PERST# is deasserted. -/
def execPowerOn (s : State) : Host.Outcome State Fault Refusal :=
  done ((if s.chip.lantern.powered then []
         else [.unload, .phase .reads, .chip (fun h => { h with lantern := { broughtUp s with
                 powered := true, up := false, upAt := if h.lantern.perst.isSome then some (linkUpAt s 0) else none } })] ++ absentCores (broughtUp s) ++
           bootNews s) ++ [bump]) s

/-- PERST_DEASSERTION: the PF answers configuration requests with a retry until the link is up, within 2 s. -/
def execPerstDeassertion (s : State) : Host.Outcome State Fault Refusal :=
  done [modLantern (fun l => { l with perst := some s.cyc, up := false, upAt := if l.powered then some (linkUpAt s s.cyc) else none }), bump] s

end Sys2Proof.Machine
end

