-- ==== Sys2Proof/Machine/HostSide.lean ====
section
/-! DEFINITION. The host link and Lantern: requests and their completions, images, attestation, soft errors (10 R248, 13 R282, 15 R324,
18 R348, R356, 19 R359, R361, R363, R365 to R368, R373 to R377; log 12). -/

namespace Sys2Proof.Machine

/-! Register reads (R367). -/

/-- LAYMAP of a stack (R248). -/
def layMap (y : Stack) : Word :=
  let n := (List.range 16).countP (fun i => y.good.getLsbD i)
  BitVec.ofNat 64 (y.good.toNat + 2 ^ 16 * n + 2 ^ 24 * (4 * n) + (if y.tko then 2 ^ 32 else 0) + 2 ^ 33 * y.src + (if y.rtd then 2 ^ 35 else 0))

/-- VFRSTAT (R356), which keeps its step from a fatal event on (R378). -/
def vfrStat (s : State) (v : Nat) : Word :=
  let r := s.chip.vfReset v
  let step := if s.chip.fatal then r.step else r.stepAt s.cyc
  BitVec.ofNat 64 ((if r.busy then 1 else 0) + 2 * step + 2 ^ 16 * r.ndrop + 2 ^ 32 * r.ndisc)

/-- A ring register (R282), a word of the MSI-X table, or the pending bits. -/
def ringRead (s : State) (fn off : Nat) : Word :=
  let r := s.chip.ring fn
  BitVec.ofNat 64 (match off with
    | 0x00 => r.cmdBase | 0x08 => r.cmdLog | 0x10 => r.cmdTail | 0x18 => r.cmdHead | 0x20 => r.cplBase | 0x28 => r.cplLog
    | 0x30 => r.cplHead | 0x38 => r.cplTail
    | 0x40 => (if r.en then 1 else 0) + (if r.irq then 2 else 0)
    | 0x9000 => packBits ((List.range 64).map (fun k => s.chip.msixPending.contains (fn, k)))
    | _ => if 0x8000 ≤ off && off < msixEnd fn then (s.chip.msixWord fn ((off - 0x8000) / 8)).toNat else 0)

/-- Eight bytes as a word. -/
def byteWord (f : Nat → Nat) : Word := BitVec.ofNat 64 (leValue ((List.range 8).map (fun k => BitVec.ofNat 8 (f k))))

/-- A read of 8 bytes at an offset of PF BAR 0; offsets from 0x200_0000 on stand for PF BAR 2. -/
def registerRead (s : State) (off : Nat) : Word :=
  let h := s.chip
  if 0x2000000 ≤ off then ringRead s 0 (off - 0x2000000)
  else if 0x1000000 ≤ off then
    (if 1 ≤ (off - 0x1000000) / 0x10000 && (off - 0x1000000) / 0x10000 ≤ 16 then ringRead s ((off - 0x1000000) / 0x10000) (off % 0x10000) else 0)
  else if 0x10008 ≤ off && off < 0x10088 then vfrStat s ((off - 0x10000) / 8)
  else if off = 0x20000 then h.duty
  else if off = 0x20008 then BitVec.ofNat 64 (h.cap + 2 ^ 16 * h.meas + 2 ^ 32 * h.idleGrants)
  else if 0x30000 ≤ off && off < 0x30400 then byteWord (fun k => (s.coreOf (off - 0x30000 + k)).mapFn)
  else if 0x40000 ≤ off && off < 0x42000 then byteWord (fun k => SMap.get 0 h.owners (off - 0x40000 + k))
  else if 0x42000 ≤ off && off < 0x42020 then SMap.get 0 h.ovf ((off - 0x42000) / 8)
  else if 0x50000 ≤ off && off < 0x52000 then
    (if (off - 0x50000) / 8 % 4 = 3 then 0 else (SMap.get 0 h.ranges ((off - 0x50000) / 32)).extractLsb' (64 * ((off - 0x50000) / 8 % 4)) 64)
  else if 0x60000 ≤ off && off < 0x60088 then SMap.get 0 h.roots ((off - 0x60000) / 8)
  else if off = 0x60100 then h.invLo
  else if off = 0x60108 then h.invHi
  else if off = 0x60110 then BitVec.ofNat 64 h.invFn
  else if off = 0x60118 then (if h.invDone then 1 else 0)
  else if 0x70000 ≤ off && off < 0x72000 then SMap.get 0 h.routes ((off - 0x70000) / 8)
  else if 0x80000 ≤ off && off < 0x80040 then h.journal.register ((off - 0x80000) / 8)
  else if off = 0x80040 then BitVec.ofNat 64 h.journal.wcom
  else if off = 0x80048 then BitVec.ofNat 64 h.journal.hostedCom
  else if 0x90000 ≤ off && off < 0x90060 then layMap (s.stackAt ((off - 0x90000) / 8))
  else if 0xA0000 ≤ off && off < 0xA6000 then SMap.get 0 h.sigs ((off - 0xA0000) / 0x800 * 256 + (off - 0xA0000) % 0x800 / 8)
  else 0

/-! Configuration space (R351, R352, R361, R365). -/

/-- The configuration word of 8 bytes at an offset (log 12); the BARs are 64-bit and non-prefetchable (R366). -/
def configRead (s : State) (fn off : Nat) : Word :=
  let a := SMap.get {} s.chip.aer fn
  let bar := fun (k : Nat) => if fn = 0 then SMap.get 0 s.chip.bars k ||| 4 else 0
  match off with
  | 0x10 => bar 0
  | 0x18 => bar 1
  | 0x220 => bar 2 <<< 32
  | 0x228 => bar 2 >>> 32
  | 0x78 => if (s.chip.vfReset fn).busy then 0x200000 else 0
  | 0x100 => if a.uncorrectable then 0x40000000000000 else 0
  | 0x108 => if fn = 0 then 0x40000000000000 else 0
  | 0x110 => BitVec.ofNat 64 ((if a.advisory then 2 ^ 13 else 0) + (if a.corrected then 2 ^ 14 else 0))
  | 0x118 => BitVec.ofNat 64 (2 ^ 32 * (a.headerLog.toNat % 2 ^ 32))
  | 0x120 => a.headerLog.extractLsb' 32 64
  | 0x128 => BitVec.ofNat 64 (a.headerLog.toNat / 2 ^ 96)
  | 0x208 => if fn = 0 then BitVec.ofNat 64 ((if s.chip.vfEnable then 1 else 0) + 2 ^ 48 * 16) else 0
  | 0x210 => if fn = 0 then BitVec.ofNat 64 s.chip.numVfs else 0
  | _ => 0

/-- A configuration write: the BARs above their sizes, Initiate FLR, the AER bits (each 1 clears), VF Enable and NumVFs. -/
def configWrite (s : State) (fn off : Nat) (v : Word) : List Act :=
  let aer := fun (f : Aer → Aer) => [Act.chip (fun h => { h with aer := SMap.set {} h.aer fn (f (SMap.get {} h.aer fn)) })]
  let bar := fun (k : Nat) (f : Word → Word) => if fn = 0 then [Act.chip (fun h => { h with bars := SMap.set 0 h.bars k (f (SMap.get 0 h.bars k)) })] else []
  match off with
  | 0x10 => bar 0 (fun _ => v &&& 0xFFFFFFFFFE000000)
  | 0x18 => bar 1 (fun _ => v &&& 0xFFFFFFFFFFFF0000)
  | 0x220 => bar 2 (fun w => (w &&& 0xFFFFFFFF00000000) ||| ((v >>> 32) &&& 0xFFFF0000))
  | 0x228 => bar 2 (fun w => (w &&& 0xFFFFFFFF) ||| (v <<< 32))
  | 0x78 => if v.getLsbD 15 then (if fn = 0 then moduleResetActs s else if flrBegins s fn then flrActs s fn else []) else []
  | 0x100 => if v.getLsbD 54 then aer (fun a => { a with uncorrectable := false }) else []
  | 0x110 => aer (fun a => { a with advisory := a.advisory && !v.getLsbD 13, corrected := a.corrected && !v.getLsbD 14 })
  | 0x208 => if fn = 0 then [.chip (fun h => { h with vfEnable := v.getLsbD 0 })] else []
  | 0x210 => if fn = 0 && !s.chip.vfEnable && v.toNat % 2 ^ 16 ≤ 16 then [.chip (fun h => { h with numVfs := v.toNat % 2 ^ 16 })] else []
  | _ => []

/-! Requests (R348, R352, R362, R377). -/

/-- Completion statuses: successful, Unsupported Request, Configuration Request Retry, data poisoned. -/
def stOk : Nat := 0
def stUnsupported : Nat := 1
def stRetry : Nat := 2
def stPoisoned : Nat := 3

/-- A completion to a function's requester. -/
def hostAnswer (fn : Nat) (bytes : List Byte) (status : Nat) : Act := .chip (fun h => { h with answers := h.answers ++ [(fn, bytes, status)] })

/-- The first address that a request uses for its function's BAR, PF BAR 2 from 0x200_0000 on. -/
def barBase : Nat := 2 ^ 60

/-- A BAR offset as one of PF BAR 0. -/
def barOffset (fn off : Nat) : Nat := if fn = 0 then off else 0x1000000 + 0x10000 * fn + off % 0x10000

/-- n bytes from an offset of registers that read in aligned words of 8 bytes. -/
def wordsRead (read : Nat → Word) (off n : Nat) : List Byte :=
  (((List.range ((off % 8 + n + 7) / 8)).flatMap (fun i => leBytes 8 (read (off / 8 * 8 + 8 * i)).toNat)).drop (off % 8)).take n

/-- A write of bytes to registers of 8 bytes, one aligned word after another; old gives the bytes of a word that are not written. fuel
bounds the words. -/
def wordsWrite (old : State → Nat → Word) (write : State → Nat → Word → List Act) : Nat → Nat → List Byte → State → List Act
  | 0, _, _, _ => []
  | fuel + 1, off, bs, s =>
    if bs.isEmpty then []
    else
      let a := off / 8 * 8
      let k := 8 - off % 8
      let o := leBytes 8 (old s a).toNat
      let v := o.take (off % 8) ++ bs.take k ++ o.drop (off % 8 + bs.length)
      let l := write s a (BitVec.ofNat 64 (leValue v))
      l ++ wordsWrite old write fuel (off + k) (bs.drop k) (applyActs l s)

/-- A register's bytes that a write does not give: those it holds, but for LAYMAP, whose TKO a 1 writes (R250). -/
def keptRegister (s : State) (off : Nat) : Word := if 0x90000 ≤ off && off < 0x90060 then 0 else registerRead s off

/-- A configuration word's bytes that a write does not give: those it holds, but for bits that a 1 clears or starts. -/
def keptConfig (fn : Nat) (s : State) (off : Nat) : Word :=
  if [0x10, 0x18, 0x208, 0x210, 0x220, 0x228].contains off then configRead s fn off else 0

/-- A read of memory by the host: what does not translate is unsupported, a poisoned unit is reported as such. -/
def hostRead (s : State) (fn va n : Nat) : List Act :=
  let r := (splitPages (n / 4096 + 2) va n).foldl (fun acc p =>
    match acc, hostPlace s fn p.1 false with
    | some l, .done pa => some (l ++ [(pa, p.2)])
    | _, _ => none) (some ([] : List (Nat × Nat)))
  match r with
  | none => [hostAnswer fn [] stUnsupported]
  | some l =>
    let found := eccChecks s (l.map (fun p => (.hbm, p.1, p.2))) fn
    let t := applyActs found s
    let ps := l.flatMap (fun p => t.readPoison .hbm p.1 p.2)
    let bs := l.flatMap (fun p => t.readBytes .hbm p.1 p.2)
    found ++ [if ps.any (fun b => b) then hostAnswer fn (List.replicate n 0) stPoisoned else hostAnswer fn bs stOk]

/-- Whether a write of the host translates everywhere. -/
def hostWritable (s : State) (fn va n : Nat) : Bool :=
  (splitPages (n / 4096 + 2) va n).all (fun p => match hostPlace s fn p.1 true with | .done _ | .held _ => true | _ => false)

/-- HOST_LINK_REQUEST. -/
def requestLinkActs (s : State) (r : LinkRequest) : List Act :=
  if !s.chip.lantern.powered then []
  else if !s.chip.lantern.up then [hostAnswer r.fn [] (if r.config then stRetry else stUnsupported)]
  else if !fnEnabled s r.fn then [hostAnswer r.fn [] stUnsupported]
  else if r.config then
    match r.write with
    | some bs => wordsWrite (keptConfig r.fn) (fun t a v => configWrite t r.fn a v) (bs.length + 1) r.addr bs s ++ [hostAnswer r.fn [] stOk]
    | none => [hostAnswer r.fn (wordsRead (configRead s r.fn) r.addr r.size) stOk]
  else if hostBlocked s r.fn then [hostAnswer r.fn [] stUnsupported]
  else if barBase ≤ r.addr then
    match r.write with
    | some bs => wordsWrite keptRegister registerActs (bs.length + 1) (barOffset r.fn (r.addr - barBase)) bs s
    | none => [hostAnswer r.fn (wordsRead (registerRead s) (barOffset r.fn (r.addr - barBase)) r.size) stOk]
  else
    match r.write with
    | some bs => if hostWritable s r.fn r.addr bs.length then hostWrite s r.fn r.addr bs s.work.nextId else [hostAnswer r.fn [] stUnsupported]
    | none => hostRead s r.fn r.addr r.size

def execHostLinkRequest (request : LinkRequest) (s : State) : Host.Outcome State Fault Refusal := done (requestLinkActs s request ++ [bump]) s

/-! Lantern (R373, R374). -/

/-- IMAGE_WRITE: a good image is staged in the inactive bank; a bad one leaves both banks as they were. -/
def imageActs (s : State) (i : FirmwareImage) : List Act :=
  if !s.chip.lantern.powered then []
  else
    match imageFailure s.chip.lantern i with
    | some k => [post s 0x32 0 0 0 k]
    | none => [modLantern (fun l => { l with inactive := some i, staged := true }), post s 0x32 0 0 0 0]

def execImageWrite (image : FirmwareImage) (s : State) : Host.Outcome State Fault Refusal := done (imageActs s image ++ [bump]) s

/-- What an attestation report signs: nonce, both measurements, the fuse counter, the logical core map, 16 bits for each logical core (log 16). -/
def attested (s : State) (nonce : BitVec 256) : List Word :=
  let l := s.chip.lantern
  let measure := fun (b : Option FirmwareImage) => match b with | some i => i.measure | none => 0
  (List.range 4).map (fun k => nonce.extractLsb' (64 * k) 64) ++ [measure l.active, measure l.inactive, BitVec.ofNat 64 l.fuse] ++
    (List.range 256).map (fun w => BitVec.ofNat 64 (packDigits 16 ((List.range 4).map (fun k => l.physical (4 * w + k)))))

/-- The words of the two signatures: 64 bytes of Ed25519, 3,309 of ML-DSA-65. -/
def signatureWords : Nat := 8 + 414

/-- ATTESTATION_REQUEST: a report signed with both identity keys, whose signatures are free values. -/
def attestActs (s : State) (nonce : BitVec 256) : List Act :=
  if !s.chip.lantern.powered then []
  else [modLantern (fun l => { l with report := attested s nonce ++ (List.range signatureWords).map (fun k => Config.freeWord (s.work.free + k)) })]

def execAttestationRequest (nonce : BitVec 256) (s : State) : Host.Outcome State Fault Refusal := done (attestActs s nonce ++ [bump]) s

/-! Soft errors (R359, R363). -/

/-- A row with 8 bytes of it poisoned (R23). -/
def poisonedWords (w : Nat) : RowWrite :=
  let mask : RowBits := (BitVec.allOnes 64).zeroExtend 16384 <<< (64 * w)
  let p : BitVec 512 := (3 : BitVec 512) <<< (2 * w)
  { data := 0, dataMask := mask, poison := p, poisonMask := p }

/-- One flipped bit, or several, in a unit of a home: a second one makes two of a unit that holds one (log 57), a unit already poisoned stays
so; two in an SYE's SRAM are fatal at once. -/
def flipUnit (s : State) (h : Home) (u : Nat) (double : Bool) : List Act :=
  match s.unitMark h (8 * u), double, h with
  | .clear, false, _ => [.mark h u .flip]
  | .flip, _, .sye d | .clear, true, .sye d => [.mark h u .error, post s 0x20 0 (256 * d) (8 * u) 0]
  | .flip, _, _ | _, true, _ => [.mark h u .flips]
  | _, false, _ => []

/-- SOFT_ERROR: flipped bits stand until a read meets them, which corrects and counts a single one and poisons the unit of several (log 57);
several poison an ACS row's unit, stop the module, or stop the core at once. -/
def softActs (s : State) (t : ErrorTarget) : List Act :=
  let core := t.place % Config.cores
  match t.store, t.double with
  | 0, true => [.row core (t.index / 256 % 512) (poisonedWords (t.index % 256))]
  | 0, false =>
    let r := s.rowOf core (t.index / 256 % 512)
    if r.flip.getLsbD (t.index % 256) then [.row core (t.index / 256 % 512) (poisonedWords (t.index % 256))]
    else [.flipRow core (t.index / 256 % 512) (r.flip ||| (1 : BitVec 256) <<< (t.index % 256))]
  | 1, b => flipUnit s (.spd core) (t.index % (Config.spdBytes / 8)) b
  | 2, b => flipUnit s (.bos core) (t.index % (Config.bosBytes / 8)) b
  | 3, b => flipUnit s (.sye (t.place % Config.dies)) (t.index % (Config.syeSram / 8)) b
  | 4, b => flipUnit s .hbm t.index b
  | _, true => fatalFaultActs s core
  | _, false => []

def execSoftError (target : ErrorTarget) (s : State) : Host.Outcome State Fault Refusal := done (softActs s target ++ [bump]) s

end Sys2Proof.Machine
end

