-- ==== Sys2Proof/Machine/SlotExec.lean ====
section
/-! DEFINITION. The meaning of every slot operation: it issues alone, in the slot where the cursor stands (log 12). -/

namespace Sys2Proof.Machine

def execSadd (f : SR) (s : State) : Host.Outcome State Fault Refusal := runSlot .s 0x01 (opSadd f) s
def execSsub (f : SR) (s : State) : Host.Outcome State Fault Refusal := runSlot .s 0x02 (opSsub f) s
def execSmul (f : SR) (s : State) : Host.Outcome State Fault Refusal := runSlot .s 0x03 (opSmul f) s
def execSmulh (f : SR) (s : State) : Host.Outcome State Fault Refusal := runSlot .s 0x04 (opSmulh f) s
def execSmulhu (f : SR) (s : State) : Host.Outcome State Fault Refusal := runSlot .s 0x05 (opSmulhu f) s
def execSdiv (f : SR) (s : State) : Host.Outcome State Fault Refusal := runSlot .s 0x06 (opSdiv f) s
def execSdivu (f : SR) (s : State) : Host.Outcome State Fault Refusal := runSlot .s 0x07 (opSdivu f) s
def execSrem (f : SR) (s : State) : Host.Outcome State Fault Refusal := runSlot .s 0x08 (opSrem f) s
def execSremu (f : SR) (s : State) : Host.Outcome State Fault Refusal := runSlot .s 0x09 (opSremu f) s
def execSand (f : SR) (s : State) : Host.Outcome State Fault Refusal := runSlot .s 0x0A (opSand f) s
def execSor (f : SR) (s : State) : Host.Outcome State Fault Refusal := runSlot .s 0x0B (opSor f) s
def execSxor (f : SR) (s : State) : Host.Outcome State Fault Refusal := runSlot .s 0x0C (opSxor f) s
def execSshl (f : SR) (s : State) : Host.Outcome State Fault Refusal := runSlot .s 0x0D (opSshl f) s
def execSshr (f : SR) (s : State) : Host.Outcome State Fault Refusal := runSlot .s 0x0E (opSshr f) s
def execSsra (f : SR) (s : State) : Host.Outcome State Fault Refusal := runSlot .s 0x0F (opSsra f) s
def execSaddi (f : SI) (s : State) : Host.Outcome State Fault Refusal := runSlot .s 0x10 (opSaddi f) s
def execSandi (f : SI) (s : State) : Host.Outcome State Fault Refusal := runSlot .s 0x11 (opSandi f) s
def execSori (f : SI) (s : State) : Host.Outcome State Fault Refusal := runSlot .s 0x12 (opSori f) s
def execSxori (f : SI) (s : State) : Host.Outcome State Fault Refusal := runSlot .s 0x13 (opSxori f) s
def execSshli (f : SI) (s : State) : Host.Outcome State Fault Refusal := runSlot .s 0x14 (opSshli f) s
def execSshri (f : SI) (s : State) : Host.Outcome State Fault Refusal := runSlot .s 0x15 (opSshri f) s
def execSsrai (f : SI) (s : State) : Host.Outcome State Fault Refusal := runSlot .s 0x16 (opSsrai f) s
def execSli (f : SI) (s : State) : Host.Outcome State Fault Refusal := runSlot .s 0x17 (opSli f) s
def execSlih (f : SI) (s : State) : Host.Outcome State Fault Refusal := runSlot .s 0x18 (opSlih f) s
def execSclz (f : SR) (s : State) : Host.Outcome State Fault Refusal := runSlot .s 0x19 (opSclz f) s
def execSpop (f : SR) (s : State) : Host.Outcome State Fault Refusal := runSlot .s 0x1A (opSpop f) s
def execSmin (f : SR) (s : State) : Host.Outcome State Fault Refusal := runSlot .s 0x1B (opSmin f) s
def execSmax (f : SR) (s : State) : Host.Outcome State Fault Refusal := runSlot .s 0x1C (opSmax f) s
def execSminu (f : SR) (s : State) : Host.Outcome State Fault Refusal := runSlot .s 0x1D (opSminu f) s
def execSmaxu (f : SR) (s : State) : Host.Outcome State Fault Refusal := runSlot .s 0x1E (opSmaxu f) s
def execScmp (f : SR) (s : State) : Host.Outcome State Fault Refusal := runSlot .s 0x1F (opScmp f) s
def execSsel (f : SR) (s : State) : Host.Outcome State Fault Refusal := runSlot .s 0x20 (opSsel f) s
def execSextU (f : SR) (s : State) : Host.Outcome State Fault Refusal := runSlot .s 0x29 (opSextU f) s
def execSextS (f : SR) (s : State) : Host.Outcome State Fault Refusal := runSlot .s 0x29 (opSextS f) s
def execSins (f : SR) (s : State) : Host.Outcome State Fault Refusal := runSlot .s 0x2A (opSins f) s
def execSfadd (f : SR) (s : State) : Host.Outcome State Fault Refusal := runSlot .s 0x21 (opSfadd f) s
def execSfsub (f : SR) (s : State) : Host.Outcome State Fault Refusal := runSlot .s 0x22 (opSfsub f) s
def execSfmul (f : SR) (s : State) : Host.Outcome State Fault Refusal := runSlot .s 0x23 (opSfmul f) s
def execSfma (f : SR) (s : State) : Host.Outcome State Fault Refusal := runSlot .s 0x24 (opSfma f) s
def execSfcmp (f : SR) (s : State) : Host.Outcome State Fault Refusal := runSlot .s 0x25 (opSfcmp f) s
def execSfcvtF32I64 (f : SR) (s : State) : Host.Outcome State Fault Refusal := runSlot .s 0x26 (opSfcvtF32I64 f) s
def execSfcvtF32U64 (f : SR) (s : State) : Host.Outcome State Fault Refusal := runSlot .s 0x26 (opSfcvtF32U64 f) s
def execSfcvtI64F32 (f : SR) (s : State) : Host.Outcome State Fault Refusal := runSlot .s 0x26 (opSfcvtI64F32 f) s
def execSfcvtU64F32 (f : SR) (s : State) : Host.Outcome State Fault Refusal := runSlot .s 0x26 (opSfcvtU64F32 f) s
def execSfcvtF32Bf16 (f : SR) (s : State) : Host.Outcome State Fault Refusal := runSlot .s 0x26 (opSfcvtF32Bf16 f) s
def execSfcvtF32F16 (f : SR) (s : State) : Host.Outcome State Fault Refusal := runSlot .s 0x26 (opSfcvtF32F16 f) s
def execSfcvtBf16F32 (f : SR) (s : State) : Host.Outcome State Fault Refusal := runSlot .s 0x26 (opSfcvtBf16F32 f) s
def execSfcvtF16F32 (f : SR) (s : State) : Host.Outcome State Fault Refusal := runSlot .s 0x26 (opSfcvtF16F32 f) s
def execSfcvtF32Fx32 (f : SR) (s : State) : Host.Outcome State Fault Refusal := runSlot .s 0x26 (opSfcvtF32Fx32 f) s
def execSfcvtFx32F32 (f : SR) (s : State) : Host.Outcome State Fault Refusal := runSlot .s 0x26 (opSfcvtFx32F32 f) s
def execSfmin (f : SR) (s : State) : Host.Outcome State Fault Refusal := runSlot .s 0x27 (opSfmin f) s
def execSfmax (f : SR) (s : State) : Host.Outcome State Fault Refusal := runSlot .s 0x28 (opSfmax f) s
def execBr (f : SB) (s : State) : Host.Outcome State Fault Refusal := runSlot .s 0x30 (opBr f) s
def execBrc (f : SB) (s : State) : Host.Outcome State Fault Refusal := runSlot .s 0x31 (opBrc f) s
def execBri (f : SB) (s : State) : Host.Outcome State Fault Refusal := runSlot .s 0x32 (opBri f) s
def execCall (f : SB) (s : State) : Host.Outcome State Fault Refusal := runSlot .s 0x33 (opCall f) s
def execRet (f : SB) (s : State) : Host.Outcome State Fault Refusal := runSlot .s 0x34 (opRet f) s
def execLoop (f : SL) (s : State) : Host.Outcome State Fault Refusal := runSlot .s 0x35 (opLoop f) s
def execLoopp (f : SL) (s : State) : Host.Outcome State Fault Refusal := runSlot .s 0x36 (opLoopp f) s
def execLexit (f : SL) (s : State) : Host.Outcome State Fault Refusal := runSlot .s 0x37 (opLexit f) s
def execRep (f : RP) (s : State) : Host.Outcome State Fault Refusal := execBundleIssue .nop (.rep f) .nop .nop .nop .nop .nop .nop s
def execSpawn (f : SL) (s : State) : Host.Outcome State Fault Refusal := runSlot .s 0x39 (opSpawn f) s
def execYield (f : SL) (s : State) : Host.Outcome State Fault Refusal := runSlot .s 0x3A (opYield f) s
def execChk (f : SB) (s : State) : Host.Outcome State Fault Refusal := runSlot .s 0x3B (opChk f) s
def execChkm (f : SB) (s : State) : Host.Outcome State Fault Refusal := runSlot .s 0x3C (opChkm f) s
def execTrap (f : SX) (s : State) : Host.Outcome State Fault Refusal := runSlot .s 0x3D (opTrap f) s
def execRett (f : SX) (s : State) : Host.Outcome State Fault Refusal := runSlot .s 0x3E (opRett f) s
def execSysrd (f : SX) (s : State) : Host.Outcome State Fault Refusal := runSlot .s 0x3F (opSysrd f) s
def execSyswr (f : SX) (s : State) : Host.Outcome State Fault Refusal := runSlot .s 0x40 (opSyswr f) s
def execSetfmt (f : SX) (s : State) : Host.Outcome State Fault Refusal := runSlot .s 0x41 (opSetfmt f) s
def execSettb (f : SL) (s : State) : Host.Outcome State Fault Refusal := runSlot .s 0x42 (opSettb f) s
def execTwait (f : SL) (s : State) : Host.Outcome State Fault Refusal := runSlot .s 0x43 (opTwait f) s
def execTrealign (f : SL) (s : State) : Host.Outcome State Fault Refusal := runSlot .s 0x44 (opTrealign f) s
def execGlchk (f : SX) (s : State) : Host.Outcome State Fault Refusal := runSlot .s 0x45 (opGlchk f) s
def execHalt (f : SX) (s : State) : Host.Outcome State Fault Refusal := runSlot .s 0x46 (opHalt f) s
def execFlclr (f : SX) (s : State) : Host.Outcome State Fault Refusal := runSlot .s 0x47 (opFlclr f) s
def execVaddF32 (f : VR) (s : State) : Host.Outcome State Fault Refusal := runSlot .v 0x01 (opVaddF32 f) s
def execVaddBf16 (f : VR) (s : State) : Host.Outcome State Fault Refusal := runSlot .v 0x02 (opVaddBf16 f) s
def execVaddF16 (f : VR) (s : State) : Host.Outcome State Fault Refusal := runSlot .v 0x03 (opVaddF16 f) s
def execVsubF32 (f : VR) (s : State) : Host.Outcome State Fault Refusal := runSlot .v 0x04 (opVsubF32 f) s
def execVsubBf16 (f : VR) (s : State) : Host.Outcome State Fault Refusal := runSlot .v 0x05 (opVsubBf16 f) s
def execVsubF16 (f : VR) (s : State) : Host.Outcome State Fault Refusal := runSlot .v 0x06 (opVsubF16 f) s
def execVmulF32 (f : VR) (s : State) : Host.Outcome State Fault Refusal := runSlot .v 0x07 (opVmulF32 f) s
def execVmulBf16 (f : VR) (s : State) : Host.Outcome State Fault Refusal := runSlot .v 0x08 (opVmulBf16 f) s
def execVmulF16 (f : VR) (s : State) : Host.Outcome State Fault Refusal := runSlot .v 0x09 (opVmulF16 f) s
def execVfmaF32 (f : VR) (s : State) : Host.Outcome State Fault Refusal := runSlot .v 0x0A (opVfmaF32 f) s
def execVfmaBf16 (f : VR) (s : State) : Host.Outcome State Fault Refusal := runSlot .v 0x0B (opVfmaBf16 f) s
def execVfmaF16 (f : VR) (s : State) : Host.Outcome State Fault Refusal := runSlot .v 0x0C (opVfmaF16 f) s
def execVfmsF32 (f : VR) (s : State) : Host.Outcome State Fault Refusal := runSlot .v 0x0D (opVfmsF32 f) s
def execVfmsBf16 (f : VR) (s : State) : Host.Outcome State Fault Refusal := runSlot .v 0x0E (opVfmsBf16 f) s
def execVfmsF16 (f : VR) (s : State) : Host.Outcome State Fault Refusal := runSlot .v 0x0F (opVfmsF16 f) s
def execVminF32 (f : VR) (s : State) : Host.Outcome State Fault Refusal := runSlot .v 0x10 (opVminF32 f) s
def execVminBf16 (f : VR) (s : State) : Host.Outcome State Fault Refusal := runSlot .v 0x11 (opVminBf16 f) s
def execVminF16 (f : VR) (s : State) : Host.Outcome State Fault Refusal := runSlot .v 0x12 (opVminF16 f) s
def execVmaxF32 (f : VR) (s : State) : Host.Outcome State Fault Refusal := runSlot .v 0x13 (opVmaxF32 f) s
def execVmaxBf16 (f : VR) (s : State) : Host.Outcome State Fault Refusal := runSlot .v 0x14 (opVmaxBf16 f) s
def execVmaxF16 (f : VR) (s : State) : Host.Outcome State Fault Refusal := runSlot .v 0x15 (opVmaxF16 f) s
def execVabsF32 (f : VR) (s : State) : Host.Outcome State Fault Refusal := runSlot .v 0x16 (opVabsF32 f) s
def execVabsBf16 (f : VR) (s : State) : Host.Outcome State Fault Refusal := runSlot .v 0x17 (opVabsBf16 f) s
def execVabsF16 (f : VR) (s : State) : Host.Outcome State Fault Refusal := runSlot .v 0x18 (opVabsF16 f) s
def execVnegF32 (f : VR) (s : State) : Host.Outcome State Fault Refusal := runSlot .v 0x19 (opVnegF32 f) s
def execVnegBf16 (f : VR) (s : State) : Host.Outcome State Fault Refusal := runSlot .v 0x1A (opVnegBf16 f) s
def execVnegF16 (f : VR) (s : State) : Host.Outcome State Fault Refusal := runSlot .v 0x1B (opVnegF16 f) s
def execVcmpF32 (f : VR) (s : State) : Host.Outcome State Fault Refusal := runSlot .v 0x1C (opVcmpF32 f) s
def execVcmpBf16 (f : VR) (s : State) : Host.Outcome State Fault Refusal := runSlot .v 0x1D (opVcmpBf16 f) s
def execVcmpF16 (f : VR) (s : State) : Host.Outcome State Fault Refusal := runSlot .v 0x1E (opVcmpF16 f) s
def execVclampF32 (f : VR) (s : State) : Host.Outcome State Fault Refusal := runSlot .v 0x1F (opVclampF32 f) s
def execVclampBf16 (f : VR) (s : State) : Host.Outcome State Fault Refusal := runSlot .v 0x20 (opVclampBf16 f) s
def execVclampF16 (f : VR) (s : State) : Host.Outcome State Fault Refusal := runSlot .v 0x21 (opVclampF16 f) s
def execVsel (f : VR) (s : State) : Host.Outcome State Fault Refusal := runSlot .v 0x22 (opVsel f) s
def execViaddI32 (f : VR) (s : State) : Host.Outcome State Fault Refusal := runSlot .v 0x23 (opViaddI32 f) s
def execViaddI16 (f : VR) (s : State) : Host.Outcome State Fault Refusal := runSlot .v 0x24 (opViaddI16 f) s
def execVisubI32 (f : VR) (s : State) : Host.Outcome State Fault Refusal := runSlot .v 0x25 (opVisubI32 f) s
def execVisubI16 (f : VR) (s : State) : Host.Outcome State Fault Refusal := runSlot .v 0x26 (opVisubI16 f) s
def execVimulI32 (f : VR) (s : State) : Host.Outcome State Fault Refusal := runSlot .v 0x27 (opVimulI32 f) s
def execVimulI16 (f : VR) (s : State) : Host.Outcome State Fault Refusal := runSlot .v 0x28 (opVimulI16 f) s
def execViminI32 (f : VR) (s : State) : Host.Outcome State Fault Refusal := runSlot .v 0x29 (opViminI32 f) s
def execViminI16 (f : VR) (s : State) : Host.Outcome State Fault Refusal := runSlot .v 0x2A (opViminI16 f) s
def execVimaxI32 (f : VR) (s : State) : Host.Outcome State Fault Refusal := runSlot .v 0x2B (opVimaxI32 f) s
def execVimaxI16 (f : VR) (s : State) : Host.Outcome State Fault Refusal := runSlot .v 0x2C (opVimaxI16 f) s
def execVicmpI32 (f : VR) (s : State) : Host.Outcome State Fault Refusal := runSlot .v 0x2D (opVicmpI32 f) s
def execVicmpI16 (f : VR) (s : State) : Host.Outcome State Fault Refusal := runSlot .v 0x2E (opVicmpI16 f) s
def execVand (f : VR) (s : State) : Host.Outcome State Fault Refusal := runSlot .v 0x2F (opVand f) s
def execVor (f : VR) (s : State) : Host.Outcome State Fault Refusal := runSlot .v 0x30 (opVor f) s
def execVxor (f : VR) (s : State) : Host.Outcome State Fault Refusal := runSlot .v 0x31 (opVxor f) s
def execVshl (f : VR) (s : State) : Host.Outcome State Fault Refusal := runSlot .v 0x32 (opVshl f) s
def execVshr (f : VR) (s : State) : Host.Outcome State Fault Refusal := runSlot .v 0x33 (opVshr f) s
def execVsra (f : VR) (s : State) : Host.Outcome State Fault Refusal := runSlot .v 0x34 (opVsra f) s
def execVfxadd (f : VR) (s : State) : Host.Outcome State Fault Refusal := runSlot .v 0x35 (opVfxadd f) s
def execVfxsub (f : VR) (s : State) : Host.Outcome State Fault Refusal := runSlot .v 0x36 (opVfxsub f) s
def execVqfx (f : VR) (s : State) : Host.Outcome State Fault Refusal := runSlot .v 0x37 (opVqfx f) s
def execVfxf (f : VR) (s : State) : Host.Outcome State Fault Refusal := runSlot .v 0x38 (opVfxf f) s
def execVcvtBf16F32 (f : VR) (s : State) : Host.Outcome State Fault Refusal := runSlot .v 0x39 (opVcvtBf16F32 f) s
def execVcvtF16F32 (f : VR) (s : State) : Host.Outcome State Fault Refusal := runSlot .v 0x39 (opVcvtF16F32 f) s
def execVcvtF32Bf16 (f : VR) (s : State) : Host.Outcome State Fault Refusal := runSlot .v 0x39 (opVcvtF32Bf16 f) s
def execVcvtF32F16 (f : VR) (s : State) : Host.Outcome State Fault Refusal := runSlot .v 0x39 (opVcvtF32F16 f) s
def execVcvtI32F32 (f : VR) (s : State) : Host.Outcome State Fault Refusal := runSlot .v 0x39 (opVcvtI32F32 f) s
def execVcvtF32I32 (f : VR) (s : State) : Host.Outcome State Fault Refusal := runSlot .v 0x39 (opVcvtF32I32 f) s
def execVcvtI16F32 (f : VR) (s : State) : Host.Outcome State Fault Refusal := runSlot .v 0x39 (opVcvtI16F32 f) s
def execVcvtF32I16 (f : VR) (s : State) : Host.Outcome State Fault Refusal := runSlot .v 0x39 (opVcvtF32I16 f) s
def execVsplit3 (f : VR) (s : State) : Host.Outcome State Fault Refusal := runSlot .v 0x3A (opVsplit3 f) s
def execVmov (f : VR) (s : State) : Host.Outcome State Fault Refusal := runSlot .v 0x3B (opVmov f) s
def execVli (f : VI) (s : State) : Host.Outcome State Fault Refusal := runSlot .v 0x3C (opVli f) s
def execVidx (f : VI) (s : State) : Host.Outcome State Fault Refusal := runSlot .v 0x41 (opVidx f) s
def execVbcastScalar (f : VR) (s : State) : Host.Outcome State Fault Refusal := runSlot .v 0x3D (opVbcastScalar f) s
def execVbcastLane (f : VR) (s : State) : Host.Outcome State Fault Refusal := runSlot .v 0x3D (opVbcastLane f) s
def execVextr (f : VR) (s : State) : Host.Outcome State Fault Refusal := runSlot .v 0x3E (opVextr f) s
def execVslide (f : VR) (s : State) : Host.Outcome State Fault Refusal := runSlot .v 0x3F (opVslide f) s
def execVperm (f : VR) (s : State) : Host.Outcome State Fault Refusal := runSlot .v 0x40 (opVperm f) s
def execVsumo (f : VR) (s : State) : Host.Outcome State Fault Refusal := runSlot .v 0x42 (opVsumo f) s
def execVsumxXa (f : VR) (s : State) : Host.Outcome State Fault Refusal := runSlot .v 0x43 (opVsumxXa f) s
def execVsumxF32 (f : VR) (s : State) : Host.Outcome State Fault Refusal := runSlot .v 0x43 (opVsumxF32 f) s
def execVmaxr (f : VR) (s : State) : Host.Outcome State Fault Refusal := runSlot .v 0x44 (opVmaxr f) s
def execVminr (f : VR) (s : State) : Host.Outcome State Fault Refusal := runSlot .v 0x45 (opVminr f) s
def execVstatu (f : VR) (s : State) : Host.Outcome State Fault Refusal := runSlot .v 0x46 (opVstatu f) s
def execVstatw (f : VR) (s : State) : Host.Outcome State Fault Refusal := runSlot .v 0x47 (opVstatw f) s
def execVstatm (f : VR) (s : State) : Host.Outcome State Fault Refusal := runSlot .v 0x48 (opVstatm f) s
def execVstath (f : VR) (s : State) : Host.Outcome State Fault Refusal := runSlot .v 0x49 (opVstath f) s
def execVstateClr (f : VR) (s : State) : Host.Outcome State Fault Refusal := runSlot .v 0x4A (opVstateClr f) s
def execVstateVar (f : VR) (s : State) : Host.Outcome State Fault Refusal := runSlot .v 0x4A (opVstateVar f) s
def execVstateSvar (f : VR) (s : State) : Host.Outcome State Fault Refusal := runSlot .v 0x4A (opVstateSvar f) s
def execVstateRstd (f : VR) (s : State) : Host.Outcome State Fault Refusal := runSlot .v 0x4A (opVstateRstd f) s
def execVglint (f : VR) (s : State) : Host.Outcome State Fault Refusal := runSlot .v 0x4B (opVglint f) s
def execVrngBits (f : VR) (s : State) : Host.Outcome State Fault Refusal := runSlot .v 0x4C (opVrngBits f) s
def execVrngUnif (f : VR) (s : State) : Host.Outcome State Fault Refusal := runSlot .v 0x4C (opVrngUnif f) s
def execVamax (f : VR) (s : State) : Host.Outcome State Fault Refusal := runSlot .v 0x4D (opVamax f) s
def execMand (f : VR) (s : State) : Host.Outcome State Fault Refusal := runSlot .v 0x4E (opMand f) s
def execMor (f : VR) (s : State) : Host.Outcome State Fault Refusal := runSlot .v 0x4F (opMor f) s
def execMxor (f : VR) (s : State) : Host.Outcome State Fault Refusal := runSlot .v 0x50 (opMxor f) s
def execMnot (f : VR) (s : State) : Host.Outcome State Fault Refusal := runSlot .v 0x51 (opMnot f) s
def execMpop (f : VR) (s : State) : Host.Outcome State Fault Refusal := runSlot .v 0x52 (opMpop f) s
def execMfirst (f : VR) (s : State) : Host.Outcome State Fault Refusal := runSlot .v 0x53 (opMfirst f) s
def execVxadd (f : VR) (s : State) : Host.Outcome State Fault Refusal := runSlot .v 0x54 (opVxadd f) s
def execVxcvtXaF32 (f : VR) (s : State) : Host.Outcome State Fault Refusal := runSlot .v 0x55 (opVxcvtXaF32 f) s
def execVxcvtF32Xa (f : VR) (s : State) : Host.Outcome State Fault Refusal := runSlot .v 0x55 (opVxcvtF32Xa f) s
def execXexp2 (f : VR) (s : State) : Host.Outcome State Fault Refusal := runSlot .x 0x01 (opXexp2 f) s
def execXlog2 (f : VR) (s : State) : Host.Outcome State Fault Refusal := runSlot .x 0x02 (opXlog2 f) s
def execXrcp (f : VR) (s : State) : Host.Outcome State Fault Refusal := runSlot .x 0x03 (opXrcp f) s
def execXrsqrt (f : VR) (s : State) : Host.Outcome State Fault Refusal := runSlot .x 0x04 (opXrsqrt f) s
def execXsqrt (f : VR) (s : State) : Host.Outcome State Fault Refusal := runSlot .x 0x05 (opXsqrt f) s
def execXtanh (f : VR) (s : State) : Host.Outcome State Fault Refusal := runSlot .x 0x06 (opXtanh f) s
def execXsigm (f : VR) (s : State) : Host.Outcome State Fault Refusal := runSlot .x 0x07 (opXsigm f) s
def execXsin (f : VR) (s : State) : Host.Outcome State Fault Refusal := runSlot .x 0x08 (opXsin f) s
def execXcos (f : VR) (s : State) : Host.Outcome State Fault Refusal := runSlot .x 0x09 (opXcos f) s
def execXqbx (f : VR) (s : State) : Host.Outcome State Fault Refusal := runSlot .x 0x0A (opXqbx f) s
def execXdqbx (f : VR) (s : State) : Host.Outcome State Fault Refusal := runSlot .x 0x0B (opXdqbx f) s
def execXscale (f : VR) (s : State) : Host.Outcome State Fault Refusal := runSlot .x 0x0C (opXscale f) s
def execMcall (f : XC) (s : State) : Host.Outcome State Fault Refusal := runSlot .x 0x10 (opMcall f) s
def execMdrain (f : XD) (s : State) : Host.Outcome State Fault Refusal := runSlot .x 0x11 (opMdrain f) s
def execMdrainAo (f : XD) (s : State) : Host.Outcome State Fault Refusal := runSlot .x 0x12 (opMdrainAo f) s
def execMdrainAu (f : XD) (s : State) : Host.Outcome State Fault Refusal := runSlot .x 0x13 (opMdrainAu f) s
def execMdrainN (f : XD) (s : State) : Host.Outcome State Fault Refusal := runSlot .x 0x14 (opMdrainN f) s
def execMzero (f : XZ) (s : State) : Host.Outcome State Fault Refusal := runSlot .x 0x15 (opMzero f) s
def execMpset (f : VR) (s : State) : Host.Outcome State Fault Refusal := runSlot .x 0x16 (opMpset f) s
def execMucld (f : XU) (s : State) : Host.Outcome State Fault Refusal := runSlot .x 0x17 (opMucld f) s
def execMbld (f : XU) (s : State) : Host.Outcome State Fault Refusal := runSlot .x 0x18 (opMbld f) s
def execThset (f : VR) (s : State) : Host.Outcome State Fault Refusal := runSlot .x 0x19 (opThset f) s
def execMchks (f : VR) (s : State) : Host.Outcome State Fault Refusal := runSlot .x 0x1A (opMchks f) s
def execLd8 (f : MA) (s : State) : Host.Outcome State Fault Refusal := runSlot .m 0x01 (opLd8 f) s
def execLd16 (f : MA) (s : State) : Host.Outcome State Fault Refusal := runSlot .m 0x02 (opLd16 f) s
def execLd32 (f : MA) (s : State) : Host.Outcome State Fault Refusal := runSlot .m 0x03 (opLd32 f) s
def execLd64 (f : MA) (s : State) : Host.Outcome State Fault Refusal := runSlot .m 0x04 (opLd64 f) s
def execSt8 (f : MA) (s : State) : Host.Outcome State Fault Refusal := runSlot .m 0x05 (opSt8 f) s
def execSt16 (f : MA) (s : State) : Host.Outcome State Fault Refusal := runSlot .m 0x06 (opSt16 f) s
def execSt32 (f : MA) (s : State) : Host.Outcome State Fault Refusal := runSlot .m 0x07 (opSt32 f) s
def execSt64 (f : MA) (s : State) : Host.Outcome State Fault Refusal := runSlot .m 0x08 (opSt64 f) s
def execVld (f : MA) (s : State) : Host.Outcome State Fault Refusal := runSlot .m 0x09 (opVld f) s
def execVst (f : MA) (s : State) : Host.Outcome State Fault Refusal := runSlot .m 0x0A (opVst f) s
def execVldt (f : MA) (s : State) : Host.Outcome State Fault Refusal := runSlot .m 0x0B (opVldt f) s
def execVldb (f : MA) (s : State) : Host.Outcome State Fault Refusal := runSlot .m 0x0C (opVldb f) s
def execVgath (f : MI) (s : State) : Host.Outcome State Fault Refusal := runSlot .m 0x0D (opVgath f) s
def execVscat (f : MI) (s : State) : Host.Outcome State Fault Refusal := runSlot .m 0x0E (opVscat f) s
def execProbe (f : MA) (s : State) : Host.Outcome State Fault Refusal := runSlot .m 0x0F (opProbe f) s
def execPref (f : MA) (s : State) : Host.Outcome State Fault Refusal := runSlot .m 0x10 (opPref f) s
def execCpygs (f : MC) (s : State) : Host.Outcome State Fault Refusal := runSlot .m 0x11 (opCpygs f) s
def execCpysg (f : MC) (s : State) : Host.Outcome State Fault Refusal := runSlot .m 0x12 (opCpysg f) s
def execCpyss (f : MC) (s : State) : Host.Outcome State Fault Refusal := runSlot .m 0x13 (opCpyss f) s
def execCpyb (f : MC) (s : State) : Host.Outcome State Fault Refusal := runSlot .m 0x14 (opCpyb f) s
def execDrainl (f : MS) (s : State) : Host.Outcome State Fault Refusal := runSlot .m 0x15 (opDrainl f) s
def execDrainr (f : MS) (s : State) : Host.Outcome State Fault Refusal := runSlot .m 0x16 (opDrainr f) s
def execDrainc (f : MS) (s : State) : Host.Outcome State Fault Refusal := runSlot .m 0x17 (opDrainc f) s
def execBarinit (f : MS) (s : State) : Host.Outcome State Fault Refusal := runSlot .m 0x18 (opBarinit f) s
def execBarinitTree (f : MS) (s : State) : Host.Outcome State Fault Refusal := runSlot .m 0x18 (opBarinitTree f) s
def execBararv (f : MS) (s : State) : Host.Outcome State Fault Refusal := runSlot .m 0x19 (opBararv f) s
def execBarwait (f : MS) (s : State) : Host.Outcome State Fault Refusal := runSlot .m 0x1A (opBarwait f) s
def execAadd (f : MS) (s : State) : Host.Outcome State Fault Refusal := runSlot .m 0x1B (opAadd f) s
def execAmin (f : MS) (s : State) : Host.Outcome State Fault Refusal := runSlot .m 0x1C (opAmin f) s
def execAmax (f : MS) (s : State) : Host.Outcome State Fault Refusal := runSlot .m 0x1D (opAmax f) s
def execAand (f : MS) (s : State) : Host.Outcome State Fault Refusal := runSlot .m 0x1E (opAand f) s
def execAor (f : MS) (s : State) : Host.Outcome State Fault Refusal := runSlot .m 0x1F (opAor f) s
def execAxor (f : MS) (s : State) : Host.Outcome State Fault Refusal := runSlot .m 0x20 (opAxor f) s
def execAswp (f : MS) (s : State) : Host.Outcome State Fault Refusal := runSlot .m 0x21 (opAswp f) s
def execAcas (f : MS) (s : State) : Host.Outcome State Fault Refusal := runSlot .m 0x22 (opAcas f) s
def execAfaddo (f : MS) (s : State) : Host.Outcome State Fault Refusal := runSlot .m 0x23 (opAfaddo f) s
def execAfaddu (f : MS) (s : State) : Host.Outcome State Fault Refusal := runSlot .m 0x24 (opAfaddu f) s
def execAxadd (f : MS) (s : State) : Host.Outcome State Fault Refusal := runSlot .m 0x25 (opAxadd f) s
def execAstat (f : MS) (s : State) : Host.Outcome State Fault Refusal := runSlot .m 0x2E (opAstat f) s
def execAstatO (f : MS) (s : State) : Host.Outcome State Fault Refusal := runSlot .m 0x2E (opAstatO f) s
def execWaitv (f : MS) (s : State) : Host.Outcome State Fault Refusal := runSlot .m 0x26 (opWaitv f) s
def execChsend (f : MH) (s : State) : Host.Outcome State Fault Refusal := runSlot .m 0x27 (opChsend f) s
def execChrecv (f : MH) (s : State) : Host.Outcome State Fault Refusal := runSlot .m 0x28 (opChrecv f) s
def execSrcmdXadd (f : MS) (s : State) : Host.Outcome State Fault Refusal := runSlot .m 0x29 (opSrcmdXadd f) s
def execSrcmdFaddo (f : MS) (s : State) : Host.Outcome State Fault Refusal := runSlot .m 0x29 (opSrcmdFaddo f) s
def execSrcmdFaddu (f : MS) (s : State) : Host.Outcome State Fault Refusal := runSlot .m 0x29 (opSrcmdFaddu f) s
def execSrcmdMax (f : MS) (s : State) : Host.Outcome State Fault Refusal := runSlot .m 0x29 (opSrcmdMax f) s
def execSrcmdMin (f : MS) (s : State) : Host.Outcome State Fault Refusal := runSlot .m 0x29 (opSrcmdMin f) s
def execSrcmdStato (f : MS) (s : State) : Host.Outcome State Fault Refusal := runSlot .m 0x29 (opSrcmdStato f) s
def execSrcmdStatu (f : MS) (s : State) : Host.Outcome State Fault Refusal := runSlot .m 0x29 (opSrcmdStatu f) s
def execSrcmdFwd (f : MS) (s : State) : Host.Outcome State Fault Refusal := runSlot .m 0x29 (opSrcmdFwd f) s
def execSrcmdBx4d (f : MS) (s : State) : Host.Outcome State Fault Refusal := runSlot .m 0x29 (opSrcmdBx4d f) s
def execJemit (f : MJ) (s : State) : Host.Outcome State Fault Refusal := runSlot .m 0x2A (opJemit f) s
def execJcmp (f : MJ) (s : State) : Host.Outcome State Fault Refusal := runSlot .m 0x2B (opJcmp f) s
def execJmark (f : MJ) (s : State) : Host.Outcome State Fault Refusal := runSlot .m 0x2C (opJmark f) s
def execJtrunc (f : MJ) (s : State) : Host.Outcome State Fault Refusal := runSlot .m 0x2D (opJtrunc f) s

end Sys2Proof.Machine
end

