-- ==== Sys2Proof/Machine/Dispatch.lean ====
section
/-! DEFINITION. Every instruction's meaning, by constructor. -/

namespace Sys2Proof.Machine

def exec (i : Instr) (s : State) : Host.Outcome State Fault Refusal :=
  match i with
  | .bundleIssue s0 s1 v0 v1 v2 x m0 m1 => Sys2Proof.Machine.execBundleIssue s0 s1 v0 v1 v2 x m0 m1 s
  | .nop => Sys2Proof.Machine.execNop s
  | .resultLand id => Sys2Proof.Machine.execResultLand id s
  | .loadDataArrival id => Sys2Proof.Machine.execLoadDataArrival id s
  | .loadPromiseMiss id => Sys2Proof.Machine.execLoadPromiseMiss id s
  | .storePerform id => Sys2Proof.Machine.execStorePerform id s
  | .lateStoreFault id => Sys2Proof.Machine.execLateStoreFault id s
  | .trapEntry q cause => Sys2Proof.Machine.execTrapEntry q cause s
  | .timerInterrupt q => Sys2Proof.Machine.execTimerInterrupt q s
  | .latchedLoadFault id sub addr => Sys2Proof.Machine.execLatchedLoadFault id sub addr s
  | .looppRollback q => Sys2Proof.Machine.execLooppRollback q s
  | .engineCommandStart id => Sys2Proof.Machine.execEngineCommandStart id s
  | .mxeRoutineStart id => Sys2Proof.Machine.execMxeRoutineStart id s
  | .mxeRoutineOverrun id => Sys2Proof.Machine.execMxeRoutineOverrun id s
  | .engineCommandEnd id => Sys2Proof.Machine.execEngineCommandEnd id s
  | .tileRowArrival core handle row => Sys2Proof.Machine.execTileRowArrival core handle row s
  | .copyChunkComplete id crcErrors => Sys2Proof.Machine.execCopyChunkComplete id crcErrors s
  | .copyComplete id => Sys2Proof.Machine.execCopyComplete id s
  | .copySuspend id sub addr => Sys2Proof.Machine.execCopySuspend id sub addr s
  | .probeFillComplete id => Sys2Proof.Machine.execProbeFillComplete id s
  | .syeRequestArrival id => Sys2Proof.Machine.execSyeRequestArrival id s
  | .barwaitReport q => Sys2Proof.Machine.execBarwaitReport q s
  | .waitvWake q poisoned => Sys2Proof.Machine.execWaitvWake q poisoned s
  | .twaitRelease q => Sys2Proof.Machine.execTwaitRelease q s
  | .trealignRelease q => Sys2Proof.Machine.execTrealignRelease q s
  | .channelElementArrival element => Sys2Proof.Machine.execChannelElementArrival element s
  | .chrecvWake q => Sys2Proof.Machine.execChrecvWake q s
  | .tlbWalkComplete id => Sys2Proof.Machine.execTlbWalkComplete id s
  | .launchStart launch core => Sys2Proof.Machine.execLaunchStart launch core s
  | .taskStart core => Sys2Proof.Machine.execTaskStart core s
  | .launchDone launch => Sys2Proof.Machine.execLaunchDone launch s
  | .sliceReset core => Sys2Proof.Machine.execSliceReset core s
  | .arbiterIdleGrant core => Sys2Proof.Machine.execArbiterIdleGrant core s
  | .queueSwitchComplete core => Sys2Proof.Machine.execQueueSwitchComplete core s
  | .deadlineFault core => Sys2Proof.Machine.execDeadlineFault core s
  | .deadlineAbort core queue => Sys2Proof.Machine.execDeadlineAbort core queue s
  | .launch packet => Sys2Proof.Machine.execLaunch packet s
  | .detlevel packet => Sys2Proof.Machine.execDetlevel packet s
  | .qset packet => Sys2Proof.Machine.execQset packet s
  | .quiesce packet => Sys2Proof.Machine.execQuiesce packet s
  | .quiesceCutComplete fn => Sys2Proof.Machine.execQuiesceCutComplete fn s
  | .quiesceTimeout fn => Sys2Proof.Machine.execQuiesceTimeout fn s
  | .restore packet => Sys2Proof.Machine.execRestore packet s
  | .resume packet => Sys2Proof.Machine.execResume packet s
  | .abort packet => Sys2Proof.Machine.execAbort packet s
  | .badPacket packet => Sys2Proof.Machine.execBadPacket packet s
  | .ringEnableWrite fn value => Sys2Proof.Machine.execRingEnableWrite fn value s
  | .cmdtailWrite fn value => Sys2Proof.Machine.execCmdtailWrite fn value s
  | .cplheadWrite fn value => Sys2Proof.Machine.execCplheadWrite fn value s
  | .registerWrite offset value => Sys2Proof.Machine.execRegisterWrite offset value s
  | .tlbInvalidate value => Sys2Proof.Machine.execTlbInvalidate value s
  | .tlbInvalidateComplete => Sys2Proof.Machine.execTlbInvalidateComplete s
  | .jpcomWrite value forwarded => Sys2Proof.Machine.execJpcomWrite value forwarded s
  | .mcurWrite value => Sys2Proof.Machine.execMcurWrite value s
  | .dutyWrite value => Sys2Proof.Machine.execDutyWrite value s
  | .pwrcapWrite value => Sys2Proof.Machine.execPwrcapWrite value s
  | .tkoWrite stack byHost => Sys2Proof.Machine.execTkoWrite stack byHost s
  | .pageHandover fn va toHost => Sys2Proof.Machine.execPageHandover fn va toHost s
  | .rangeMigration entry newOffset stage => Sys2Proof.Machine.execRangeMigration entry newOffset stage s
  | .layerMapOut stack layer stage => Sys2Proof.Machine.execLayerMapOut stack layer stage s
  | .refreshRateEval stack temps => Sys2Proof.Machine.execRefreshRateEval stack temps s
  | .heartbeat stack => Sys2Proof.Machine.execHeartbeat stack s
  | .heartbeatTimeout stack => Sys2Proof.Machine.execHeartbeatTimeout stack s
  | .retrainRequest stack => Sys2Proof.Machine.execRetrainRequest stack s
  | .heatMapPublish => Sys2Proof.Machine.execHeatMapPublish s
  | .sensorSample sensor reading => Sys2Proof.Machine.execSensorSample sensor reading s
  | .powerCapEval measured => Sys2Proof.Machine.execPowerCapEval measured s
  | .flitReceive port flit crcOk => Sys2Proof.Machine.execFlitReceive port flit crcOk s
  | .retryBeat port lseq => Sys2Proof.Machine.execRetryBeat port lseq s
  | .ackBeat port lseq => Sys2Proof.Machine.execAckBeat port lseq s
  | .pauseBeat port lane => Sys2Proof.Machine.execPauseBeat port lane s
  | .pauseExpiry port lane => Sys2Proof.Machine.execPauseExpiry port lane s
  | .routeTableWrite target value => Sys2Proof.Machine.execRouteTableWrite target value s
  | .noRouteTimeout target => Sys2Proof.Machine.execNoRouteTimeout target s
  | .timeSyncMessage message => Sys2Proof.Machine.execTimeSyncMessage message s
  | .srdStepEnqueue id => Sys2Proof.Machine.execSrdStepEnqueue id s
  | .srdStepBegin stack => Sys2Proof.Machine.execSrdStepBegin stack s
  | .srdStepComplete stack => Sys2Proof.Machine.execSrdStepComplete stack s
  | .collectiveFlitArrival port flit => Sys2Proof.Machine.execCollectiveFlitArrival port flit s
  | .collectiveWaitTimeout port lane => Sys2Proof.Machine.execCollectiveWaitTimeout port lane s
  | .journalRecordReceive record crcOk => Sys2Proof.Machine.execJournalRecordReceive record crcOk s
  | .journalAck ack => Sys2Proof.Machine.execJournalAck ack s
  | .journalResendTimeout => Sys2Proof.Machine.execJournalResendTimeout s
  | .emissionPerform => Sys2Proof.Machine.execEmissionPerform s
  | .partnerFailureTimeout => Sys2Proof.Machine.execPartnerFailureTimeout s
  | .spareReseedComplete => Sys2Proof.Machine.execSpareReseedComplete s
  | .writerFailureTimeout => Sys2Proof.Machine.execWriterFailureTimeout s
  | .writerDownReport => Sys2Proof.Machine.execWriterDownReport s
  | .vfFlr vf => Sys2Proof.Machine.execVfFlr vf s
  | .flrDrainComplete vf => Sys2Proof.Machine.execFlrDrainComplete vf s
  | .flrScrubComplete vf => Sys2Proof.Machine.execFlrScrubComplete vf s
  | .containmentFlr vf => Sys2Proof.Machine.execContainmentFlr vf s
  | .moduleReset => Sys2Proof.Machine.execModuleReset s
  | .powerOn => Sys2Proof.Machine.execPowerOn s
  | .coreFatalFault core => Sys2Proof.Machine.execCoreFatalFault core s
  | .hostLinkRequest request => Sys2Proof.Machine.execHostLinkRequest request s
  | .imageWrite image => Sys2Proof.Machine.execImageWrite image s
  | .attestationRequest nonce => Sys2Proof.Machine.execAttestationRequest nonce s
  | .softError target => Sys2Proof.Machine.execSoftError target s
  | .statedRunOverrun core => Sys2Proof.Machine.execStatedRunOverrun core s
  | .dataRateRetrainComplete stack => Sys2Proof.Machine.execDataRateRetrainComplete stack s
  | .refreshIntervalBoundary stack => Sys2Proof.Machine.execRefreshIntervalBoundary stack s
  | .mirrorPairingWrite index value => Sys2Proof.Machine.execMirrorPairingWrite index value s
  | .perstDeassertion => Sys2Proof.Machine.execPerstDeassertion s
  | .powerInterruption => Sys2Proof.Machine.execPowerInterruption s
  | .sadd f => Sys2Proof.Machine.execSadd f s
  | .ssub f => Sys2Proof.Machine.execSsub f s
  | .smul f => Sys2Proof.Machine.execSmul f s
  | .smulh f => Sys2Proof.Machine.execSmulh f s
  | .smulhu f => Sys2Proof.Machine.execSmulhu f s
  | .sdiv f => Sys2Proof.Machine.execSdiv f s
  | .sdivu f => Sys2Proof.Machine.execSdivu f s
  | .srem f => Sys2Proof.Machine.execSrem f s
  | .sremu f => Sys2Proof.Machine.execSremu f s
  | .sand f => Sys2Proof.Machine.execSand f s
  | .sor f => Sys2Proof.Machine.execSor f s
  | .sxor f => Sys2Proof.Machine.execSxor f s
  | .sshl f => Sys2Proof.Machine.execSshl f s
  | .sshr f => Sys2Proof.Machine.execSshr f s
  | .ssra f => Sys2Proof.Machine.execSsra f s
  | .saddi f => Sys2Proof.Machine.execSaddi f s
  | .sandi f => Sys2Proof.Machine.execSandi f s
  | .sori f => Sys2Proof.Machine.execSori f s
  | .sxori f => Sys2Proof.Machine.execSxori f s
  | .sshli f => Sys2Proof.Machine.execSshli f s
  | .sshri f => Sys2Proof.Machine.execSshri f s
  | .ssrai f => Sys2Proof.Machine.execSsrai f s
  | .sli f => Sys2Proof.Machine.execSli f s
  | .slih f => Sys2Proof.Machine.execSlih f s
  | .sclz f => Sys2Proof.Machine.execSclz f s
  | .spop f => Sys2Proof.Machine.execSpop f s
  | .smin f => Sys2Proof.Machine.execSmin f s
  | .smax f => Sys2Proof.Machine.execSmax f s
  | .sminu f => Sys2Proof.Machine.execSminu f s
  | .smaxu f => Sys2Proof.Machine.execSmaxu f s
  | .scmp f => Sys2Proof.Machine.execScmp f s
  | .ssel f => Sys2Proof.Machine.execSsel f s
  | .sextU f => Sys2Proof.Machine.execSextU f s
  | .sextS f => Sys2Proof.Machine.execSextS f s
  | .sins f => Sys2Proof.Machine.execSins f s
  | .sfadd f => Sys2Proof.Machine.execSfadd f s
  | .sfsub f => Sys2Proof.Machine.execSfsub f s
  | .sfmul f => Sys2Proof.Machine.execSfmul f s
  | .sfma f => Sys2Proof.Machine.execSfma f s
  | .sfcmp f => Sys2Proof.Machine.execSfcmp f s
  | .sfcvtF32I64 f => Sys2Proof.Machine.execSfcvtF32I64 f s
  | .sfcvtF32U64 f => Sys2Proof.Machine.execSfcvtF32U64 f s
  | .sfcvtI64F32 f => Sys2Proof.Machine.execSfcvtI64F32 f s
  | .sfcvtU64F32 f => Sys2Proof.Machine.execSfcvtU64F32 f s
  | .sfcvtF32Bf16 f => Sys2Proof.Machine.execSfcvtF32Bf16 f s
  | .sfcvtF32F16 f => Sys2Proof.Machine.execSfcvtF32F16 f s
  | .sfcvtBf16F32 f => Sys2Proof.Machine.execSfcvtBf16F32 f s
  | .sfcvtF16F32 f => Sys2Proof.Machine.execSfcvtF16F32 f s
  | .sfcvtF32Fx32 f => Sys2Proof.Machine.execSfcvtF32Fx32 f s
  | .sfcvtFx32F32 f => Sys2Proof.Machine.execSfcvtFx32F32 f s
  | .sfmin f => Sys2Proof.Machine.execSfmin f s
  | .sfmax f => Sys2Proof.Machine.execSfmax f s
  | .br f => Sys2Proof.Machine.execBr f s
  | .brc f => Sys2Proof.Machine.execBrc f s
  | .bri f => Sys2Proof.Machine.execBri f s
  | .call f => Sys2Proof.Machine.execCall f s
  | .ret f => Sys2Proof.Machine.execRet f s
  | .loop f => Sys2Proof.Machine.execLoop f s
  | .loopp f => Sys2Proof.Machine.execLoopp f s
  | .lexit f => Sys2Proof.Machine.execLexit f s
  | .rep f => Sys2Proof.Machine.execRep f s
  | .spawn f => Sys2Proof.Machine.execSpawn f s
  | .yield f => Sys2Proof.Machine.execYield f s
  | .chk f => Sys2Proof.Machine.execChk f s
  | .chkm f => Sys2Proof.Machine.execChkm f s
  | .trap f => Sys2Proof.Machine.execTrap f s
  | .rett f => Sys2Proof.Machine.execRett f s
  | .sysrd f => Sys2Proof.Machine.execSysrd f s
  | .syswr f => Sys2Proof.Machine.execSyswr f s
  | .setfmt f => Sys2Proof.Machine.execSetfmt f s
  | .settb f => Sys2Proof.Machine.execSettb f s
  | .twait f => Sys2Proof.Machine.execTwait f s
  | .trealign f => Sys2Proof.Machine.execTrealign f s
  | .glchk f => Sys2Proof.Machine.execGlchk f s
  | .halt f => Sys2Proof.Machine.execHalt f s
  | .flclr f => Sys2Proof.Machine.execFlclr f s
  | .vaddF32 f => Sys2Proof.Machine.execVaddF32 f s
  | .vaddBf16 f => Sys2Proof.Machine.execVaddBf16 f s
  | .vaddF16 f => Sys2Proof.Machine.execVaddF16 f s
  | .vsubF32 f => Sys2Proof.Machine.execVsubF32 f s
  | .vsubBf16 f => Sys2Proof.Machine.execVsubBf16 f s
  | .vsubF16 f => Sys2Proof.Machine.execVsubF16 f s
  | .vmulF32 f => Sys2Proof.Machine.execVmulF32 f s
  | .vmulBf16 f => Sys2Proof.Machine.execVmulBf16 f s
  | .vmulF16 f => Sys2Proof.Machine.execVmulF16 f s
  | .vfmaF32 f => Sys2Proof.Machine.execVfmaF32 f s
  | .vfmaBf16 f => Sys2Proof.Machine.execVfmaBf16 f s
  | .vfmaF16 f => Sys2Proof.Machine.execVfmaF16 f s
  | .vfmsF32 f => Sys2Proof.Machine.execVfmsF32 f s
  | .vfmsBf16 f => Sys2Proof.Machine.execVfmsBf16 f s
  | .vfmsF16 f => Sys2Proof.Machine.execVfmsF16 f s
  | .vminF32 f => Sys2Proof.Machine.execVminF32 f s
  | .vminBf16 f => Sys2Proof.Machine.execVminBf16 f s
  | .vminF16 f => Sys2Proof.Machine.execVminF16 f s
  | .vmaxF32 f => Sys2Proof.Machine.execVmaxF32 f s
  | .vmaxBf16 f => Sys2Proof.Machine.execVmaxBf16 f s
  | .vmaxF16 f => Sys2Proof.Machine.execVmaxF16 f s
  | .vabsF32 f => Sys2Proof.Machine.execVabsF32 f s
  | .vabsBf16 f => Sys2Proof.Machine.execVabsBf16 f s
  | .vabsF16 f => Sys2Proof.Machine.execVabsF16 f s
  | .vnegF32 f => Sys2Proof.Machine.execVnegF32 f s
  | .vnegBf16 f => Sys2Proof.Machine.execVnegBf16 f s
  | .vnegF16 f => Sys2Proof.Machine.execVnegF16 f s
  | .vcmpF32 f => Sys2Proof.Machine.execVcmpF32 f s
  | .vcmpBf16 f => Sys2Proof.Machine.execVcmpBf16 f s
  | .vcmpF16 f => Sys2Proof.Machine.execVcmpF16 f s
  | .vclampF32 f => Sys2Proof.Machine.execVclampF32 f s
  | .vclampBf16 f => Sys2Proof.Machine.execVclampBf16 f s
  | .vclampF16 f => Sys2Proof.Machine.execVclampF16 f s
  | .vsel f => Sys2Proof.Machine.execVsel f s
  | .viaddI32 f => Sys2Proof.Machine.execViaddI32 f s
  | .viaddI16 f => Sys2Proof.Machine.execViaddI16 f s
  | .visubI32 f => Sys2Proof.Machine.execVisubI32 f s
  | .visubI16 f => Sys2Proof.Machine.execVisubI16 f s
  | .vimulI32 f => Sys2Proof.Machine.execVimulI32 f s
  | .vimulI16 f => Sys2Proof.Machine.execVimulI16 f s
  | .viminI32 f => Sys2Proof.Machine.execViminI32 f s
  | .viminI16 f => Sys2Proof.Machine.execViminI16 f s
  | .vimaxI32 f => Sys2Proof.Machine.execVimaxI32 f s
  | .vimaxI16 f => Sys2Proof.Machine.execVimaxI16 f s
  | .vicmpI32 f => Sys2Proof.Machine.execVicmpI32 f s
  | .vicmpI16 f => Sys2Proof.Machine.execVicmpI16 f s
  | .vand f => Sys2Proof.Machine.execVand f s
  | .vor f => Sys2Proof.Machine.execVor f s
  | .vxor f => Sys2Proof.Machine.execVxor f s
  | .vshl f => Sys2Proof.Machine.execVshl f s
  | .vshr f => Sys2Proof.Machine.execVshr f s
  | .vsra f => Sys2Proof.Machine.execVsra f s
  | .vfxadd f => Sys2Proof.Machine.execVfxadd f s
  | .vfxsub f => Sys2Proof.Machine.execVfxsub f s
  | .vqfx f => Sys2Proof.Machine.execVqfx f s
  | .vfxf f => Sys2Proof.Machine.execVfxf f s
  | .vcvtBf16F32 f => Sys2Proof.Machine.execVcvtBf16F32 f s
  | .vcvtF16F32 f => Sys2Proof.Machine.execVcvtF16F32 f s
  | .vcvtF32Bf16 f => Sys2Proof.Machine.execVcvtF32Bf16 f s
  | .vcvtF32F16 f => Sys2Proof.Machine.execVcvtF32F16 f s
  | .vcvtI32F32 f => Sys2Proof.Machine.execVcvtI32F32 f s
  | .vcvtF32I32 f => Sys2Proof.Machine.execVcvtF32I32 f s
  | .vcvtI16F32 f => Sys2Proof.Machine.execVcvtI16F32 f s
  | .vcvtF32I16 f => Sys2Proof.Machine.execVcvtF32I16 f s
  | .vsplit3 f => Sys2Proof.Machine.execVsplit3 f s
  | .vmov f => Sys2Proof.Machine.execVmov f s
  | .vli f => Sys2Proof.Machine.execVli f s
  | .vidx f => Sys2Proof.Machine.execVidx f s
  | .vbcastScalar f => Sys2Proof.Machine.execVbcastScalar f s
  | .vbcastLane f => Sys2Proof.Machine.execVbcastLane f s
  | .vextr f => Sys2Proof.Machine.execVextr f s
  | .vslide f => Sys2Proof.Machine.execVslide f s
  | .vperm f => Sys2Proof.Machine.execVperm f s
  | .vsumo f => Sys2Proof.Machine.execVsumo f s
  | .vsumxXa f => Sys2Proof.Machine.execVsumxXa f s
  | .vsumxF32 f => Sys2Proof.Machine.execVsumxF32 f s
  | .vmaxr f => Sys2Proof.Machine.execVmaxr f s
  | .vminr f => Sys2Proof.Machine.execVminr f s
  | .vstatu f => Sys2Proof.Machine.execVstatu f s
  | .vstatw f => Sys2Proof.Machine.execVstatw f s
  | .vstatm f => Sys2Proof.Machine.execVstatm f s
  | .vstath f => Sys2Proof.Machine.execVstath f s
  | .vstateClr f => Sys2Proof.Machine.execVstateClr f s
  | .vstateVar f => Sys2Proof.Machine.execVstateVar f s
  | .vstateSvar f => Sys2Proof.Machine.execVstateSvar f s
  | .vstateRstd f => Sys2Proof.Machine.execVstateRstd f s
  | .vglint f => Sys2Proof.Machine.execVglint f s
  | .vrngBits f => Sys2Proof.Machine.execVrngBits f s
  | .vrngUnif f => Sys2Proof.Machine.execVrngUnif f s
  | .vamax f => Sys2Proof.Machine.execVamax f s
  | .mand f => Sys2Proof.Machine.execMand f s
  | .mor f => Sys2Proof.Machine.execMor f s
  | .mxor f => Sys2Proof.Machine.execMxor f s
  | .mnot f => Sys2Proof.Machine.execMnot f s
  | .mpop f => Sys2Proof.Machine.execMpop f s
  | .mfirst f => Sys2Proof.Machine.execMfirst f s
  | .vxadd f => Sys2Proof.Machine.execVxadd f s
  | .vxcvtXaF32 f => Sys2Proof.Machine.execVxcvtXaF32 f s
  | .vxcvtF32Xa f => Sys2Proof.Machine.execVxcvtF32Xa f s
  | .xexp2 f => Sys2Proof.Machine.execXexp2 f s
  | .xlog2 f => Sys2Proof.Machine.execXlog2 f s
  | .xrcp f => Sys2Proof.Machine.execXrcp f s
  | .xrsqrt f => Sys2Proof.Machine.execXrsqrt f s
  | .xsqrt f => Sys2Proof.Machine.execXsqrt f s
  | .xtanh f => Sys2Proof.Machine.execXtanh f s
  | .xsigm f => Sys2Proof.Machine.execXsigm f s
  | .xsin f => Sys2Proof.Machine.execXsin f s
  | .xcos f => Sys2Proof.Machine.execXcos f s
  | .xqbx f => Sys2Proof.Machine.execXqbx f s
  | .xdqbx f => Sys2Proof.Machine.execXdqbx f s
  | .xscale f => Sys2Proof.Machine.execXscale f s
  | .mcall f => Sys2Proof.Machine.execMcall f s
  | .mdrain f => Sys2Proof.Machine.execMdrain f s
  | .mdrainAo f => Sys2Proof.Machine.execMdrainAo f s
  | .mdrainAu f => Sys2Proof.Machine.execMdrainAu f s
  | .mdrainN f => Sys2Proof.Machine.execMdrainN f s
  | .mzero f => Sys2Proof.Machine.execMzero f s
  | .mpset f => Sys2Proof.Machine.execMpset f s
  | .mucld f => Sys2Proof.Machine.execMucld f s
  | .mbld f => Sys2Proof.Machine.execMbld f s
  | .thset f => Sys2Proof.Machine.execThset f s
  | .mchks f => Sys2Proof.Machine.execMchks f s
  | .ld8 f => Sys2Proof.Machine.execLd8 f s
  | .ld16 f => Sys2Proof.Machine.execLd16 f s
  | .ld32 f => Sys2Proof.Machine.execLd32 f s
  | .ld64 f => Sys2Proof.Machine.execLd64 f s
  | .st8 f => Sys2Proof.Machine.execSt8 f s
  | .st16 f => Sys2Proof.Machine.execSt16 f s
  | .st32 f => Sys2Proof.Machine.execSt32 f s
  | .st64 f => Sys2Proof.Machine.execSt64 f s
  | .vld f => Sys2Proof.Machine.execVld f s
  | .vst f => Sys2Proof.Machine.execVst f s
  | .vldt f => Sys2Proof.Machine.execVldt f s
  | .vldb f => Sys2Proof.Machine.execVldb f s
  | .vgath f => Sys2Proof.Machine.execVgath f s
  | .vscat f => Sys2Proof.Machine.execVscat f s
  | .probe f => Sys2Proof.Machine.execProbe f s
  | .pref f => Sys2Proof.Machine.execPref f s
  | .cpygs f => Sys2Proof.Machine.execCpygs f s
  | .cpysg f => Sys2Proof.Machine.execCpysg f s
  | .cpyss f => Sys2Proof.Machine.execCpyss f s
  | .cpyb f => Sys2Proof.Machine.execCpyb f s
  | .drainl f => Sys2Proof.Machine.execDrainl f s
  | .drainr f => Sys2Proof.Machine.execDrainr f s
  | .drainc f => Sys2Proof.Machine.execDrainc f s
  | .barinit f => Sys2Proof.Machine.execBarinit f s
  | .barinitTree f => Sys2Proof.Machine.execBarinitTree f s
  | .bararv f => Sys2Proof.Machine.execBararv f s
  | .barwait f => Sys2Proof.Machine.execBarwait f s
  | .aadd f => Sys2Proof.Machine.execAadd f s
  | .amin f => Sys2Proof.Machine.execAmin f s
  | .amax f => Sys2Proof.Machine.execAmax f s
  | .aand f => Sys2Proof.Machine.execAand f s
  | .aor f => Sys2Proof.Machine.execAor f s
  | .axor f => Sys2Proof.Machine.execAxor f s
  | .aswp f => Sys2Proof.Machine.execAswp f s
  | .acas f => Sys2Proof.Machine.execAcas f s
  | .afaddo f => Sys2Proof.Machine.execAfaddo f s
  | .afaddu f => Sys2Proof.Machine.execAfaddu f s
  | .axadd f => Sys2Proof.Machine.execAxadd f s
  | .astat f => Sys2Proof.Machine.execAstat f s
  | .astatO f => Sys2Proof.Machine.execAstatO f s
  | .waitv f => Sys2Proof.Machine.execWaitv f s
  | .chsend f => Sys2Proof.Machine.execChsend f s
  | .chrecv f => Sys2Proof.Machine.execChrecv f s
  | .srcmdXadd f => Sys2Proof.Machine.execSrcmdXadd f s
  | .srcmdFaddo f => Sys2Proof.Machine.execSrcmdFaddo f s
  | .srcmdFaddu f => Sys2Proof.Machine.execSrcmdFaddu f s
  | .srcmdMax f => Sys2Proof.Machine.execSrcmdMax f s
  | .srcmdMin f => Sys2Proof.Machine.execSrcmdMin f s
  | .srcmdStato f => Sys2Proof.Machine.execSrcmdStato f s
  | .srcmdStatu f => Sys2Proof.Machine.execSrcmdStatu f s
  | .srcmdFwd f => Sys2Proof.Machine.execSrcmdFwd f s
  | .srcmdBx4d f => Sys2Proof.Machine.execSrcmdBx4d f s
  | .jemit f => Sys2Proof.Machine.execJemit f s
  | .jcmp f => Sys2Proof.Machine.execJcmp f s
  | .jmark f => Sys2Proof.Machine.execJmark f s
  | .jtrunc f => Sys2Proof.Machine.execJtrunc f s

end Sys2Proof.Machine
end

