-- ==== Sys2Proof/Machine/Due.lean ====
section
/-! DEFINITION. Which step of the machine's own is due, in the order in which one cycle performs them, and what a cycle's end does
(log 4). Only the steps whose constructors Lean's code generator has no room for make this noncomputable. -/

namespace Sys2Proof.Machine

/-! Accesses (R258 to R265). -/

/-- What performs an access. -/
def accessStep (s : State) (a : Access) : Instr :=
  match a.kind, a.trans, a.flight with
  | .load, .fault k, some f =>
    match (s.flightOf f).bind Flight.latchIndex with
    | some _ => .latchedLoadFault a.id k a.va
    | none => .loadDataArrival a.id
  | .load, _, _ | .column _, _, _ => .loadDataArrival a.id
  | .store, _, _ | .drainRow _ _, _, _ | .record _, _, _ => .storePerform a.id
  | _, _, _ => .syeRequestArrival a.id

/-- Whether nothing but earlier accesses holds an access back: it is translated, its store's other units too, and the engine work
before it is done. -/
def accessFree (s : State) (a : Access) : Bool :=
  !a.performed && !a.trans.isOpen && !(a.kind = .store && a.pieces.any (fun p => p.trans.isOpen)) && holdEnginesDone s a.deps &&
    !(a.origin.isSome && !a.engine && s.work.accesses.any (fun b => b.origin = a.origin && !b.engine && b.trans = .waiting))

/-- Whether an access only reads. -/
def Access.reads (a : Access) : Bool := match a.kind with | .load | .column _ => true | _ => false

/-- Whether an access waits for another one. -/
def Access.waitsFor (b a : Access) : Bool := b.deps.accs.contains a.id || (match a.origin with | some o => b.deps.cmds.contains o | none => false)

/-- Accesses, each with the cycle at which it performs so that those that wait for it may at theirs: a write that a read waits for performs a cycle
before it at the latest, since a cycle's reads come first. -/
def dueTimes (l : List Access) : List (Access × Nat) :=
  l.foldr (fun a acc => (a, acc.foldl (fun t e => if e.1.waitsFor a then min t (if e.1.reads && !a.reads then e.2 - 1 else e.2) else t) a.at_) :: acc) []

/-- The accesses that only read, or the others, whose cycle has come and which nothing holds back, in the order of R258. -/
def accessesDue (s : State) (reads : Bool) : List Access :=
  sortBy (accessRank s) (((dueTimes (s.work.accesses.filter (fun a => !a.performed))).filter (fun e =>
    e.1.reads = reads && e.2 ≤ s.cyc && accessFree s e.1 && (pendingOf s e.1.deps).isEmpty &&
      (reads || !overtaken s (accessRank s e.1) (e.1.place s).1 (e.1.place s).2 e.1.size))).map (fun e => e.1))

/-- The access whose fault has been found, or the write that performs next (R258). -/
def accessDue (s : State) : Option Instr :=
  match s.work.accesses.find? (fun a => !a.performed && (match a.trans with | .fault _ => true | _ => false)) with
  | some a => some (accessStep s a)
  | none => (accessesDue s false).head?.map (accessStep s)

/-! Results, waits, engines. -/

/-- A result that lands, or a promise that is missed (R27, R28, R208). -/
def resultDue (s : State) : Option Instr :=
  match s.work.flights.find? (fun f => landable f && f.due ≤ s.cyc) with
  | some f => some (.resultLand f.id)
  | none =>
    (s.work.flights.find? (fun f => 0 < f.missing && f.due ≤ s.cyc && (match f.mode with | .returning _ => false | _ => true))).map
      (fun f => .loadPromiseMiss f.id)

/-- A sequencer whose wait ends. -/
def waitDue (s : State) : Option Instr :=
  s.seqs.findSome? fun e =>
    if e.2.run ≠ .wait then none
    else
      match e.2.wait with
      | .none => none
      | .twait t => if t.toNat ≤ s.gtime then some (.twaitRelease e.1) else none
      | .trealign k => if s.chip.tbu.lock && s.gtime % 2 ^ k = 0 then some (.trealignRelease e.1) else none
      | .chrecv ch _ _ _ _ => if 0 < chtCount (s.chtOf (e.1 / 4) ch) then some (.chrecvWake e.1) else none
      | .barwait _ _ _ _ => if reportDue s e.1 then some (.barwaitReport e.1) else none
      | .waitv _ _ _ _ _ _ => if reportDue s e.1 then some (.waitvWake e.1 (match e.2.report with | some r => r.2 | none => false)) else none

/-- An XE command that ends (R187, R194). -/
def commandDue (s : State) : Option Instr :=
  s.work.commands.findSome? fun y =>
    if !y.started || s.cyc < y.finish then none
    else
      match y.kind with
      | .srd _ _ _ => none
      | .mcall _ => if y.stopped || y.routine.ended then some (.engineCommandEnd y.id) else some (.mxeRoutineOverrun y.id)
      | _ => some (.engineCommandEnd y.id)

/-- A copy's first chunk, once written. -/
def chunkDue (s : State) (y : Copy) : Option Instr :=
  match y.chunks with | k :: _ => if chunkWritten s y then some (.copyChunkComplete y.id k.crc) else none | [] => none

/-- A copy or a PROBE fill that moves on (R213, R216, R217). -/
def copyDue (s : State) : Option Instr :=
  s.work.copies.findSome? fun y =>
    match y.fault, y.probe with
    | some f, none => if y.chunks.isEmpty then some (.copySuspend y.id f.1 f.2) else chunkDue s y
    | some _, some _ => some (.probeFillComplete y.id)
    | none, p =>
      if (chunkDue s y).isSome then chunkDue s y
      else if y.len ≤ y.cursor then some (if p.isSome then .probeFillComplete y.id else .copyComplete y.id)
      else none

/-- The numbers of the stacks, and of the virtual functions. -/
def stackNumbers : List Nat := List.range 12
def vfNumbers : List Nat := (List.range 16).map (fun i => i + 1)

/-- A stack reducer that begins or completes its step (R320). -/
def reducerDue (s : State) : Option Instr :=
  stackNumbers.findSome? fun k =>
    if beginDue s k then some (.srdStepBegin k) else if (stepDue s k).isSome then some (.srdStepComplete k) else none

/-! The fabric and the journal. -/

/-- A flit that has waited too long, a pause that ends, flits without a route (R312, R314, R326). -/
def portDue (s : State) : Option Instr :=
  match s.chip.ports.findSome? (fun e => ((List.range 8).find? (fun lane => (waitedFlit s e.1 lane).isSome)).map (fun lane => Instr.collectiveWaitTimeout e.1 lane)) with
  | some i => some i
  | none =>
    match s.chip.routeHold.find? (fun e => noRouteDue s e.1) with
    | some e => some (.noRouteTimeout e.1)
    | none => s.chip.ports.findSome? (fun e => (e.2.paused.find? (fun p => p.2 ≤ s.cyc)).map (fun p => .pauseExpiry e.1 p.1))

/-- A step of the journal's (R338 to R341, R344). -/
def journalDue (s : State) : Option Instr :=
  if s.chip.fatal then none
  else if partnerSilent s then some .partnerFailureTimeout
  else if resendDue s then some .journalResendTimeout
  else if reseeded s then some .spareReseedComplete
  else if writerSilent s then some .writerFailureTimeout
  else if (emissionDue s).isSome then some .emissionPerform
  else none

/-! Launches. -/

/-- The step that takes a packet which is not refused as malformed (R281). -/
def packetStep (p : Packet) : Option Instr :=
  match packetField p 0 8 with
  | 1 => some (.launch p)
  | 2 => some (.detlevel p)
  | 3 => some (.qset p)
  | 4 => some (.quiesce p)
  | 5 => some (.restore p)
  | 6 => some (.resume p)
  | 7 => some (.abort p)
  | _ => none

/-- The packet that the SL4 takes next (R282), once the pages of its lists have been walked (R243): none in the fatal state (R362). -/
def packetDue (s : State) : Option Packet :=
  if s.chip.fatal then none
  else (s.chip.rings.find? (fun e => ringReady s e.1 && (packetBad s (ringPacket s e.1) || packetMapped s (ringPacket s e.1)))).map (fun e => ringPacket s e.1)

/-- A launch that is done, starts, or starts a task (R283, R284, R290). -/
def launchDue (s : State) : Option Instr :=
  match s.work.launches.find? (fun l => l.remaining.isEmpty) with
  | some l => some (.launchDone l.id)
  | none =>
    match s.cores.find? (fun e => (match taskReady s e.1 with | some t => mapped s e.1 t.1.fn (t.1.taskList + 16 * t.2) 16 false | none => false)) with
    | some e => some (.taskStart e.1)
    | none =>
      if s.chip.fatal then none
      else s.work.launches.findSome? (fun l => (l.cores.find? (launchReady s l)).map (fun c => .launchStart l.id c))

/-- A slice that ends, a decision of the arbiter, a switch that completes, a deadline (R286 to R288, R291). -/
def coreDue (s : State) : Option Instr :=
  s.cores.findSome? fun e =>
    let c := e.1
    if sliceWatched e.2 && sliceEnd e.2 ≤ s.cyc then some (.sliceReset c)
    else if idleDecision s c then some (.arbiterIdleGrant c)
    else if (match e.2.switching with | some (_, t) => t ≤ s.cyc && settledCore s c && !e.2.outOfService | none => false) then some (.queueSwitchComplete c)
    else if deadlineDue s c then some (.deadlineFault c)
    else
      match (List.range 8).find? (fun n => graceOver s c n && (s.launchOf c n).isSome) with
      | some n => some (.deadlineAbort c n)
      | none => if overrunDue s c then some (.statedRunOverrun c) else none

/-- A Quiesce that cuts or gives up (R303). -/
def quiesceDue (s : State) : Option Instr :=
  s.chip.quiesces.findSome? fun z =>
    if z.cut then none
    else if cutReady s z.fn then some (.quiesceCutComplete z.fn)
    else if z.deadline ≤ s.cyc && (!stoppedFn s z.fn || !journalSettled s z) then some (.quiesceTimeout z.fn)
    else none

/-- A function reset that moves on (R352). -/
def resetDue (s : State) : Option Instr :=
  vfNumbers.findSome? fun v => if drainDone s v then some (.flrDrainComplete v) else if scrubDone s v then some (.flrScrubComplete v) else none

/-- A stack whose base-die core falls silent, re-evaluates the refresh rates, or takes refresh back (R249, R250). -/
noncomputable def stackDue (s : State) : Option Instr :=
  stackNumbers.findSome? fun k =>
    if beatMissed s k then some (.heartbeatTimeout k)
    else if boundaryDue s k then some (.refreshIntervalBoundary k)
    else if evalDue s k then some (.refreshRateEval k ((List.range 16).map (fun i => (SMap.get 0 s.chip.lantern.sensors (layerSensor k i)).toNat)))
    else none

/-- A LOOPP pass whose results have all landed rolls back (R126). -/
def rollbackDue (s : State) : Option Instr :=
  (s.seqs.find? (fun e => e.2.passEnd.isSome && e.2.rollback.isSome && !e.2.loops.isEmpty && e.2.rep.isNone &&
    !(s.work.flights.any (fun f => f.q = e.1 && !f.engine)))).map (fun e => .looppRollback e.1)

/-! All of them. -/

/-- The read that comes next: a walk that ends, a load, a chunk of a copy. Reads come first in a cycle: they belong to the cycle before, and see all
that its bundles and its events have written (R258; log 4). -/
def readDue (s : State) : Option Instr :=
  match s.work.walks.find? (fun w => w.started && w.at_ ≤ s.cyc) with
  | some w => some (.tlbWalkComplete w.id)
  | none =>
    match accessesDue s true with
    | a :: _ => some (accessStep s a)
    | [] => (s.work.copies.find? (readsChunk s)).map (fun y => .engineCommandStart y.id)

/-- The first step that is due, of those whose constructors the code generator has room for; the MXE's writes come last (R258). -/
noncomputable def machineDue (s : State) : Option Instr :=
    if invalidated s then some .tlbInvalidateComplete
    else
      [accessDue s, (s.work.accesses.find? (lateDue s)).map (fun a => .lateStoreFault a.id), resultDue s, waitDue s,
        (elementReady s).map (fun x => .channelElementArrival x.element), copyDue s, reducerDue s, portDue s, journalDue s, commandDue s,
        launchDue s, coreDue s, quiesceDue s, resetDue s, stackDue s, if heatDue s then some .heatMapPublish else none, rollbackDue s].findSome? id

/-- The first input that is due, with its removal from the agenda. -/
def inputDue (s : State) : Option (List Act × Instr) :=
  (s.work.agenda.find? (fun e => e.1 ≤ s.cyc)).map (fun e => ([Act.work (fun w => { w with agenda := w.agenda.erase e })], e.2))

/-- The step that takes up what has been put off. -/
noncomputable def PutOff.instr : PutOff → Instr
  | .range n off stage => .rangeMigration n off stage
  | .layer k i stage => .layerMapOut k i stage

/-- The first stage put off that is to be tried again, with its removal. -/
noncomputable def putOffDue (s : State) : Option (List Act × Instr) :=
  (s.work.putOff.find? (fun e => e.1 ≤ s.cyc)).map (fun e => ([Act.work (fun w => { w with putOff := w.putOff.erase e })], e.2.instr))

/-- The step that is due. -/
noncomputable def due (s : State) : Option (List Act × Instr) :=
  match (inputDue s).or (putOffDue s) with
  | some r => some r
  | none =>
    match machineDue s with
    | some i => some ([], i)
    | none =>
      match packetDue s with
      | some p => if packetBad s p then some ([], .badPacket p) else (packetStep p).map (fun i => ([], i))
      | none => (vfNumbers.find? (containDue s)).map (fun v => ([], .containmentFlr v))

/-- Whether the module stands still until something comes from outside: without power, or stopped by its thermal trip (R376, R377). -/
def stands (s : State) : Bool := s.chip.halted || !s.chip.lantern.powered

/-- The reads that begin a cycle; then its events come. -/
def readPhase (s : State) : Host.Outcome State Fault Refusal :=
  match (if stands s then none else readDue s) with
  | some i => exec i s
  | none => .next { s with phase := .events }

/-- Whether Lantern takes an input: power, resets, images, reports, readings, and the host link's requests, which it refuses but for configuration
(R362, R373 to R377). All others are the dies'. -/
def lanternInput : Instr → Bool
  | .moduleReset | .powerInterruption | .powerOn | .perstDeassertion | .imageWrite _ | .attestationRequest _ | .sensorSample _ _ | .hostLinkRequest _ => true
  | _ => false

/-- The input that comes next to a module whose cycles are not counted: the earliest. -/
def nextInput (s : State) : Option (List Act × Instr) :=
  (s.work.agenda.foldl (fun m e => match m with | some f => if e.1 < f.1 then some e else m | none => some e) none).map
    (fun e => ([Act.work (fun w => { w with agenda := w.agenda.erase e })], e.2))

/-- The events phase: the next step that is due; then the cores issue. To a module that stands still Lantern's inputs come, in their order, while CYC
stands and the dies' inputs are lost (R376); one that expects nothing is stopped (log 60). -/
noncomputable def eventPhase (s : State) : Host.Outcome State Fault Refusal :=
  if stands s then
    match nextInput s with
    | some (l, i) => if lanternInput i then exec i (applyActs l s) else done (l ++ [bump]) s
    | none => .fault .moduleStopped
  else
    match due s with
    | some (l, i) => exec i (applyActs l s)
    | none => .next { s with phase := .issue 0 }

/-! The end of a cycle. -/

/-- An engine command or copy that begins in this cycle, or the clocks of a running routine in it (R186, R191, R320); nothing begins in
the fatal state (R362). -/
def startDue (s : State) : Option Instr :=
  if s.chip.fatal || stands s then none
  else
    match s.work.commands.findSome? (fun y =>
        match y.kind with
        | .srd _ _ _ => if y.start ≤ s.cyc && holdClear s y.hold then some (Instr.srdStepEnqueue y.id) else none
        | .mcall _ =>
          if !y.started then (if mxeStarts s y then some (.engineCommandStart y.id) else none)
          else if !y.stopped && !y.routine.ended && y.routine.clocks < 4 * (s.cyc - y.start + 1) && s.cyc + 3 ≤ y.finish then some (.mxeRoutineStart y.id)
          else none
        | _ => if mxeStarts s y then some (.engineCommandStart y.id) else none) with
    | some i => some i
    | none => (s.work.copies.find? (copyReady s)).map (fun y => .engineCommandStart y.id)

/-- Own stores not yet released: those whose loads are outstanding, and those that one of these came before on a byte of theirs (R262). -/
def released (s : State) (l : List Unreleased) : List Unreleased :=
  l.foldl (fun acc u =>
    if u.outstanding s || acc.any (fun v => v.core = u.core && rangesMeet v.off v.old.length u.off u.old.length) then acc ++ [u] else acc) []

/-- Flags whose bound this cycle is are set (R36, R43, R146); stores of bundles whose loads have performed are released (R262). -/
def settleFlags (s : State) : List Act :=
  flagActsAll s (s.work.flagPosts.filter (fun p => p.due ≤ s.cyc)) ++
    [.work (fun w => { w with flagPosts := w.flagPosts.filter (fun p => s.cyc < p.due)
                              unreleased := released s w.unreleased, wrote := [] })]

/-- The pages, by core, function and address, that what the SL4, the reducers and the JNE are to do next needs: lists of packets, tasks, images of
launches, steps, a Quiesce's buffer, the next emission (R243; log 84). -/
def wantedPages (s : State) : List (Nat × Nat × Nat) :=
  let need := fun (c fn : Nat) (write : Bool) (l : List (Nat × Nat)) => l.flatMap (fun r => (unmapped s c fn r.1 r.2 write).map (fun a => (c, fn, a)))
  s.chip.rings.flatMap (fun e => if ringReady s e.1 && !packetBad s (ringPacket s e.1) then need 0 e.1 false (packetReads (ringPacket s e.1)) else []) ++
    s.cores.flatMap (fun e => match taskReady s e.1 with | some t => need e.1 t.1.fn false [(t.1.taskList + 16 * t.2, 16)] | none => []) ++
    s.work.launches.flatMap (fun l => if l.startAt.isSome then (l.remaining.filter (fun c => !hasBegun s l c)).flatMap (fun c => need c l.fn true (imageWrites s l c)) else []) ++
    stackNumbers.flatMap (fun k => match s.chip.srd k with
      | x :: _ => if x.begun && x.out.isNone then need (x.q / 4) x.fn false x.reads ++ need (x.q / 4) x.fn true x.writes else []
      | [] => []) ++
    s.chip.quiesces.flatMap (fun z => if !z.cut && !z.own && stoppedFn s z.fn && drainedFn s z.fn then need 0 z.ring true [(z.buf, imageLength s z.fn)] else []) ++
    (match s.chip.emits.find? (fun e => !e.silent) with
     | some e => if (emitChannel e.target).isNone && windowOf e.target.toNat = 1 && e.sent.isNone then need (e.q / 4) e.fn true [(e.target.toNat, 8)] else []
     | none => [])

/-- The walks that these begin; a page that has met its fault is not walked again while one still waits to meet it. -/
def startWalks (s : State) : Act :=
  let l := wantedPages s
  .work (fun w =>
    let w := { w with failed := w.failed.filter (fun f => l.any (fun p => f = (p.1 / 256, p.2.1, p.2.2 / 4096))) }
    (l.filter (fun p => !(w.failed.contains (p.1 / 256, p.2.1, p.2.2 / 4096)))).foldl (fun w p => w.walkFor s p.1 p.2.1 p.2.2 (s.cyc + 1 + s.choice 800) none) w)

/-- The host link is up from its cycle on (R377). -/
def linkUp (s : State) : List Act :=
  match s.chip.lantern.upAt with
  | some t => if t ≤ s.cyc then [modLantern (fun l => { l with up := true, upAt := none })] else []
  | none => []

/-- What one cycle counts, sends and sets, and the next cycle. -/
def cycleEnd (s : State) : List Act :=
  (if stands s then []
   else
    settleFlags s ++ deferredRetrains s ++ [startWalks s] ++ countCycle s ++ linkUp s ++
      (if s.chip.fatal then [] else [.chip (fun h => elementsLeave s (h.linkCycle s.cyc))]) ++ [.tick]) ++ [.phase .reads]

/-- The close of a cycle: what begins in it, then its end. -/
def closePhase (s : State) : Host.Outcome State Fault Refusal :=
  match startDue s with
  | some i => exec i s
  | none => done (cycleEnd s) s

end Sys2Proof.Machine
end

