-- ==== Sys2Proof/Machine/Turn.lean ====
section
/-! DEFINITION. A core's turn in a cycle: whose it is, the trap it takes, or the bundle it issues (02 R16, R17, 12 R275 to R277, 13 R299 to
R301). The turn of an ordinary bundle is noncomputable only because the decoder is. -/

namespace Sys2Proof.Machine

/-- The sequencer a cycle belongs to (R16). -/
def turnSeq (s : State) (c : Nat) : Nat := 4 * c + s.cyc % max (s.coreOf c).width 1

/-- Whether a core issues at all (R286, R287, R362, R363, R376, R377). -/
def coreRuns (s : State) (c : Nat) : Bool :=
  let y := s.coreOf c
  !s.chip.fatal && !s.chip.halted && s.chip.lantern.powered && y.switching.isNone && !coreIdle y s.cyc && !y.outOfService

/-- Whether a sequencer stands at a boundary at which it may take a trap or issue (R17, R126, R276). -/
def atBoundary (s : State) (q : Nat) : Bool :=
  let y := s.seqOf q
  (y.run = .run || y.run = .wait || y.run = .parked) && y.resumeAt ≤ s.cyc && y.passEnd.isNone

/-- Whether a pending deferred event may be delivered: its cycle has come, and a latch it belongs to has landed (R188, R277). -/
def deliverable (s : State) (e : Pending) : Bool :=
  e.notBefore ≤ s.cyc &&
    (match e.flight with
     | none => true
     | some id =>
       match s.flightOf id with
       | none => true
       | some f => (match f.mode with | .live => !f.returned || f.due ≤ s.cyc | .returning c => c ≤ 0 | _ => false))

/-- The trap that a sequencer outside a handler takes at this boundary, in the order of R301, with what precedes it. -/
def asyncTrap (s : State) (q : Nat) : Option (List Act × Instr) :=
  let y := s.seqOf q
  if y.hnd then none
  else if y.deadline then some ([], .trapEntry q (asyncCause s q 0x31))
  else
    match y.events.find? (deliverable s) with
    | some e => some ([.seq q (fun z => { z with events := e :: z.events.erase e })], .trapEntry q ⟨e.code, some e.slot, true, 0, e.faddr⟩)
    | none =>
      if timerDue y s.cyc then some ([], .timerInterrupt q)
      else
        match y.orderFaults with
        | e :: _ => if e.notBefore ≤ s.cyc then some ([], .trapEntry q ⟨0x33, some e.slot, false, 0, e.faddr⟩) else none
        | [] => none

/-- The precise trap of a TRAP instruction or of poison escalation, due before the next bundle (R127, R141): that of a TRAP beside
a wait once the wait has ended (log 93). -/
def syncTrap (s : State) (q : Nat) : Option (List Act × Instr) :=
  let y := s.seqOf q
  if y.run ≠ .run then none
  else
    match y.sync with
    | some cause => some ([], .trapEntry q cause)
    | none => if y.escalate then some ([], .trapEntry q ⟨cEscalation, none, false, 0, y.pc⟩) else none

/-- The trap at a sequencer's boundary, found before its bundle is looked at. -/
def boundaryTrap (s : State) (q : Nat) : Option (List Act × Instr) :=
  match asyncTrap s q with
  | some r => some r
  | none => syncTrap s q

/-- Whether a core does anything with its turn in this cycle. -/
def hasTurn (s : State) (c : Nat) : Bool :=
  let q := turnSeq s c
  coreRuns s c && atBoundary s q && ((boundaryTrap s q).isSome || (s.seqOf q).run = .run)

/-- The next core, from c on, that does something with its turn. -/
def nextTurn (s : State) (c : Nat) : Option Nat := (s.seqs.map (fun e => e.1 / 4)).find? (fun d => c ≤ d && hasTurn s d)

/-- What the stream holds at an address: a bundle to issue, or the trap of an illegal stream or of a slot that does not decode (R77,
R90). -/
noncomputable def fetch (s : State) (q pc : Nat) : Except Cause Instr :=
  match fetchBundle s (q / 4) pc with
  | none => .error (precise cIllegalStream 0 pc)
  | some (b, _) =>
    match decodeFault b, decodeBundle b with
    | none, .ok i => .ok i
    | some (n, code), _ => .error (precise code n pc)
    | none, .error e => .error (precise (slotFaultCode e.2) e.1 pc)

/-- The turn of sequencer q: a trap, the next repetition of its REP, or its next bundle. -/
noncomputable def seqTurn (s : State) (q : Nat) : Host.Outcome State Fault Refusal :=
  match boundaryTrap s q with
  | some (l, i) => exec i (applyActs l s)
  | none =>
    match (s.seqOf q).rep with
    | some p =>
      match fetch s q p.addr with
      | .ok i => done (repeatActs s q p (slotsOf i) ++ [bump]) s
      | .error cause => exec (.trapEntry q cause) s
    | none =>
      match fetch s q (s.seqOf q).pc with
      | .ok i => exec i s
      | .error cause => exec (.trapEntry q cause) s

/-- The state in which core c takes its turn: the cursor at its sequencer, and the cores after it still to come. -/
def atTurn (s : State) (c : Nat) : State := { s with phase := .issue (c + 1), cur := ⟨turnSeq s c, 0⟩ }

/-- The issue phase from core c on: the next core takes its turn, or the cycle closes. -/
noncomputable def issuePhase (s : State) (c : Nat) : Host.Outcome State Fault Refusal :=
  match nextTurn s c with
  | some d => seqTurn (atTurn s d) (turnSeq s d)
  | none => .next { s with phase := .close }

end Sys2Proof.Machine
end

