-- ==== Sys2Proof/Machine/Step.lean ====
section
/-! DEFINITION. One step of the machine, and the placing of an instruction where the next step fetches. -/

namespace Sys2Proof.Machine

/-- One step (log 4): the next read or event of the cycle that is due, the next core's turn, or the close of the cycle. -/
noncomputable def step (s : State) : Host.Outcome State Fault Refusal :=
  match s.phase with
  | .reads => readPhase s
  | .events => eventPhase s
  | .issue c => issuePhase s c
  | .close => closePhase s

/-- A literal bundle as the stream stores it: the escape word, then its 48 bytes, the least significant first (R3, R73). -/
def streamWords (w : Nat) : List Byte := 0xFF :: 0xFF :: leBytes 48 w

/-- The state in which core 0 runs a stream that holds one literal bundle, w, at the address that sequencer 0 issues next, all rows in
its allotment; the turn is core 0's (log 3). -/
def State.withFetchWord (s : State) (_nbits w : Nat) : State :=
  { s with
    phase := .issue 0
    cores := SMap.set {} s.cores 0 { s.coreOf 0 with width := 1, allot := [512 * 2 ^ 10, 0, 0, 0], streamBytes := 50, stream := streamWords w
                                                     switching := none, idleUntil := none }
    seqs := SMap.set {} s.seqs 0 { run := .run }
    chip := { s.chip with fatal := false, halted := false, lantern := { s.chip.lantern with powered := true } } }

end Sys2Proof.Machine
end

