-- ==== Sys2Proof/Safety.lean ====
section
/-! DEFINITION. What the claims say of states and steps: the canonical form of every memory and register file, where a slot operation
that stands alone issues, the state it leaves, and what stays as it was. -/

namespace Sys2Proof.Machine

/-- Every memory, poison map and register file of the machine is in its one canonical form: keys rise, and no entry equals what an
unlisted key reads as. -/
structure Canonical (s : State) : Prop where
  seqs : SMap.wf {} s.seqs = true
  scalars : SMap.wf {} s.scalars = true
  masks : SMap.wf {} s.masks = true
  glints : SMap.wf {} s.glints = true
  laneFlags : SMap.wf 0 s.laneFlags = true
  cores : SMap.wf {} s.cores = true
  rows : SMap.wf {} s.rows = true
  mps : SMap.wf 0 s.mps = true
  ths : SMap.wf 0 s.ths = true
  spd : Memory.wf s.spd = true
  spdPoison : SMap.wf .clear s.spdPoison = true
  tags : SMap.wf 0 s.tags = true
  bos : Memory.wf s.bos = true
  bosPoison : SMap.wf .clear s.bosPoison = true
  dict : SMap.wf 0 s.dict = true
  ucode : SMap.wf 0 s.ucode = true
  routines : SMap.wf 0 s.routines = true
  cht : SMap.wf 0 s.cht = true
  ptt : SMap.wf {} s.ptt = true
  staging : SMap.wf {} s.staging = true
  sye : Memory.wf s.sye = true
  syePoison : SMap.wf .clear s.syePoison = true
  hbm : Memory.wf s.hbm = true
  hbmPoison : SMap.wf .clear s.hbmPoison = true
  host : Memory.wf s.host = true

/-- The kind of a home: the homes of one kind share one memory. -/
def Home.kind : Home → Nat
  | .spd _ => 0
  | .bos _ => 1
  | .sye _ => 2
  | .hbm => 3
  | .host => 4

/-- Where a slot operation of class c and opcode op that stands alone at the cursor issues. -/
def standing (c : SlotClass) (op : Nat) (s : State) : Ctx :=
  { q := s.cur.q, slot := slotFor c op s.cur.slot, addr := (s.seqOf s.cur.q).pc, size := sizeAt s s.cur.q }

/-- The same for a scalar operation of either S slot, for one that only S1 takes (R69), and for the V, X and M classes. -/
def atS (s : State) : Ctx := standing .s 0 s
def atS1 (s : State) : Ctx := standing .s 0x30 s
def atV (s : State) : Ctx := standing .v 0 s
def atX (s : State) : Ctx := standing .x 0 s
def atM (s : State) : Ctx := standing .m 0 s

/-- The state after an operation has issued alone: its effect, the move to the bundle nx that follows, and the counter of open choices. -/
def issued (x : Ctx) (nx : Next) (a : List Act) (s : State) : State :=
  applyActs (a ++ advance (applyActs a s) x.q x.addr x.size nx ++ [bump]) s

/-- The outcome of an operation that issues and is followed by the next bundle of the stream. -/
def goesOn (x : Ctx) (a : List Act) (s : State) : Host.Outcome State Fault Refusal := .next (issued x .seq a s)

/-- The sequencer of the cursor issues plainly: no latches of a trap wait to be counted again (R143), and no row of its core holds a
flipped bit that a read would correct (R359). -/
def Settled (s : State) : Prop := (s.seqOf s.cur.q).rearm = false ∧ ∀ n, (s.rowOf (s.cur.q / 4) n).flip = 0

/-- The sequencer of the cursor may have one more result in flight (R18). -/
def Room (s : State) : Prop := Settled s ∧ inFlightCount s s.cur.q < Config.inFlightLimit

/-- The sequencer of the cursor issues outside every LOOPP body (R128). -/
def Unpipelined (s : State) : Prop := passOf (s.seqOf s.cur.q) = none

/-- A branch target is in the stream of the core at the cursor and even (R76). -/
def InStream (s : State) (t : Int) : Prop := 0 ≤ t ∧ t % 2 = 0 ∧ t < (s.coreOf (s.cur.q / 4)).streamBytes

/-- A branch target lies in the innermost loop's body or at its end, if a loop runs (R122). -/
def InLoop (s : State) (t : Int) : Prop := ∀ e, (s.seqOf s.cur.q).loops.getLast? = some e → (e.start : Int) ≤ t ∧ t ≤ e.stop

/-- The pointer names a whole scale record outside the system area of the own scratchpad (R178). -/
def NamesRecord (p : SReg) : Prop :=
  p.poison = false ∧ 0xFF00000000000000 ≤ p.val.toNat ∧ p.val.toNat - 0xFF00000000000000 < 0x3E0000 ∧ p.val.toNat % 32 = 0

/-- The rows are in the allotment of the sequencer at the cursor (R25). -/
def Allotted (s : State) (l : List Nat) : Prop := ∀ n ∈ l, inAllotment s s.cur.q n = true

/-- The memories, register files and stores of two states are the same: only control state, work in progress and the module's own
registers may differ. -/
def SameStores (s t : State) : Prop :=
  t.scalars = s.scalars ∧ t.masks = s.masks ∧ t.glints = s.glints ∧ t.laneFlags = s.laneFlags ∧ t.rows = s.rows ∧ t.mps = s.mps ∧
    t.ths = s.ths ∧ t.spd = s.spd ∧ t.spdPoison = s.spdPoison ∧ t.tags = s.tags ∧ t.bos = s.bos ∧ t.bosPoison = s.bosPoison ∧
    t.dict = s.dict ∧ t.ucode = s.ucode ∧ t.routines = s.routines ∧ t.cht = s.cht ∧ t.ptt = s.ptt ∧ t.staging = s.staging ∧
    t.sye = s.sye ∧ t.syePoison = s.syePoison ∧ t.hbm = s.hbm ∧ t.hbmPoison = s.hbmPoison ∧ t.host = s.host ∧ t.saved = s.saved ∧
    t.kernels = s.kernels

/-- Every byte of every home reads as it did before. -/
def SameMemory (s t : State) : Prop := ∀ h a, t.readByte h a = s.readByte h a

/-- A write to a row gives its enabled lanes, of lw bits, what g says, and leaves the data of the others (R155). -/
def LanesGive (lw : Nat) (en : MaskBits) (g : Nat → LaneOut) (w : RowWrite) : Prop :=
  ∀ (r : Row) (i : Nat), i < laneCount lw → (r.apply w).lane lw i = if en.getLsbD i then (g i).bits % 2 ^ lw else r.lane lw i


/-! ## Scalar operations -/

/-- A result of a scalar operation that stands alone: d within bound, poisoned and zero when p (R24, R109), with no flag. -/
def scalarGives (s : State) (d : BitVec 6) (p : Bool) (bound : Nat) (v : Word) : Host.Outcome State Fault Refusal :=
  goesOn (atS s) [scalarResult (atS s) s d.toNat p v bound true 0] s

/-- The same with the flags fl of its lane, which NF suppresses. -/
def scalarFlags (s : State) (d : BitVec 6) (p : Bool) (bound : Nat) (nf : BitVec 1) (v : Word) (fl : LaneFlags) : Host.Outcome State Fault Refusal :=
  goesOn (atS s) [scalarResult (atS s) s d.toNat p v bound (nf = 1) fl] s

/-! ## Vector operations -/

/-- An operation under mask m that names the rows may issue at x: one more result may be in flight, its mask is not poisoned, its rows
are in the allotment (R18, R25, R156). -/
def Ready (x : Ctx) (m : BitVec 4) (rows : List (BitVec 9)) (s : State) : Prop :=
  Room s ∧ (x.mask s m.toNat 0).poison = false ∧ Allotted s (rows.map BitVec.toNat)

/-- The outcome of an operation whose one effect is a result: v into d within bound, with flags fl. -/
def gives (x : Ctx) (s : State) (d : Dest) (v : Value) (bound : Nat) (fl : FlagSet) : Host.Outcome State Fault Refusal :=
  goesOn x [result x s d v bound fl] s

/-- The outcome of a slot operation whose precise cause is code: the trap is taken and the bundle has no other effect (R90, R276). -/
def traps (s : State) (slot code : Nat) : Host.Outcome State Fault Refusal :=
  let pc := (s.seqOf s.cur.q).pc
  .next (applyActs (takeTrap s s.cur.q pc ⟨code, some slot, false, 0, pc⟩ ++ [bump]) s)

/-- A lane operation of lw bits: g i to each lane i that mask m enables, into row d within bound, the flags of those lanes unless nf. -/
def laneGives (x : Ctx) (s : State) (d : BitVec 9) (m : BitVec 4) (lw bound : Nat) (nf : Bool) (g : Nat → LaneOut) : Host.Outcome State Fault Refusal :=
  let outs := enabledLanes (x.mask s m.toNat 0).val (laneCount lw) (laneCount lw) g
  gives x s (.rows d.toNat) (.rows [writeLanes lw outs]) bound (outFlags nf outs)

/-- A signed value reduced to lw bits (R160). -/
def wrapTo (lw : Nat) (z : Int) : Nat := (z % 2 ^ lw).toNat

/-- The signed value of a pattern of lw bits. -/
def signedOf (lw v : Nat) : Int := (BitVec.ofNat lw v).toInt

/-- The mask k that a comparison of L lanes under en writes over old: a poisoned lane's bit is 0 (R20, R159). -/
def ComparesTo (L : Nat) (en : MaskBits) (old : MReg) (bit bad : Nat → Bool) (k : MaskBits) (p : Bool) : Prop :=
  (∀ i, i < 1024 → k.getLsbD i = (decide (i < L) && (if en.getLsbD i then bit i && !bad i else old.val.getLsbD i))) ∧
  (p = true ↔ ∃ i, i < L ∧ en.getLsbD i = true ∧ bad i = true)

/-- The flags of the enabled lanes of a comparison; a poisoned lane raises none (R107). -/
def compareFlags (nf : Bool) (L : Nat) (en : MaskBits) (bad : Nat → Bool) (fl : Nat → LaneFlags) : FlagSet :=
  flagSet nf ((List.range L).map (fun i => if en.getLsbD i && !bad i then fl i else 0))

/-- The result of a horizontal operation: row d whole, within bound, with flags fl unless nf (R157). -/
def rowGives (s : State) (d : BitVec 9) (w : RowWrite) (bound : Nat) (nf : Bool) (fl : FlagSet) : Host.Outcome State Fault Refusal :=
  gives (atV s) s (.rows d.toNat) (.rows [w]) bound (if nf then {} else fl)

/-- Lane i is one of the first n and mask m enables it. -/
def Enabled (m : MaskBits) (n i : Nat) : Prop := i < n ∧ m.getLsbD i = true

/-- The result of a statistics operation on triples, lane by lane: none for a poisoned one (R171). -/
def triplesGive (s : State) (d : BitVec 9) (m : BitVec 4) (bound : Nat) (nf : Bool) (g : Nat → Option TripleF) : Host.Outcome State Fault Refusal :=
  let rs := (List.range 512).map (fun i => if ((atV s).mask s m.toNat 0).val.getLsbD i then some (g i) else none)
  gives (atV s) s (.rows d.toNat) (.rows (writeTriples (rs.map (fun o => o.map (fun r => r.map TripleF.t))))) bound
    (flagSet nf (rs.map (fun o => match o with | some (some t) => t.flags | _ => 0)))

/-- The outcome of an operation that hands the counter to what nx names. -/
def goesTo (x : Ctx) (nx : Next) (a : List Act) (s : State) : Host.Outcome State Fault Refusal := .next (issued x nx a s)

/-- The start cycle, in CYC, of an engine command whose offset from TB is at_ (R151, R186). -/
def startAt (x : Ctx) (s : State) (at_ : Nat) : Nat := ((s.seqOf x.q).tb.toNat + at_) % 2 ^ 64

/-- An XE command of dur cycles may be accepted at its start (R187): its operand formats go together, it starts after its issue, and no
accepted command's interval meets its own. -/
def Accepts (s : State) (at_ dur : Nat) : Prop :=
  let x := atX s
  let start := startAt x s at_
  let fmt := s.fmt s.cur.q
  fmtA fmt ≠ 0 ∧ fmtB fmt ≠ 0 ∧ (fmtA fmt = 3 ↔ fmtB fmt = 3) ∧ s.cyc < start ∧
    ∀ y ∈ s.mxeCommands (s.cur.q / 4), start < y.start + y.dur → y.start < start + dur → False

/-- An access of n bytes at a, aligned to align, for use u passes the checks of R232. -/
def Passes (s : State) (a n align : Nat) (u : Use) : Prop := classify s (s.cur.q / 4) a n align u = none

/-- A synchronisation operation on n bytes at a passes: R232's checks, in the sync window (R221). -/
def SyncPasses (s : State) (r : SReg) (n align : Nat) : Prop :=
  r.poison = false ∧ Passes s r.val.toNat n align .store ∧ windowOf r.val.toNat = 2

/-- The sequencer's accesses to its own scratchpad perform at issue (R263; log 5): it stands outside every LOOPP body and re-entered
prologue, holds no stores, no drain holds it and no earlier access of its core to the scratchpad is still to perform. -/
def PerformsAtIssue (s : State) : Prop :=
  Unpipelined s ∧ (s.seqOf s.cur.q).reent = false ∧ (s.seqOf s.cur.q).window = [] ∧ (s.seqOf s.cur.q).frozen.window = [] ∧ ownFree s s.cur.q = true

/-- The outcome of an event: its effect, and the counter of open choices. -/
def performs (a : List Act) (s : State) : Host.Outcome State Fault Refusal := .next (applyActs (a ++ [bump]) s)

/-- Byte i of a frame of sequencer q as a state holds it (R294). -/
def frameByte (s : State) (q i : Nat) : Byte := s.readByte (.spd (q / 4)) (0x3E0000 + 0x4000 * (q % 4) + i)

/-- The bytes that the frame of sequencer q takes: 16 KiB (R294), which its loop stack of 6 entries, 64 latches and 64 events stay in. -/
def frameSpan (s : State) (q : Nat) : Nat :=
  max 0x4000 (max (0x100 + 32 * (s.seqOf q).loops.length) (max (0xE00 + 32 * (latchesOf s q).length)
    (0x1600 + 64 * ((s.seqOf q).events.length + (s.seqOf q).orderFaults.length))))

/-- The byte at a of home h lies in the frame of sequencer q, in its core's own scratchpad (R294). -/
def InFrame (s : State) (q : Nat) (h : Home) (a : Nat) : Prop :=
  h.kind = 0 ∧ ∃ i, i < frameSpan s q ∧ h.key a = (Home.spd (q / 4)).key (0x3E0000 + 0x4000 * (q % 4) + i)

/-- What a trap entry leaves (R276, R294, R296): the handler's address, the frame's EPC and TCAUSE, and nothing else of memory, rows,
scalars or masks changed. -/
def Entered (s t : State) (q epc : Nat) (cause : Cause) : Prop :=
  let y := t.seqOf q
  y.pc = 2 ∧ y.run = .run ∧ y.hnd = true ∧ y.resumeAt = s.cyc + 16 ∧ y.loops = [] ∧ y.rep = none ∧
  y.fls0 = 0 ∧ y.fls1 = 0 ∧ y.fls2 = 0 ∧ y.fls3 = 0 ∧ y.fev = 0 ∧ (∀ k, k < 24 → t.laneFlag q k = 0) ∧
  (∀ i, i < 8 → frameByte t q i = (BitVec.ofNat 64 epc).extractLsb' (8 * i) 8) ∧
  (∀ i, i < 8 → frameByte t q (8 + i) = (causeWord cause).extractLsb' (8 * i) 8) ∧
  (∀ h a, ¬ InFrame s q h a → t.readByte h a = s.readByte h a) ∧
  t.scalars = s.scalars ∧ t.masks = s.masks ∧ t.glints = s.glints ∧ t.rows = s.rows ∧ t.mps = s.mps ∧ t.ths = s.ths ∧ t.tags = s.tags ∧ t.chip = s.chip

/-- The reading of a packet from its ring: the ring's head moves past it (R282). -/
def packetRead (p : Packet) : Act :=
  .chip (fun h => { h with rings := SMap.set {} h.rings p.ring { h.ring p.ring with cmdHead := (p.index + 1) % 2 ^ 32 } })

/-- The outcome of a packet that is read and then does what body says in the state that follows the reading. -/
def takes (s : State) (p : Packet) (body : State → List Act) : Host.Outcome State Fault Refusal :=
  performs (packetRead p :: body (applyAct (packetRead p) s)) s

/-- The log of t is that of s and the one event named: a log of 4,096 records that is full loses its first (R360, R372). -/
def Posts (s t : State) (code fn place addr info : Nat) : Prop :=
  t.chip.log = (logInsert s.chip.log ⟨s.gtime, code, fn, place, addr, info⟩).drop (s.chip.log.length + 1 - 4096)

/-- Queue n of core c. -/
def State.queueOf (s : State) (c n : Nat) : Queue := (s.coreOf c).queues.getD n {}

/-- The precedence of queue n among the ready queues (R286): the higher effective rank, then the running queue, then the higher PASS,
then the lower number. -/
def Precedes (run : Option Nat) (n : Nat) (a : Queue) (m : Nat) (b : Queue) : Prop :=
  b.eff < a.eff ∨ b.eff = a.eff ∧ (run = some n ∧ run ≠ some m ∨ (run = some n ↔ run = some m) ∧ (b.pass < a.pass ∨ b.pass = a.pass ∧ n ≤ m))

/-- No write of an access that is still to perform reaches the device memory from pa on for n bytes. -/
def NoWriteTo (s : State) (pa n : Nat) : Prop :=
  ∀ a ∈ s.work.accesses, a.performed = true ∨ a.kind.stores = false ∨ ∀ p ∈ a.devicePlaces, rangesMeet p.1 p.2 pa n = false

/-- The operations whose one effect is a result in registers and its flags: scalar, vector lane, statistics, mask, glint and special-function
operations. It is noncomputable because Lean's code generator has no room for the last constructors. -/
noncomputable def registerForms (f : SR) (g : SI) (h : VR) (k : VI) : List Instr :=
  [.sadd f, .ssub f, .smul f, .smulh f, .smulhu f, .sdiv f, .sdivu f, .srem f, .sremu f, .sand f, .sor f, .sxor f, .sshl f, .sshr f, .ssra f, .sclz f,
   .spop f, .smin f, .smax f, .sminu f, .smaxu f, .scmp f, .ssel f, .sextU f, .sextS f, .sins f, .sfadd f, .sfsub f, .sfmul f, .sfma f, .sfcmp f,
   .sfcvtF32I64 f, .sfcvtF32U64 f, .sfcvtI64F32 f, .sfcvtU64F32 f, .sfcvtF32Bf16 f, .sfcvtF32F16 f, .sfcvtBf16F32 f, .sfcvtF16F32 f, .sfcvtF32Fx32 f,
   .sfcvtFx32F32 f, .sfmin f, .sfmax f, .saddi g, .sandi g, .sori g, .sxori g, .sshli g, .sshri g, .ssrai g, .sli g, .slih g, .vaddF32 h, .vaddBf16 h,
   .vaddF16 h, .vsubF32 h, .vsubBf16 h, .vsubF16 h, .vmulF32 h, .vmulBf16 h, .vmulF16 h, .vfmaF32 h, .vfmaBf16 h, .vfmaF16 h, .vfmsF32 h, .vfmsBf16 h,
   .vfmsF16 h, .vminF32 h, .vminBf16 h, .vminF16 h, .vmaxF32 h, .vmaxBf16 h, .vmaxF16 h, .vabsF32 h, .vabsBf16 h, .vabsF16 h, .vnegF32 h, .vnegBf16 h,
   .vnegF16 h, .vcmpF32 h, .vcmpBf16 h, .vcmpF16 h, .vclampF32 h, .vclampBf16 h, .vclampF16 h, .vsel h, .viaddI32 h, .viaddI16 h, .visubI32 h,
   .visubI16 h, .vimulI32 h, .vimulI16 h, .viminI32 h, .viminI16 h, .vimaxI32 h, .vimaxI16 h, .vicmpI32 h, .vicmpI16 h, .vand h, .vor h, .vxor h,
   .vshl h, .vshr h, .vsra h, .vfxadd h, .vfxsub h, .vqfx h, .vfxf h, .vcvtBf16F32 h, .vcvtF16F32 h, .vcvtF32Bf16 h, .vcvtF32F16 h, .vcvtI32F32 h,
   .vcvtF32I32 h, .vcvtI16F32 h, .vcvtF32I16 h, .vsplit3 h, .vmov h, .vbcastScalar h, .vbcastLane h, .vextr h, .vslide h, .vperm h, .vsumo h, .vsumxXa
   h, .vsumxF32 h, .vmaxr h, .vminr h, .vstatu h, .vstatw h, .vstatm h, .vstath h, .vstateClr h, .vstateVar h, .vstateSvar h, .vstateRstd h, .vglint
   h, .vrngBits h, .vrngUnif h, .mand h, .mor h, .mxor h, .mnot h, .mpop h, .mfirst h, .vxadd h, .vxcvtXaF32 h, .vxcvtF32Xa h, .xexp2 h, .xlog2 h,
   .xrcp h, .xrsqrt h, .xsqrt h, .xtanh h, .xsigm h, .xsin h, .xcos h, .vli k, .vidx k]

/-- What an operation whose one effect is a result leaves: every store, core, module register, access, copy, command and launch, and every
other sequencer, is as it was; at most one result is in flight more; of its own sequencer only the counter and the loop state move on. -/
def ResultOnly (s t : State) : Prop :=
  SameStores s t ∧ t.cores = s.cores ∧ t.chip = s.chip ∧ t.cyc = s.cyc ∧ t.gtime = s.gtime ∧ (∀ r, r ≠ s.cur.q → t.seqOf r = s.seqOf r) ∧
  (∃ pc loops window rolledBack passEnd, t.seqOf s.cur.q = { s.seqOf s.cur.q with
    pc := pc, loops := loops, window := window, rolledBack := rolledBack, passEnd := passEnd }) ∧
  (∃ l, t.work.flights = s.work.flights ++ l ∧ l.length ≤ 1 ∧ ∀ f ∈ l, f.q = s.cur.q) ∧ t.work.accesses = s.work.accesses ∧
  t.work.copies = s.work.copies ∧ t.work.commands = s.work.commands ∧ t.work.walks = s.work.walks ∧ t.work.launches = s.work.launches ∧
  t.work.unreleased = s.work.unreleased ∧ t.work.agenda = s.work.agenda

end Sys2Proof.Machine
end

