-- ==== Sys2Proof/Certificates/Slice0/Obligations.lean ====
section
/-! DEFINITION. The statements for the provers. -/

open Sys2Proof Sys2Proof.Machine

/-- R111, R113, R109: each integer operation issues wherever one more result may be in flight, and its result, which lands in the next
cycle, is the value of R111's table on exact integers reduced to 64 bits, poisoned when an operand is; counts, selection, and the bit
fields whose position and width together stay within 64. -/
def Obligations.ScalarIntegerResults : Prop := (∀ (f : SR) (s : State), Room s →
  let a := (atS s).scalar s f.a.toNat 0
  let b := (atS s).scalar s f.b.toNat 1
  let gives := scalarGives s f.d (a.poison || b.poison) 1
  let n := b.val.toNat % 64
  exec (.sadd f) s = gives (BitVec.ofNat 64 (a.val.toNat + b.val.toNat)) ∧
  exec (.ssub f) s = gives (BitVec.ofInt 64 (a.val.toInt - b.val.toInt)) ∧
  exec (.smul f) s = gives (BitVec.ofInt 64 (a.val.toInt * b.val.toInt)) ∧
  exec (.smulh f) s = gives (BitVec.ofInt 64 (a.val.toInt * b.val.toInt / 2 ^ 64)) ∧
  exec (.smulhu f) s = gives (BitVec.ofNat 64 (a.val.toNat * b.val.toNat / 2 ^ 64)) ∧
  exec (.sand f) s = gives (a.val &&& b.val) ∧
  exec (.sor f) s = gives (a.val ||| b.val) ∧
  exec (.sxor f) s = gives (a.val ^^^ b.val) ∧
  exec (.sshl f) s = gives (BitVec.ofNat 64 (a.val.toNat * 2 ^ n)) ∧
  exec (.sshr f) s = gives (BitVec.ofNat 64 (a.val.toNat / 2 ^ n)) ∧
  exec (.ssra f) s = gives (BitVec.ofInt 64 (a.val.toInt / 2 ^ n)) ∧
  exec (.smin f) s = gives (BitVec.ofInt 64 (min a.val.toInt b.val.toInt)) ∧
  exec (.smax f) s = gives (BitVec.ofInt 64 (max a.val.toInt b.val.toInt)) ∧
  exec (.sminu f) s = gives (BitVec.ofNat 64 (min a.val.toNat b.val.toNat)) ∧
  exec (.smaxu f) s = gives (BitVec.ofNat 64 (max a.val.toNat b.val.toNat)) ∧
  (f.sub = 0 → exec (.scmp f) s = gives (if a.val = b.val then 1 else 0)) ∧
  (f.sub = 1 → exec (.scmp f) s = gives (if a.val = b.val then 0 else 1)) ∧
  (f.sub = 2 → exec (.scmp f) s = gives (if a.val.toInt < b.val.toInt then 1 else 0)) ∧
  (f.sub = 3 → exec (.scmp f) s = gives (if a.val.toInt ≤ b.val.toInt then 1 else 0)) ∧
  (f.sub = 4 → exec (.scmp f) s = gives (if b.val.toInt < a.val.toInt then 1 else 0)) ∧
  (f.sub = 5 → exec (.scmp f) s = gives (if b.val.toInt ≤ a.val.toInt then 1 else 0)) ∧
  (f.sub = 6 → exec (.scmp f) s = gives (if a.val.toNat < b.val.toNat then 1 else 0)) ∧
  (f.sub = 7 → exec (.scmp f) s = gives (if a.val.toNat ≤ b.val.toNat then 1 else 0)) ∧
  (f.sub = 8 → exec (.scmp f) s = gives (if b.val.toNat < a.val.toNat then 1 else 0)) ∧
  (f.sub = 9 → exec (.scmp f) s = gives (if b.val.toNat ≤ a.val.toNat then 1 else 0))) ∧
  (∀ (f : SR) (s : State), Room s →
  let a := (atS s).scalar s f.a.toNat 0
  let b := (atS s).scalar s f.b.toNat 1
  let c := (atS s).scalar s f.c.toNat 2
  let old := (atS s).scalar s f.d.toNat 1
  let p := f.b.toNat
  let w := f.c.toNat + 1
  (∃ n, exec (.sclz f) s = scalarGives s f.d a.poison 1 (BitVec.ofNat 64 n) ∧ n ≤ 64 ∧ a.val.toNat < 2 ^ (64 - n) ∧ (n < 64 → 2 ^ (63 - n) ≤ a.val.toNat)) ∧
  exec (.spop f) s = scalarGives s f.d a.poison 1 (BitVec.ofNat 64 ((List.range 64).countP (fun k => a.val.getLsbD k))) ∧
  (c.val ≠ 0 → exec (.ssel f) s = scalarGives s f.d (c.poison || a.poison) 1 a.val) ∧
  (c.val = 0 → exec (.ssel f) s = scalarGives s f.d (c.poison || b.poison) 1 b.val) ∧
  (p + w ≤ 64 → exec (.sextU f) s = scalarGives s f.d a.poison 1 (BitVec.ofNat 64 (a.val.toNat / 2 ^ p % 2 ^ w))) ∧
  (p + w ≤ 64 → exec (.sextS f) s = scalarGives s f.d a.poison 1 (BitVec.ofInt 64 (a.val.extractLsb' p w).toInt)) ∧
  (p + w ≤ 64 → ∃ v : Word, exec (.sins f) s = scalarGives s f.d (a.poison || old.poison) 1 v ∧
    ∀ k, k < 64 → v.getLsbD k = if p ≤ k ∧ k < p + w then a.val.getLsbD (k - p) else old.val.getLsbD k))

/-- R114: the immediate operations, whose result lands in the next cycle. -/
def Obligations.ScalarImmediateResults : Prop := ∀ (f : SI) (s : State), Room s →
  let a := (atS s).scalar s f.a.toNat 0
  let gives := scalarGives s f.d a.poison 1
  let n := f.imm24.toNat % 64
  exec (.saddi f) s = gives (BitVec.ofInt 64 (a.val.toInt + f.imm24.toInt)) ∧
  exec (.sandi f) s = gives (BitVec.ofNat 64 (a.val.toNat &&& f.imm24.toNat)) ∧
  exec (.sori f) s = gives (BitVec.ofNat 64 (a.val.toNat ||| f.imm24.toNat)) ∧
  exec (.sxori f) s = gives (BitVec.ofNat 64 (a.val.toNat ^^^ f.imm24.toNat)) ∧
  exec (.sshli f) s = gives (BitVec.ofNat 64 (a.val.toNat * 2 ^ n)) ∧
  exec (.sshri f) s = gives (BitVec.ofNat 64 (a.val.toNat / 2 ^ n)) ∧
  exec (.ssrai f) s = gives (BitVec.ofInt 64 (a.val.toInt / 2 ^ n)) ∧
  exec (.sli f) s = scalarGives s f.d false 1 (BitVec.ofInt 64 f.imm24.toInt) ∧
  (f.sub.toNat < 4 → f.imm24.toNat < 2 ^ 16 → ∃ v : Word, exec (.slih f) s = gives v ∧
    ∀ k, k < 64 → v.getLsbD k = if k / 16 = f.sub.toNat then f.imm24.getLsbD (k % 16) else a.val.getLsbD k)

/-- R112: division rounds toward zero and the remainder takes the dividend's sign; a zero divisor gives all ones, or the dividend, and
raises DZ unless NF is set; a result lands in the next cycle. -/
def Obligations.ScalarDivisionResults : Prop := ∀ (f : SR) (s : State), Room s →
  let a := (atS s).scalar s f.a.toNat 0
  let b := (atS s).scalar s f.b.toNat 1
  let gives := scalarFlags s f.d (a.poison || b.poison) 1 f.nf
  (b.val ≠ 0 →
    exec (.sdiv f) s = gives (BitVec.ofInt 64 (a.val.toInt.tdiv b.val.toInt)) 0 ∧
    exec (.sdivu f) s = gives (BitVec.ofNat 64 (a.val.toNat / b.val.toNat)) 0 ∧
    exec (.srem f) s = gives (BitVec.ofInt 64 (a.val.toInt.tmod b.val.toInt)) 0 ∧
    exec (.sremu f) s = gives (BitVec.ofNat 64 (a.val.toNat % b.val.toNat)) 0) ∧
  (b.val = 0 →
    exec (.sdiv f) s = gives (BitVec.allOnes 64) flDZ ∧ exec (.sdivu f) s = gives (BitVec.allOnes 64) flDZ ∧
    exec (.srem f) s = gives a.val flDZ ∧ exec (.sremu f) s = gives a.val flDZ)

/-- R115 to R118: scalar floating point reads the low 32 or 16 bits of its registers, rounds by FMT.RND or by the conversion's own rm,
and its result lands within three cycles. -/
def Obligations.ScalarFloatResults : Prop := ∀ (f : SR) (s : State), Room s →
  let a := (atS s).scalar s f.a.toNat 0
  let b := (atS s).scalar s f.b.toNat 1
  let c := (atS s).scalar s f.c.toNat 2
  let fmt := s.fmt s.cur.q
  let two := fun (r : Flagged) => scalarFlags s f.d (a.poison || b.poison) 3 f.nf (BitVec.ofNat 64 r.bits) r.flags
  let one := fun (r : Flagged) => scalarFlags s f.d a.poison 3 f.nf (BitVec.ofNat 64 r.bits) r.flags
  let x := a.val.toNat % 2 ^ 32
  let y := b.val.toNat % 2 ^ 32
  let rm := rounding fmt (f.c.toNat % 8)
  exec (.sfadd f) s = two (fadd fp32 (rounding fmt 0) x y) ∧
  exec (.sfsub f) s = two (fsub fp32 (rounding fmt 0) x y) ∧
  exec (.sfmul f) s = two (fmul fp32 (rounding fmt 0) x y) ∧
  (let r := ffma fp32 (rounding fmt 0) x y (c.val.toNat % 2 ^ 32)
   exec (.sfma f) s = scalarFlags s f.d (a.poison || b.poison || c.poison) 3 f.nf (BitVec.ofNat 64 r.bits) r.flags) ∧
  exec (.sfmin f) s = two (fminmax fp32 false x y) ∧
  exec (.sfmax f) s = two (fminmax fp32 true x y) ∧
  (let r := fcond fp32 f.sub.toNat x y
   exec (.sfcmp f) s = scalarFlags s f.d (a.poison || b.poison) 3 f.nf (if r.1 then 1 else 0) r.2) ∧
  exec (.sfcvtF32I64 f) s = one (toInt fp32 rm (-2 ^ 63) (2 ^ 63 - 1) 64 x) ∧
  exec (.sfcvtF32U64 f) s = one (toInt fp32 rm 0 (2 ^ 64 - 1) 64 x) ∧
  exec (.sfcvtI64F32 f) s = one (ofInt fp32 rm a.val.toInt 0) ∧
  exec (.sfcvtU64F32 f) s = one (ofInt fp32 rm a.val.toNat 0) ∧
  exec (.sfcvtF32Bf16 f) s = one (fconvert fp32 bf16 rm x) ∧
  exec (.sfcvtF32F16 f) s = one (fconvert fp32 fp16 rm x) ∧
  exec (.sfcvtBf16F32 f) s = one (fconvert bf16 fp32 rm (a.val.toNat % 2 ^ 16)) ∧
  exec (.sfcvtF16F32 f) s = one (fconvert fp16 fp32 rm (a.val.toNat % 2 ^ 16)) ∧
  exec (.sfcvtF32Fx32 f) s = one (toFx x) ∧
  exec (.sfcvtFx32F32 f) s = one (ofFx rm x)

/-- R159, R156, R41, R42: floating lane operations round each enabled lane of a and b, or of a, b and d, once; a poisoned operand lane
poisons its own result lane only; VABS clears the sign bit and VNEG inverts it, on any pattern, with no flag. -/
def Obligations.VectorFloatResults : Prop := (∀ (f : VR) (s : State), Ready (atV s) f.m [f.d, f.a, f.b] s →
  let rm := rounding (s.fmt s.cur.q) f.rm.toNat
  let row := fun (r : BitVec 9) (fm : FloatFormat) k => (atV s).row s r.toNat fm.width k
  let lanes := fun (fm : FloatFormat) bound => laneGives (atV s) s f.d f.m fm.width bound (f.nf = 1)
  let two := fun (fm : FloatFormat) bound (g : Nat → Nat → Flagged) => lanes fm bound fun i =>
    let a := row f.a fm 1
    let b := row f.b fm 2
    .of (a.lanePoison fm.width i || b.lanePoison fm.width i) (g (a.lane fm.width i) (b.lane fm.width i))
  let three := fun (fm : FloatFormat) bound (g : Nat → Nat → Nat → Flagged) => lanes fm bound fun i =>
    let a := row f.a fm 1
    let b := row f.b fm 2
    let d := row f.d fm 3
    .of (a.lanePoison fm.width i || b.lanePoison fm.width i || d.lanePoison fm.width i)
      (g (a.lane fm.width i) (b.lane fm.width i) (d.lane fm.width i))
  exec (.vaddF32 f) s = two fp32 4 (fadd fp32 rm) ∧ exec (.vaddBf16 f) s = two bf16 4 (fadd bf16 rm) ∧
  exec (.vaddF16 f) s = two fp16 4 (fadd fp16 rm) ∧ exec (.vsubF32 f) s = two fp32 4 (fsub fp32 rm) ∧
  exec (.vsubBf16 f) s = two bf16 4 (fsub bf16 rm) ∧ exec (.vsubF16 f) s = two fp16 4 (fsub fp16 rm) ∧
  exec (.vmulF32 f) s = two fp32 4 (fmul fp32 rm) ∧ exec (.vmulBf16 f) s = two bf16 4 (fmul bf16 rm) ∧
  exec (.vmulF16 f) s = two fp16 4 (fmul fp16 rm) ∧ exec (.vfmaF32 f) s = three fp32 4 (ffma fp32 rm) ∧
  exec (.vfmaBf16 f) s = three bf16 4 (ffma bf16 rm) ∧ exec (.vfmaF16 f) s = three fp16 4 (ffma fp16 rm) ∧
  exec (.vfmsF32 f) s = three fp32 4 (ffms fp32 rm) ∧ exec (.vfmsBf16 f) s = three bf16 4 (ffms bf16 rm) ∧
  exec (.vfmsF16 f) s = three fp16 4 (ffms fp16 rm) ∧ exec (.vminF32 f) s = two fp32 2 (fminmax fp32 false) ∧
  exec (.vminBf16 f) s = two bf16 2 (fminmax bf16 false) ∧ exec (.vminF16 f) s = two fp16 2 (fminmax fp16 false) ∧
  exec (.vmaxF32 f) s = two fp32 2 (fminmax fp32 true) ∧ exec (.vmaxBf16 f) s = two bf16 2 (fminmax bf16 true) ∧
  exec (.vmaxF16 f) s = two fp16 2 (fminmax fp16 true) ∧ exec (.vclampF32 f) s = three fp32 2 (fun a b d => fclamp fp32 d a b) ∧
  exec (.vclampBf16 f) s = three bf16 2 (fun a b d => fclamp bf16 d a b) ∧ exec (.vclampF16 f) s = three fp16 2 (fun a b d => fclamp fp16 d a b)) ∧
  (∀ (f : VR) (s : State), Ready (atV s) f.m [f.d, f.a] s →
  let one := fun (lw : Nat) (g : Nat → Nat) =>
    let a := (atV s).row s f.a.toNat lw 1
    laneGives (atV s) s f.d f.m lw 2 true fun i => .of (a.lanePoison lw i) ⟨g (a.lane lw i), 0⟩
  exec (.vabsF32 f) s = one 32 (fun v => v % 2 ^ 31) ∧ exec (.vabsBf16 f) s = one 16 (fun v => v % 2 ^ 15) ∧
  exec (.vabsF16 f) s = one 16 (fun v => v % 2 ^ 15) ∧ exec (.vnegF32 f) s = one 32 (fun v => (v + 2 ^ 31) % 2 ^ 32) ∧
  exec (.vnegBf16 f) s = one 16 (fun v => (v + 2 ^ 15) % 2 ^ 16) ∧ exec (.vnegF16 f) s = one 16 (fun v => (v + 2 ^ 15) % 2 ^ 16))

/-- R159, R160, R84, R20: comparisons give a mask: each enabled lane's bit, zero for a poisoned lane, the bits of lanes not enabled kept,
zero above the lane count; a result is poisoned exactly when an enabled lane is, and the bits kept of a poisoned old mask are its bits as they stand
(log 71, the model's reading). -/
def Obligations.VectorCompareResults : Prop := ∀ (f : VR) (s : State), Ready (atV s) f.m [f.a, f.b] s →
  let en := ((atV s).mask s f.m.toNat 0).val
  let d := f.d.toNat % 16
  let old := (atV s).mask s d 4
  let cmp := fun (o : Host.Outcome State Fault Refusal) (lw : Nat) (g : Nat → Nat → Bool × LaneFlags) =>
    let a := (atV s).row s f.a.toNat lw 1
    let b := (atV s).row s f.b.toNat lw 2
    let bad := fun i => a.lanePoison lw i || b.lanePoison lw i
    let r := fun i => g (a.lane lw i) (b.lane lw i)
    ∃ k p, o = gives (atV s) s (.mask d) (.mask k p) 2 (compareFlags (f.nf = 1) (laneCount lw) en bad (fun i => (r i).2)) ∧
      ComparesTo (laneCount lw) en old (fun i => (r i).1) bad k p
  cmp (exec (.vcmpF32 f) s) 32 (fcond fp32 f.aux.toNat) ∧ cmp (exec (.vcmpBf16 f) s) 16 (fcond bf16 f.aux.toNat) ∧
  cmp (exec (.vcmpF16 f) s) 16 (fcond fp16 f.aux.toNat) ∧
  cmp (exec (.vicmpI32 f) s) 32 (fun a b => (icond 32 f.aux.toNat a b, 0)) ∧
  cmp (exec (.vicmpI16 f) s) 16 (fun a b => (icond 16 f.aux.toNat a b, 0))

/-- R160: integer lane operations wrap, the minimum and maximum compare signed values, and no flag is raised. -/
def Obligations.VectorIntegerResults : Prop := ∀ (f : VR) (s : State), Ready (atV s) f.m [f.d, f.a, f.b] s →
  let lanes := fun (lw : Nat) (g : Nat → Nat → Nat) =>
    let a := (atV s).row s f.a.toNat lw 1
    let b := (atV s).row s f.b.toNat lw 2
    laneGives (atV s) s f.d f.m lw 2 true fun i => .of (a.lanePoison lw i || b.lanePoison lw i) ⟨g (a.lane lw i) (b.lane lw i), 0⟩
  let least := fun lw (x y : Nat) => wrapTo lw (min (signedOf lw x) (signedOf lw y))
  let greatest := fun lw (x y : Nat) => wrapTo lw (max (signedOf lw x) (signedOf lw y))
  exec (.viaddI32 f) s = lanes 32 (fun x y => wrapTo 32 (x + y)) ∧ exec (.viaddI16 f) s = lanes 16 (fun x y => wrapTo 16 (x + y)) ∧
  exec (.visubI32 f) s = lanes 32 (fun x y => wrapTo 32 (x - y)) ∧ exec (.visubI16 f) s = lanes 16 (fun x y => wrapTo 16 (x - y)) ∧
  exec (.vimulI32 f) s = lanes 32 (fun x y => wrapTo 32 (x * y)) ∧ exec (.vimulI16 f) s = lanes 16 (fun x y => wrapTo 16 (x * y)) ∧
  exec (.viminI32 f) s = lanes 32 (least 32) ∧ exec (.viminI16 f) s = lanes 16 (least 16) ∧
  exec (.vimaxI32 f) s = lanes 32 (greatest 32) ∧ exec (.vimaxI16 f) s = lanes 16 (greatest 16)

/-- R161, R155: bitwise operations and shifts work in the lane shape of FMT.ACT, 32, 16 or, for the bitwise ones, 128 bits; a shift by
the low 5 or 4 bits of its count; a shift under ACT = 2 is an illegal encoding. -/
def Obligations.VectorBitResults : Prop := ∀ (f : VR) (s : State), Ready (atV s) f.m [f.d, f.a, f.b] s →
  let act := fmtAct (s.fmt s.cur.q)
  let lw := if act = 1 then 16 else if act = 2 then 128 else 32
  let a := (atV s).row s f.a.toNat lw 1
  let b := (atV s).row s f.b.toNat lw 2
  let lanes := fun (g : Nat → Nat → Nat) =>
    laneGives (atV s) s f.d f.m lw 2 true fun i => .of (a.lanePoison lw i || b.lanePoison lw i) ⟨g (a.lane lw i) (b.lane lw i), 0⟩
  exec (.vand f) s = lanes (fun x y => x &&& y) ∧ exec (.vor f) s = lanes (fun x y => x ||| y) ∧
  exec (.vxor f) s = lanes (fun x y => x ^^^ y) ∧
  (act ≠ 2 → exec (.vshl f) s = lanes (fun x y => x * 2 ^ (y % lw) % 2 ^ lw)) ∧
  (act ≠ 2 → exec (.vshr f) s = lanes (fun x y => x / 2 ^ (y % lw))) ∧
  (act ≠ 2 → exec (.vsra f) s = lanes (fun x y => wrapTo lw (signedOf lw x / 2 ^ (y % lw)))) ∧
  (act = 2 → exec (.vshl f) s = traps s (atV s).slot 0x04 ∧ exec (.vshr f) s = traps s (atV s).slot 0x04 ∧
    exec (.vsra f) s = traps s (atV s).slot 0x04)

/-- R162 to R165, R45, R46, R62: FX32 lanes wrap; conversions round by rm, or by their own rule; the 16-bit side of a narrowing or widening
conversion is the half that aux[4] names; VSPLIT3 writes three rows. -/
def Obligations.VectorConversionResults : Prop := ∀ (f : VR) (s : State), Ready (atV s) f.m [f.d, f.a] s →
  let rm := rounding (s.fmt s.cur.q) f.rm.toNat
  let en := ((atV s).mask s f.m.toNat 0).val
  let nf := f.nf = 1
  let half := f.aux.toNat / 16
  let a32 := (atV s).row s f.a.toNat 32 1
  let a16 := (atV s).row s f.a.toNat 16 1
  let same := fun (g : Nat → Flagged) => laneGives (atV s) s f.d f.m 32 3 nf fun i => .of (a32.lanePoison 32 i) (g (a32.lane 32 i))
  let fx := fun (sub : Bool) =>
    let b := (atV s).row s f.b.toNat 32 2
    laneGives (atV s) s f.d f.m 32 2 nf fun i => .of (a32.lanePoison 32 i || b.lanePoison 32 i) (fxAdd sub (a32.lane 32 i) (b.lane 32 i))
  let narrow := fun (g : Nat → Flagged) =>
    let outs := enabledLanes en 512 512 fun i => .of (a32.lanePoison 32 i) (g (a32.lane 32 i))
    gives (atV s) s (.rows f.d.toNat) (.rows [writeLanes 16 (inHalf half outs)]) 3 (outFlags nf outs)
  let widen := fun (g : Nat → Flagged) =>
    laneGives (atV s) s f.d f.m 32 3 nf fun i => .of (a16.lanePoison 16 (512 * half + i)) (g (a16.lane 16 (512 * half + i)))
  (Allotted s [f.b.toNat] → exec (.vfxadd f) s = fx false ∧ exec (.vfxsub f) s = fx true) ∧ exec (.vqfx f) s = same toFx ∧ exec (.vfxf f) s = same (ofFx rm) ∧
  exec (.vcvtI32F32 f) s = same (toInt fp32 rm (-2 ^ 31) (2 ^ 31 - 1) 32) ∧
  exec (.vcvtF32I32 f) s = same (fun v => ofInt fp32 rm (signedOf 32 v) 0) ∧
  exec (.vcvtBf16F32 f) s = narrow (fconvert fp32 bf16 rm) ∧ exec (.vcvtF16F32 f) s = narrow (fconvert fp32 fp16 rm) ∧
  exec (.vcvtI16F32 f) s = narrow (toInt fp32 rm (-2 ^ 15) (2 ^ 15 - 1) 16) ∧
  exec (.vcvtF32Bf16 f) s = widen (fconvert bf16 fp32 rm) ∧ exec (.vcvtF32F16 f) s = widen (fconvert fp16 fp32 rm) ∧
  exec (.vcvtF32I16 f) s = widen (fun v => ofInt fp32 rm (signedOf 16 v) 0) ∧
  (Allotted s [f.d.toNat + 1, f.d.toNat + 2] →
    let part := fun (g : Nat × Nat × Nat × LaneFlags → Nat) => enabledLanes en 512 512 fun i =>
      .of (a32.lanePoison 32 i) ⟨g (split3 (a32.lane 32 i)), (split3 (a32.lane 32 i)).2.2.2⟩
    let row := fun g => writeLanes 16 (inHalf half (part g))
    exec (.vsplit3 f) s = gives (atV s) s (.rows f.d.toNat) (.rows [row (fun r => r.1), row (fun r => r.2.1), row (fun r => r.2.2.1)]) 3
      (outFlags nf (part (fun r => r.1))))

/-- R166, R167, R156, R23: moves in the lane shape of FMT.ACT carry data, poison and marks; a poisoned scalar, mask or selector poisons what
depends on it; VEXTR reads one lane of row a, by s[b] modulo the lane count, whatever the mask holds, and under ACT = 2 the half that
aux[0] names; VLI writes its immediate and VIDX the lane number plus it, in 32-bit lanes whatever FMT holds. -/
def Obligations.VectorMoveResults : Prop := (∀ (f : VR) (s : State), Ready (atV s) f.m [f.d] s →
  let act := fmtAct (s.fmt s.cur.q)
  let lw := if act = 1 then 16 else if act = 2 then 128 else 32
  let L := 16384 / lw
  let a := (atV s).row s f.a.toNat lw 1
  let b := (atV s).row s f.b.toNat lw 2
  let u := (atV s).scalar s (f.a.toNat % 64) 4
  let v := (atV s).scalar s (f.b.toNat % 64) 4
  let k := (atV s).mask s (f.aux.toNat % 16) 4
  let lanes := fun (bound : Nat) (h : Nat → LaneOut) => laneGives (atV s) s f.d f.m lw bound true h
  exec (.vbcastScalar f) s = lanes 4 (fun _ => { bits := if lw = 128 then wrapTo 128 u.val.toInt else u.val.toNat % 2 ^ lw : LaneOut }.taint u.poison) ∧
  (Allotted s [f.a.toNat] →
    exec (.vmov f) s = lanes 2 (copyLane lw a) ∧
    exec (.vbcastLane f) s = lanes 4 (fun _ => (copyLane lw a (v.val.toNat % L)).taint v.poison) ∧
    exec (.vslide f) s = lanes 4 (fun i =>
      let j : Int := i + v.val.toInt
      (if 0 ≤ j ∧ j < L then copyLane lw a j.toNat else { bits := 0 }).taint v.poison)) ∧
  (Allotted s [f.a.toNat, f.b.toNat] →
    exec (.vsel f) s = lanes 2 (fun i => (if k.val.getLsbD i then copyLane lw a i else copyLane lw b i).taint k.poison) ∧
    exec (.vperm f) s = lanes 4 (fun i => (copyLane lw a (b.lane lw i % 2 ^ 64 % L)).taint (b.lanePoison lw i)))) ∧
  (∀ (f : VR) (s : State), Room s → Allotted s [f.a.toNat] →
  let act := fmtAct (s.fmt s.cur.q)
  let lw := if act = 1 then 16 else if act = 2 then 128 else 32
  let a := (atV s).row s f.a.toNat lw 1
  let v := (atV s).scalar s (f.b.toNat % 64) 4
  let i := v.val.toNat % (16384 / lw)
  let half := f.aux.toNat % 2
  (act = 2 ∨ half = 0 → exec (.vextr f) s = goesOn (atV s) [scalarResult (atV s) s (f.d.toNat % 64) (v.poison || a.lanePoison lw i)
    (BitVec.ofNat 64 (if act = 2 then a.lane lw i / 2 ^ (64 * half) else a.lane lw i)) 4 true 0] s) ∧
  (act ≠ 2 → half = 1 → exec (.vextr f) s = traps s (atV s).slot 0x04)) ∧
  (∀ (f : VI) (s : State), Ready (atV s) f.m [f.d] s →
  exec (.vli f) s = laneGives (atV s) s f.d f.m 32 2 true (fun _ => { bits := wrapTo 32 f.imm23.toInt }) ∧
  exec (.vidx f) s = laneGives (atV s) s f.d f.m 32 2 true (fun i => { bits := wrapTo 32 (f.imm23.toInt + i) }))

/-- R168, R169, R48 to R50: VSUMO adds the enabled lanes in the fixed tree of nine levels, a pair of which one is absent passing the other;
all flags go to lane 0, every other lane is +0, and a poisoned enabled lane poisons lane 0. VSUMX adds the enabled lanes exactly: the sum of
their XA128 values, with the marks of any of them; each conversion flags its own lane, also while another enabled lane is poisoned, and a poisoned
result raises none of its own (log 69, the model's reading). -/
def Obligations.SumResults : Prop := (∀ (f : VR) (s : State), Ready (atV s) f.m [f.d, f.a] s →
  let a := (atV s).row s f.a.toNat 32 1
  let en := ((atV s).mask s f.m.toNat 0).val
  let rm := rounding (s.fmt s.cur.q) f.rm.toNat
  ∀ node : Nat → Nat → Option Flagged,
  (∀ j, j < 512 → node 0 j = if en.getLsbD j then some ⟨a.lane 32 j, 0⟩ else none) →
  (∀ k j, k < 9 → j < 2 ^ (8 - k) → node (k + 1) j = sumNode rm (node k (2 * j)) (node k (2 * j + 1))) →
  let top := (node 9 0).getD ⟨0, 0⟩
  ((∃ i, Enabled en 512 i ∧ a.lanePoison 32 i = true) → exec (.vsumo f) s = rowGives s f.d (headLanes 32 [.poisoned]) 12 (f.nf = 1) {}) ∧
  ((∀ i, Enabled en 512 i → a.lanePoison 32 i = false) →
    exec (.vsumo f) s = rowGives s f.d (headLanes 32 [{ bits := top.bits }]) 12 (f.nf = 1) (laneZeroFlags false top.flags))) ∧
  (∀ (f : VR) (s : State), Ready (atV s) f.m [f.d, f.a] s →
  let a := (atV s).row s f.a.toNat 32 1
  let en := ((atV s).mask s f.m.toNat 0).val
  let anchor := fmtAnchor (s.fmt s.cur.q)
  let lanes := (List.range 512).filter (fun i => en.getLsbD i)
  let terms := lanes.map (fun i => (xaOfF32 anchor (a.lane 32 i)).1)
  let sum : Xa := ⟨(terms.map Xa.n).sum, terms.any Xa.p, terms.any Xa.q⟩
  let bad := lanes.any (fun i => a.lanePoison 32 i)
  let own := fun i => if en.getLsbD i && !a.lanePoison 32 i then (xaOfF32 anchor (a.lane 32 i)).2 else 0
  let narrow := sum.toF32 anchor (rounding (s.fmt s.cur.q) f.rm.toNat)
  exec (.vsumxXa f) s = rowGives s f.d (headLanes 128 [if bad then .poisoned else { bits := sum.n.toNat, p := sum.p, q := sum.q }]) 12 (f.nf = 1)
    (flagSet false ((List.range 512).map own)) ∧
  exec (.vsumxF32 f) s = rowGives s f.d (headLanes 32 [if bad then .poisoned else { bits := narrow.bits }]) 12 (f.nf = 1)
    (flagSet false ((List.range 512).map (fun i => if i = 0 then own i ||| (if bad then 0 else narrow.flags) else own i))))

/-- R170: VMAXR and VMINR give the extreme enabled lane, with aux[2] the lowest lane that holds it; the default NaN and its lowest lane when
one is NaN; the ends of the type and an index of all ones when no lane is enabled; poison when an enabled lane is poisoned. -/
def Obligations.ExtremeLaneResults : Prop := ∀ (f : VR) (s : State), Ready (atV s) f.m [f.d, f.a] s →
  let ty := f.aux.toNat % 4
  let lw := if ty < 2 then 32 else 16
  let fm := if ty = 0 then fp32 else bf16
  let isFloat := ty % 2 = 0
  let a := (atV s).row s f.a.toNat lw 1
  let en := Enabled ((atV s).mask s f.m.toNat 0).val (16384 / lw)
  let order := fun v => if isFloat then fm.key v else signedOf lw v
  let put := fun (v i : LaneOut) (fl : LaneFlags) =>
    rowGives s f.d (headLanes lw (v :: (if f.aux.toNat / 4 % 2 = 1 then [i] else []))) 8 (f.nf = 1) (if fl = 0 then {} else laneZeroFlags false fl)
  let result := fun (o : Host.Outcome State Fault Refusal) (before : Int → Int → Prop) (ends : Nat) =>
    ((∃ i, en i ∧ a.lanePoison lw i = true) → o = put .poisoned .poisoned 0) ∧
    ((∀ i, en i → a.lanePoison lw i = false) →
      (∀ i, isFloat → en i → (fm.value (a.lane lw i)).isNaN = true → (∀ j, en j → j < i → (fm.value (a.lane lw j)).isNaN = false) →
        o = put { bits := fm.nan } { bits := i } (if (fm.value (a.lane lw i)).isSignalling then flIV else 0)) ∧
      (∀ i, (isFloat → ∀ j, en j → (fm.value (a.lane lw j)).isNaN = false) → en i →
        (∀ j, en j → j < i → before (order (a.lane lw i)) (order (a.lane lw j))) →
        (∀ j, en j → ¬ before (order (a.lane lw j)) (order (a.lane lw i))) → o = put { bits := a.lane lw i } { bits := i } 0) ∧
      ((∀ i, ¬ en i) → o = put { bits := ends } { bits := 2 ^ lw - 1 } 0))
  result (exec (.vmaxr f) s) (fun x y => y < x) (if isFloat then fm.inf true else 2 ^ (lw - 1)) ∧
  result (exec (.vminr f) s) (fun x y => x < y) (if isFloat then fm.inf false else 2 ^ (lw - 1) - 1)

/-- R171, R172, R63 to R67: the statistics opcodes update, merge, reduce and read triples lane by lane; a triple lane that any of its words
poisons is poisoned. -/
def Obligations.StatisticsResults : Prop := ∀ (f : VR) (s : State), Ready (atV s) f.m [f.d] s →
  let d := f.d.toNat
  let a := f.a.toNat
  let b := f.b.toNat
  let nf := f.nf = 1
  let en := ((atV s).mask s f.m.toNat 0).val
  let fmt := s.fmt s.cur.q
  let at_ := fun (r : Row × Row × Row) i => if triplePoison r i then none else some (tripleLane r i)
  let word := fun (r : Row) i => if r.lanePoison 32 i then none else some (r.lane 32 i)
  let old := tripleRows (atV s) s d 1
  let one := tripleRows (atV s) s a 1
  let two := tripleRows (atV s) s b 4
  let derive := fun (g : Triple → Chain) => laneGives (atV s) s f.d f.m 32 6 nf fun i => .of (triplePoison one i)
    (let t := tripleLane one i
     if t.isInvalid then ⟨fp32.nan, flIV⟩ else if t.isEmpty then ⟨0, flIV⟩ else ⟨(g t).bits, (g t).flags⟩)
  (Allotted s [d + 1, d + 2] →
    exec (.vstateClr f) s = triplesGive s f.d f.m 6 nf (fun _ => some ⟨.empty, 0⟩) ∧
    (Allotted s [a] → exec (.vstatu f) s = triplesGive s f.d f.m 6 nf (fun i =>
      (at_ old i).bind fun t => (word ((atV s).row s a 32 4) i).map fun x => t.update x none)) ∧
    (Allotted s [a, b] → exec (.vstatw f) s = triplesGive s f.d f.m 6 nf (fun i =>
      (at_ old i).bind fun t => (word ((atV s).row s a 32 4) i).bind fun x => (word ((atV s).row s b 32 5) i).map fun w => t.update x (some w))) ∧
    (Allotted s [a, a + 1, a + 2, b, b + 1, b + 2] → exec (.vstatm f) s = triplesGive s f.d f.m 8 nf (fun i =>
      (at_ one i).bind fun t => (at_ two i).map fun u => t.merge u)) ∧
    (Allotted s [a, a + 1, a + 2] →
      ∀ node : Nat → Nat → TripleF,
      (∀ j, j < 512 → node 0 j = ⟨if en.getLsbD j then tripleLane one j else .empty, 0⟩) →
      (∀ k j, k < 9 → j < 2 ^ (8 - k) → node (k + 1) j = mergeNode (node k (2 * j)) (node k (2 * j + 1))) →
      let bad := (List.range 512).any (fun i => en.getLsbD i && triplePoison one i)
      exec (.vstath f) s = gives (atV s) s (.rows d)
        (.rows (writeTriples ((some (if bad then none else some (node 9 0).t)) :: List.replicate 511 (some (some Triple.empty))))) 12
        (laneZeroFlags nf (if bad then 0 else (node 9 0).flags)))) ∧
  (Allotted s [a, a + 1, a + 2] →
    exec (.vstateVar f) s = derive (fun t => (Chain.ofBits t.m2).div (.ofBits t.w)) ∧
    exec (.vstateSvar f) s = derive (fun t => (Chain.ofBits t.m2).div ((Chain.ofBits t.w).sub (.ofBits 0x3F800000))) ∧
    exec (.vstateRstd f) s = derive (fun t => rstd t (fmtEps fmt)))

/-- R173, R48 to R50: exact lanes add with their marks; a conversion pairs XA128 lane i with FP32 lane 128 q + i, and mask bit i controls
the pair. -/
def Obligations.ExactLaneResults : Prop := ∀ (f : VR) (s : State), Ready (atV s) f.m [f.d, f.a] s →
  let q := f.aux.toNat / 2 % 4
  let en := ((atV s).mask s f.m.toNat 0).val
  let anchor := fmtAnchor (s.fmt s.cur.q)
  let a := (atV s).row s f.a.toNat 128 1
  let b := (atV s).row s f.b.toNat 128 2
  let w := (atV s).row s f.a.toNat 32 1
  (Allotted s [f.b.toNat] → exec (.vxadd f) s = laneGives (atV s) s f.d f.m 128 2 true (fun i =>
    let x := a.xa i
    let y := b.xa i
    if a.lanePoison 128 i || b.lanePoison 128 i then .poisoned else { bits := (x.n + y.n).toNat, p := x.p || y.p, q := x.q || y.q })) ∧
  exec (.vxcvtXaF32 f) s = laneGives (atV s) s f.d f.m 128 3 (f.nf = 1) (fun i =>
    let r := xaOfF32 anchor (w.lane 32 (128 * q + i))
    if w.lanePoison 32 (128 * q + i) then .poisoned else { bits := r.1.n.toNat, p := r.1.p, q := r.1.q, flags := r.2 }) ∧
  (let outs := enabledLanes en 128 128 fun i => .of (a.lanePoison 128 i) ((a.xa i).toF32 anchor (rounding (s.fmt s.cur.q) f.rm.toNat))
   exec (.vxcvtF32Xa f) s = gives (atV s) s (.rows f.d.toNat)
     (.rows [writeLanes 32 (List.replicate (128 * q) none ++ outs ++ List.replicate (128 * (3 - q)) none)]) 3 (outFlags (f.nf = 1) outs))

/-- R174, R20: MAND to MNOT write every bit that m enables and clear nothing; MPOP and MFIRST count the bits of a AND m below the lane
count of FMT.ACT; a result is poisoned when a source mask is, and its bits are then zero (log 71). -/
def Obligations.MaskResults : Prop := ∀ (f : VR) (s : State), Ready (atV s) f.m [] s →
  let m := ((atV s).mask s f.m.toNat 0).val
  let a := (atV s).mask s (f.a.toNat % 16) 1
  let b := (atV s).mask s (f.b.toNat % 16) 2
  let d := f.d.toNat % 16
  let old := (atV s).mask s d 3
  let act := fmtAct (s.fmt s.cur.q)
  let L := if act = 1 then 1024 else if act = 2 then 128 else 512
  let bits := fun (o : Host.Outcome State Fault Refusal) (p : Bool) (g : Nat → Bool) =>
    ∃ k : MaskBits, o = gives (atV s) s (.mask d) (.mask k p) 2 {} ∧
      ∀ i, i < 1024 → k.getLsbD i = if p then false else if m.getLsbD i then g i else old.val.getLsbD i
  let count := fun (v : Word) => goesOn (atV s) [scalarResult (atV s) s (f.d.toNat % 64) a.poison v 2 true 0] s
  let set := fun i => a.val.getLsbD i && m.getLsbD i
  bits (exec (.mand f) s) (a.poison || b.poison) (fun i => a.val.getLsbD i && b.val.getLsbD i) ∧
  bits (exec (.mor f) s) (a.poison || b.poison) (fun i => a.val.getLsbD i || b.val.getLsbD i) ∧
  bits (exec (.mxor f) s) (a.poison || b.poison) (fun i => a.val.getLsbD i ^^ b.val.getLsbD i) ∧
  bits (exec (.mnot f) s) a.poison (fun i => !a.val.getLsbD i) ∧
  exec (.mpop f) s = count (BitVec.ofNat 64 ((List.range L).countP set)) ∧
  (∀ i, i < L → set i = true → (∀ j, j < i → set j = false) → exec (.mfirst f) s = count (BitVec.ofNat 64 i)) ∧
  ((∀ i, i < L → set i = false) → exec (.mfirst f) s = count (BitVec.allOnes 64))

/-- R175 to R177: VGLINT gives the sum that its glint register gains, over the enabled words, and its poison; VRNG fills its lanes from the
counter generator, a lane's value not depending on the mask. -/
def Obligations.GlintAndGeneratorResults : Prop := ∀ (f : VR) (s : State), Ready (atV s) f.m [] s →
  let en := ((atV s).mask s f.m.toNat 0).val
  let a := (atV s).row s f.a.toNat 32 1
  let lanes := (List.range 512).filter (fun i => en.getLsbD i)
  let key := (atV s).scalar s (f.a.toNat % 64) 1
  let base := (atV s).scalar s (f.b.toNat % 64) 2
  let mix := fun (i : Nat) =>
    let z := key.val + (base.val + BitVec.ofNat 64 i) * 0x9E3779B97F4A7C15
    let z := (z ^^^ z >>> 30) * 0xBF58476D1CE4E5B9
    let z := (z ^^^ z >>> 27) * 0x94D049BB133111EB
    z ^^^ z >>> 31
  let fill := fun (g : Word → Nat) =>
    laneGives (atV s) s f.d f.m 32 4 true fun i => ({ bits := g (mix i) } : LaneOut).taint (key.poison || base.poison)
  (Allotted s [f.a.toNat] → exec (.vglint f) s = gives (atV s) s (.glint (f.d.toNat % 4))
    (.word (lanes.map (fun i => BitVec.ofNat 64 (i * 2 ^ 32 + a.lane 32 i) * 0x9E3779B97F4A7C15)).sum (lanes.any (fun i => a.lanePoison 32 i))) 4 {}) ∧
  (Allotted s [f.d.toNat] → exec (.vrngBits f) s = fill (fun z => (z >>> 32).toNat) ∧
    exec (.vrngUnif f) s = fill (fun z => (ofInt fp32 .rne (z >>> 40).toNat (-24)).bits))

/-- R178 to R183, R52 to R57: quantiser operations on a scale record that s[b], or for XSCALE s[a], names, at issue where the scratchpad
is free: XQBX writes row d whole, XDQBX one FP32 lane for each enabled one, XSCALE ends the step as one record update; VAMAX raises IV for
each enabled lane that is not finite and folds the record's ring entry with the greatest finite magnitude, a NaN entry with an open value w
(log 22); a record without a finite lane, or with a poisoned one, is unchanged. That the update is performed at issue for everybody, and that behind an earlier access of the
core to its scratchpad or a drain (R263) the operation stands as an access to its record, with its result in flight, is log 76, the model's choice. -/
def Obligations.QuantiserResults : Prop := (∀ (f : VR) (s : State), Room s →
  let x := atX s
  let core := s.cur.q / 4
  let p := x.scalar s (f.b.toNat % 64) 2
  let po := p.val.toNat - 0xFF00000000000000
  let r := recordAt x s po
  let en := (x.mask s f.m.toNat 0).val
  let a := x.row s f.a.toNat 32 1
  let b := fmtBx (s.fmt s.cur.q)
  let g := leValue r.1 / 2 ^ 208 % 2 ^ 16
  let q := x.scalar s (f.a.toNat % 64) 1
  let off := q.val.toNat - 0xFF00000000000000
  let serves := fun (off : Nat) (l : List Act) => goesOn x (eccChecks s [(.spd core, off, 32)] (s.fnOf core) ++ l) s
  let stands := fun (i : Instr) (p : SReg) (d : Dest) (bound : Nat) => ∃ (fl : Flight) (acc : Access) (op : RecordOp),
    exec i s = goesOn x [.work (fun w => (w.push fl).pushAccess s { acc with flight := some w.nextId })] s ∧ fl.dest = d ∧ fl.missing = 1 ∧
    fl.due = s.cyc + bound ∧ acc.kind = .record op ∧ acc.va = p.val.toNat ∧ acc.size = 32
  (Ready x f.m [f.d, f.a] s → NamesRecord p → b ≠ 1 →
    (ownFree s s.cur.q = true →
      (let w := quantRow b en a g r.2
       exec (.xqbx f) s = serves po [result x s (.rows f.d.toNat) (.rows [w.1]) 10 (flagSet (f.nf = 1) w.2)]) ∧
      (let outs := enabledLanes en 512 512 (fun i =>
        let k := i / 32
        let bad := r.2 || a.poison.getLsbD (384 + k / 4) || (List.range b).any (fun j => a.poison.getLsbD (b * k + j))
        .of bad (bxToF32 (rounding (s.fmt s.cur.q) f.rm.toNat) b (bxMantissa b (a.byteAt (4 * b * k) (4 * b)) (i % 32))
          (leValue (a.byteAt (1536 + k) 1)) g))
       exec (.xdqbx f) s = serves po [result x s (.rows f.d.toNat) (.rows [writeLanes 32 outs]) 10 (outFlags (f.nf = 1) outs)])) ∧
    (ownFree s s.cur.q = false → stands (.xqbx f) p (.rows f.d.toNat) 10 ∧ stands (.xdqbx f) p (.rows f.d.toNat) 10)) ∧
  (NamesRecord q →
    (ownFree s s.cur.q = true → exec (.xscale f) s = serves off [.record core off scaleStep, result x s (.scalar (f.d.toNat % 64))
      (.word (if (recordAt x s off).2 then 0 else BitVec.ofNat 64 (deriveG (recordAt x s off).1)) (recordAt x s off).2) 6 {}]) ∧
    (ownFree s s.cur.q = false → stands (.xscale f) q (.scalar (f.d.toNat % 64)) 6))) ∧
  (∀ (f : VR) (s : State), Ready (atV s) f.m [f.a] s →
  let core := s.cur.q / 4
  let p := (atV s).scalar s (f.b.toNat % 64) 2
  let off := p.val.toNat - 0xFF00000000000000
  let en := ((atV s).mask s f.m.toNat 0).val
  let a := (atV s).row s f.a.toNat 32 1
  let finite := fun i => en.getLsbD i && isFinite32 (a.lane 32 i)
  let flags := raiseFlags (atV s) s 6 (flagSet (f.nf = 1)
    ((List.range 512).map (fun i => if en.getLsbD i && !a.lanePoison 32 i && !isFinite32 (a.lane 32 i) then flIV else 0)))
  NamesRecord p →
  ((∃ i, Enabled en 512 i ∧ a.lanePoison 32 i = true) → exec (.vamax f) s = goesOn (atV s) [flags] s) ∧
  ((∀ i, Enabled en 512 i → a.lanePoison 32 i = false) →
    ((∀ i, i < 512 → finite i = false) → exec (.vamax f) s = goesOn (atV s) [flags] s) ∧
    (∀ i, i < 512 → finite i = true → (∀ j, j < 512 → finite j = true → a.lane 32 j % 2 ^ 31 ≤ a.lane 32 i % 2 ^ 31) →
      ∃ w, (ownFree s s.cur.q = true → exec (.vamax f) s = goesOn (atV s) (flags :: (eccChecks s [(.spd core, off, 32)] (s.fnOf core) ++
          [.record core off (foldAmax w (a.lane 32 i % 2 ^ 31))])) s) ∧
        (ownFree s s.cur.q = false → ∃ acc : Access, exec (.vamax f) s = goesOn (atV s) [flags, .work (fun w => w.pushAccess s acc)] s ∧
          acc.kind = .record (.amax w (a.lane 32 i % 2 ^ 31)) ∧ acc.va = p.val.toNat ∧ acc.size = 32))))

/-- R184, R41: each special function gives the enabled lanes its value rounded by rm, within eight cycles; its special cases, for every
rounding mode: NaNs, infinities and zeros; reciprocals of zeros with DZ; roots and logarithms of negative numbers with IV. -/
def Obligations.SpecialFunctionResults : Prop := (∀ (f : VR) (s : State), Ready (atX s) f.m [f.d, f.a] s →
  let rm := rounding (s.fmt s.cur.q) f.rm.toNat
  let a := (atX s).row s f.a.toNat 32 1
  let sfu := fun (g : Nat → Flagged) => laneGives (atX s) s f.d f.m 32 8 (f.nf = 1) fun i => .of (a.lanePoison 32 i) (g (a.lane 32 i))
  exec (.xexp2 f) s = sfu (xexp2 rm) ∧ exec (.xlog2 f) s = sfu (xlog2 rm) ∧ exec (.xrcp f) s = sfu (fdiv fp32 rm 0x3F800000) ∧
  exec (.xrsqrt f) s = sfu (frsqrt fp32 rm) ∧ exec (.xsqrt f) s = sfu (fsqrt fp32 rm) ∧ exec (.xtanh f) s = sfu (xtanh rm) ∧
  exec (.xsigm f) s = sfu (xsigm rm) ∧ exec (.xsin f) s = sfu (xsin rm) ∧ exec (.xcos f) s = sfu (xcos rm)) ∧
  (∀ rm : Rounding,
  (∀ g ∈ [xexp2 rm, xlog2 rm, fdiv fp32 rm 0x3F800000, frsqrt fp32 rm, fsqrt fp32 rm, xtanh rm, xsigm rm, xsin rm, xcos rm],
    g 0x7FC00001 = ⟨0x7FC00000, 0⟩ ∧ g 0x7F800001 = ⟨0x7FC00000, flIV⟩) ∧
  xexp2 rm 0xFF800000 = ⟨0, 0⟩ ∧ xexp2 rm 0x7F800000 = ⟨0x7F800000, 0⟩ ∧ xexp2 rm 0 = ⟨0x3F800000, 0⟩ ∧ xexp2 rm 0x80000000 = ⟨0x3F800000, 0⟩ ∧
  xlog2 rm 0 = ⟨0xFF800000, flDZ⟩ ∧ xlog2 rm 0x80000000 = ⟨0xFF800000, flDZ⟩ ∧ xlog2 rm 0x7F800000 = ⟨0x7F800000, 0⟩ ∧ xlog2 rm 0x3F800000 = ⟨0, 0⟩ ∧
  (∀ a, 0x80000000 < a → a ≤ 0xFF800000 → xlog2 rm a = ⟨0x7FC00000, flIV⟩ ∧ frsqrt fp32 rm a = ⟨0x7FC00000, flIV⟩ ∧ fsqrt fp32 rm a = ⟨0x7FC00000, flIV⟩) ∧
  fdiv fp32 rm 0x3F800000 0 = ⟨0x7F800000, flDZ⟩ ∧ fdiv fp32 rm 0x3F800000 0x80000000 = ⟨0xFF800000, flDZ⟩ ∧
  fdiv fp32 rm 0x3F800000 0x7F800000 = ⟨0, 0⟩ ∧ fdiv fp32 rm 0x3F800000 0xFF800000 = ⟨0x80000000, 0⟩ ∧
  frsqrt fp32 rm 0 = ⟨0x7F800000, flDZ⟩ ∧ frsqrt fp32 rm 0x80000000 = ⟨0xFF800000, flDZ⟩ ∧ frsqrt fp32 rm 0x7F800000 = ⟨0, 0⟩ ∧
  fsqrt fp32 rm 0 = ⟨0, 0⟩ ∧ fsqrt fp32 rm 0x80000000 = ⟨0x80000000, 0⟩ ∧ fsqrt fp32 rm 0x7F800000 = ⟨0x7F800000, 0⟩ ∧
  xtanh rm 0 = ⟨0, 0⟩ ∧ xtanh rm 0x80000000 = ⟨0x80000000, 0⟩ ∧ xtanh rm 0x7F800000 = ⟨0x3F800000, 0⟩ ∧ xtanh rm 0xFF800000 = ⟨0xBF800000, 0⟩ ∧
  xsigm rm 0xFF800000 = ⟨0, 0⟩ ∧ xsigm rm 0x7F800000 = ⟨0x3F800000, 0⟩ ∧ xsigm rm 0 = ⟨0x3F000000, 0⟩ ∧ xsigm rm 0x80000000 = ⟨0x3F000000, 0⟩ ∧
  (∀ g ∈ [xsin rm, xcos rm], g 0x7F800000 = ⟨0x7FC00000, flIV⟩ ∧ g 0xFF800000 = ⟨0x7FC00000, flIV⟩) ∧
  xsin rm 0 = ⟨0, 0⟩ ∧ xsin rm 0x80000000 = ⟨0x80000000, 0⟩ ∧ xcos rm 0 = ⟨0x3F800000, 0⟩ ∧ xcos rm 0x80000000 = ⟨0x3F800000, 0⟩ ∧
  (∀ a, 0x4B000000 ≤ a → a < 0x7F800000 → xsin rm a = ⟨0, 0⟩ ∧ xcos rm a = ⟨0x3F800000, 0⟩))

/-- R186 to R206: an XE command whose checks hold is accepted: its registers are read now and it stands as a command of its duration;
an MCALL also starts the fetch of every tile its routine names (R197) and, under CK, keeps a checksum record, the last one unless a waiting drain
names another (R204, R205); MPSET and THSET write their register at once, MCHKS reads the checksum status and clears its counts. -/
def Obligations.EngineCommandsAccepted : Prop := ∀ (c : XC) (d : XD) (z : XZ) (u : XU) (f : VR) (s : State), Settled s →
  let core := s.cur.q / 4
  let x := atX s
  let accepted := fun (kind : CommandKind) (at_ : BitVec 16) (dur : Nat) (more : List Act) =>
    goesOn x (acceptCommand x s kind at_.toNat dur :: more) s
  (let e := s.routineOf core c.rtn.toNat
   let descs := mcallDescs c x s
   let dur := (e.extractLsb' 16 16).toNat + 1
   e.getLsbD 12 = true → (∀ d ∈ descs, (d.extractLsb' 18 2).toNat < 2 ∧ d.toNat < 2 ^ 20) →
   (e.getLsbD 40 = true → descs.length ≤ 1 ∧ ∀ d ∈ descs, (d.extractLsb' 18 2).toNat ≠ 1) →
   Unpipelined s → Allotted s (descs.flatMap descNames) → Accepts s c.at16.toNat dur →
   let waited := fun (k : CkRecord) => (s.mxeCommands core).any (fun y => y.compares = some k.cmd)
   exec (.mcall c) s = accepted (.mcall c.rtn.toNat) c.at16 dur ((handlesOf s core (e.extractLsb' 0 12).toNat).flatMap (fetchTile x s) ++
     (if e.getLsbD 40 then [.core core (fun y => { y with chk := { y.chk with records := y.chk.records.filter waited ++
       [{ cmd := s.work.nextId, row0 := (descs.map descRow0).headD 0, nrow := (descs.map descRows).headD 0, fmt := s.fmt s.cur.q }] } })] else []))) ∧
  (let nrow := d.nrow.toNat + 1
   let act := fmtAct (s.fmt s.cur.q)
   let nout := if act = 0 then nrow else nrow / 4
   let t := s.mpOf core d.mpt.toNat
   let tr := (s.mpOf core ((d.mpt.toNat + 1) % 8)).toNat
   let last := (s.coreOf core).chk.records.getLast?
   let rows := (List.range nrow).map (fun i => d.row0.toNat + i)
   let places := ∀ r, r < nout → classify s core (drainRowAddr t r) 2048 64 .engine = none
   let checked := d.ck = 1 → act = 0 ∧ ∃ k, last = some k ∧ k.row0 = d.row0.toNat ∧ k.nrow = nrow
   let dur := fun (ck : Bool) => 4 + nout + (if ck then nout + 1024 else 0)
   let cmd := fun (form : Nat) (ck : Bool) => goesOn x [acceptCommand x s (.drain form d.row0.toNat nrow (d.clamp = 1) (d.ck = 1) t (tr % 512))
     d.at16.toNat (dur ck) (if d.ck = 1 then last.map CkRecord.cmd else none)] s
   Unpipelined s → (act = 0 ∨ (act = 2 ∧ nrow % 4 = 0)) → Allotted s rows → places → checked →
     (Accepts s d.at16.toNat (dur (d.ck = 1)) → exec (.mdrain d) s = cmd 0 (d.ck = 1)) ∧
     (Accepts s d.at16.toNat (dur false) → (t.extractLsb' 48 2).toNat = 1 → exec (.mdrainAo d) s = cmd 1 false ∧ exec (.mdrainAu d) s = cmd 2 false) ∧
     (Accepts s d.at16.toNat (dur (d.ck = 1)) → tr < 510 → Allotted s [tr, tr + 1, tr + 2] → exec (.mdrainN d) s = cmd 3 (d.ck = 1))) ∧
  (let n := z.nrow.toNat + 1
   let dur := 1 + (n + 15) / 16
   Allotted s ((List.range n).map (fun i => z.row0.toNat + i)) → Accepts s z.at16.toNat dur →
   exec (.mzero z) s = accepted (.zero z.row0.toNat n) z.at16 dur []) ∧
  (let a := x.scalar s u.a.toNat 0
   let b := x.scalar s u.b.toNat 1
   let source := fun n align => classify s core a.val.toNat n align .engine = none ∧ windowOf a.val.toNat = 4
   a.poison = false → b.poison = false →
     (let n := (b.val.extractLsb' 20 12).toNat + 1
      let dur := 4 + (n + 31) / 32
      (b.val.extractLsb' 8 12).toNat + n ≤ 4096 → b.val.toNat < 2 ^ 57 → source (8 * n) 8 → Accepts s u.at16.toNat dur →
      exec (.mucld u) s = accepted (.mucld a.val.toNat b.val) u.at16 dur []) ∧
     (let n := (b.val.extractLsb' 12 12).toNat + 1
      let dur := 4 + (n + 1) / 2
      let first := (b.val.extractLsb' 0 12).toNat
      first + n ≤ 4096 → b.val.toNat < 2 ^ 24 → source (512 * n) 64 → Accepts s u.at16.toNat dur →
      exec (.mbld u) s = accepted (.mbld a.val.toNat first n) u.at16 dur [])) ∧
  (let a := x.scalar s (f.a.toNat % 64) 0
   let b := x.scalar s (f.b.toNat % 64) 1
   (a.poison = false → exec (.mpset f) s = goesOn x [.mp core (f.d.toNat % 8) a.val] s) ∧
   (a.poison = false → b.poison = false → b.val.toNat < 2 ^ 32 → (b.val.extractLsb' 0 24).toNat % 64 = 0 → a.val.toNat % 64 = 0 →
    windowOf a.val.toNat = 1 → windowOf (a.val.toNat + (b.val.extractLsb' 24 5).toNat * (b.val.extractLsb' 0 24).toNat + 2047) = 1 →
    exec (.thset f) s = goesOn x [.th core (f.d.toNat % 64) (b.val ++ a.val)] s) ∧
   (Room s → let k := (s.coreOf core).chk
    exec (.mchks f) s = goesOn x [scalarResult x s (f.d.toNat % 64) false k.word 1 true 0,
      .core core (fun y => { y with chk := { y.chk with ccnt := 0, ucnt := 0 } })] s))

/-- R119, R76, R122, R84: branches: BR and BRI take the target, BRC when its condition holds, CALL writes the address after its bundle to s63
and RET goes to s63; targets count in words of two bytes from the branch's own bundle. -/
def Obligations.BranchResults : Prop := ∀ (f : SB) (s : State), Settled s →
  let x := atS1 s
  let a := x.scalar s f.a.toNat 0
  let b := x.scalar s f.b.toNat 1
  let link := x.scalar s 63 0
  let t : Int := (s.seqOf s.cur.q).pc + 2 * f.off24.toInt
  (InStream s t → InLoop s t → exec (.br f) s = goesTo x (.branch t) [] s) ∧
  (a.poison = false → b.poison = false →
    (icond 64 f.cond.toNat a.val.toNat b.val.toNat = true → InStream s t → InLoop s t → exec (.brc f) s = goesTo x (.branch t) [] s) ∧
    (icond 64 f.cond.toNat a.val.toNat b.val.toNat = false → exec (.brc f) s = goesOn x [] s)) ∧
  (a.poison = false → InStream s a.val.toNat → InLoop s a.val.toNat → exec (.bri f) s = goesTo x (.branch a.val.toNat) [] s) ∧
  (Room s → Unpipelined s → InStream s t → exec (.call f) s =
    goesTo x (.free t) [scalarResult x s 63 false (BitVec.ofNat 64 (((s.seqOf s.cur.q).pc + sizeAt s s.cur.q) % 2 ^ 32)) 1 true 0] s) ∧
  (link.poison = false → InStream s link.val.toNat → exec (.ret f) s = goesTo x (.free link.val.toNat) [] s) ∧
  ((f.cond = 0 ∧ a.poison = true ∨ f.cond ≠ 0 ∧ (x.mask s (f.a.toNat % 16) 0).poison = true) → InStream s t →
    exec (.chk f) s = goesTo x (.free t) [] s) ∧
  ((f.cond = 0 ∧ a.poison = false ∨ f.cond ≠ 0 ∧ (x.mask s (f.a.toNat % 16) 0).poison = false) → exec (.chk f) s = goesOn x [] s) ∧
  (let act := fmtAct (s.fmt s.cur.q)
   let lw := if act = 1 then 16 else if act = 2 then 128 else 32
   let m := x.mask s f.cond.toNat 0
   let n := f.b.toNat % 8 * 64 + f.a.toNat
   let bad := m.poison = true ∨ ∃ i, Enabled m.val (16384 / lw) i ∧ (x.row s n lw 1).lanePoison lw i = true
   Allotted s [n] → (bad → InStream s t → exec (.chkm f) s = goesTo x (.free t) [] s) ∧ (¬ bad → exec (.chkm f) s = goesOn x [] s))

/-- R120 to R127, R130 to R132, R38: LOOP and LOOPP push an entry that begins after their bundle, or skip the body when the count is 0; six
entries held are the loop-stack-overflow trap, whatever the count; LOOPP under the re-entry flag pushes nothing; LEXIT leaves its levels
unless its register is 0, and traps when the stack holds fewer; that a LOOPP under the re-entry flag goes on with six entries held is log 59, the
model's reading; a REP bundle of count n does its targeted slot now and leaves n - 1
repetitions to come. -/
def Obligations.LoopResults : Prop := (∀ (f : SL) (s : State), Settled s →
  let x := atS1 s
  let y := s.seqOf s.cur.q
  let r := x.scalar s f.a.toNat 0
  let t : Int := y.pc + 2 * f.off18.toInt
  let n := if f.imm12 = 0xFFF then r.val.toNat else f.imm12.toNat
  let entry : LoopEntry := { start := y.pc + sizeAt s s.cur.q, stop := t.toNat, index := 0, count := n }
  (Unpipelined s → 0 < f.off18.toInt → (f.imm12 = 0xFFF → f.a ≠ 0 ∧ r.poison = false ∧ n < 2 ^ 32) →
    (y.loops.length < 6 → n ≠ 0 → exec (.loop f) s = goesOn x [pushLoop s.cur.q entry] s) ∧
    (y.loops.length < 6 → n = 0 → exec (.loop f) s = goesTo x (.zeroLoop t) [] s) ∧
    (6 ≤ y.loops.length → exec (.loop f) s = traps s 1 0x08)) ∧
  (Unpipelined s → 0 < f.off18.toInt → f.a ≠ 0 → r.poison = false → r.val.toNat < 2 ^ 32 →
    (y.reent = false → y.loops.length < 6 → r.val ≠ 0 → exec (.loopp f) s = goesOn x [pushLoop s.cur.q
      { entry with count := r.val.toNat, pipe := true, stage := f.sub.toNat % 8, prologue := (y.pc + 2 ^ 32 - 2 * f.imm12.toNat) % 2 ^ 32 }] s) ∧
    (y.reent = false → y.loops.length < 6 → r.val = 0 → exec (.loopp f) s = goesTo x (.zeroLoop t) [] s) ∧
    (y.reent = false → 6 ≤ y.loops.length → exec (.loopp f) s = traps s 1 0x08) ∧
    (y.reent = true → exec (.loopp f) s = goesOn x [.seq s.cur.q (fun y => { y with reent := false })] s)) ∧
  (let levels := f.imm12.toNat % 8 + 1
   let leaves := f.a = 0 ∨ (r.poison = false ∧ r.val ≠ 0)
   (leaves → InStream s t → levels ≤ y.loops.length → exec (.lexit f) s = goesTo x (.lexit levels t) [] s) ∧
   (leaves → InStream s t → y.loops.length < levels → exec (.lexit f) s = traps s 1 0x09) ∧
   (f.a ≠ 0 → r.poison = false → r.val = 0 → exec (.lexit f) s = goesOn x [] s))) ∧
  (∀ (g : RP) (s : State), Settled s →
  let x := atS1 s
  let q := s.cur.q
  let c := x.scalar s g.a.toNat 0
  let n := if g.imm12 = 0xFFF then c.val.toNat else g.imm12.toNat
  let more : List Act := if 2 ≤ n ∧ g.mask ≠ 0 then
    [.seq q (fun y => { y with rep := some ⟨n - 1, g.mask.toNat, g.sd.toInt, g.sa.toInt, g.sb.toInt, (s.seqOf q).pc, 1⟩ })] else []
  (g.imm12 = 0xFFF → g.a ≠ 0 ∧ c.poison = false ∧ n < 2 ^ 24) →
  (g.mask = 0 ∨ g.sd = 0 ∧ g.sa = 0 ∧ g.sb = 0 → exec (.rep g) s = goesOn x more s) ∧
  (g.mask ≠ 0 → g.sd ≠ 0 ∨ g.sa ≠ 0 ∨ g.sb ≠ 0 → exec (.rep g) s = traps s 1 0x04) ∧
  (∀ h : VR, g.mask = 1 → g.sd ≠ 0 → 0 < n → Room s → (atV s).slot = 2 → ((atV s).mask s h.m.toNat 0).poison = false →
    (∀ k r st, k < n → (r, st) ∈ [(h.d, g.sd), (h.a, g.sa), (h.b, g.sb)] →
      ∃ row : Nat, (row : Int) = r.toNat + k * st.toInt ∧ row < 512 ∧ inAllotment s q row = true) →
    exec (.bundleIssue .nop (.rep g) (.viaddI32 h) .nop .nop .nop .nop .nop) s = goesOn (atV s) ((opViaddI32 h).acts (atV s) s ++ more) s))

/-- R134 to R138, R141, R17, R285, R303: SPAWN copies its registers and starts the sibling at the target, a byte counter of 32 bits
(R76), in the next cycle; YIELD parks a sibling,
stops for a Quiesce, and at the lead states the queue's run; HALT empties the loop stack and stops the sequencer; TRAP is taken at the
boundary after its bundle. -/
def Obligations.SequencerControlResults : Prop := ∀ (f : SL) (g : SX) (s : State), Settled s →
  let x := atS1 s
  let q := s.cur.q
  let y := s.seqOf q
  let n := f.imm12.toNat % 16
  let sib := f.sub.toNat % 4
  let t : Int := y.pc + 2 * f.off18.toInt
  let r := f.imm12.toNat * 2 ^ f.sub.toNat
  (Unpipelined s → n ≤ 8 → (n ≠ 0 → f.a.toNat + n ≤ 64) → (f.a ≠ 0 → n ≠ 0) → sib ≠ q % 4 → sib < (s.coreOf (q / 4)).width →
    ((s.seqOf (4 * (q / 4) + sib)).run = .idle → exec (.spawn f) s =
      goesOn x ((List.range n).map (fun i => Act.scalar (4 * (q / 4) + sib) (1 + i) (x.scalar s (f.a.toNat + i) i)) ++
        [.seq (4 * (q / 4) + sib) (fun y => { y with pc := (BitVec.ofInt 32 t).toNat, run := .run, loops := [], rep := none, fmt := s.fmt q
                                                     resumeAt := s.cyc + 1 })]) s) ∧
    ((s.seqOf (4 * (q / 4) + sib)).run ≠ .idle → exec (.spawn f) s = traps s 1 0x0B)) ∧
  (Unpipelined s → y.hnd = false → f.imm12 ≠ 0 →
    (∀ e, y.loops.getLast? = some e → e.pipe = false ∧ y.pc + sizeAt s q = e.stop) →
    exec (.yield f) s = goesOn x (yieldActs s q r) s ∧
    (quiescing s (q / 4) = true → yieldActs s q r = .seq q (fun z => { z with run := .quiesced }) :: (if leadOf s (q / 4) = some (q % 4) then
      (List.range 4).map (fun i => Act.seq (4 * (q / 4) + i) (fun z => if z.run = .parked then { z with run := .quiesced } else z)) ++
        stateRun (s.coreOf (q / 4)) (q / 4) r else [])) ∧
    (quiescing s (q / 4) = false → leadOf s (q / 4) ≠ some (q % 4) → yieldActs s q r = [.seq q (fun z => { z with run := .parked })]) ∧
    (∀ m, quiescing s (q / 4) = false → leadOf s (q / 4) = some (q % 4) → (s.coreOf (q / 4)).owner = some m →
      rivalReady (s.coreOf (q / 4)) (some m) = false → s.chip.meas ≤ s.chip.cap → yieldActs s q r =
        (List.range 4).map (fun i => Act.seq (4 * (q / 4) + i) (fun z =>
          if z.run = .parked then z.proceed else if z.hnd then { z with released := true } else z)) ++
        [modQueue (q / 4) m (fun z => { z with run := r, sinceYield := 0, overrun := false }), .core (q / 4) (fun y => { y with stretchFor := none })])) ∧
  (Unpipelined s → exec (.halt g) s = goesOn x (haltActs s q) s ∧
    (Canonical s → ∃ t, exec (.halt g) s = .next t ∧ (t.seqOf q).run = .idle ∧ (t.seqOf q).loops = [])) ∧
  (let cause : Cause := ⟨0x32, some 1, false, g.imm12.toNat, y.pc⟩
   exec (.trap g) s = goesOn x [.seq q (fun y => { y with sync := some cause })] s) ∧
  (∀ cause, y.sync = some cause → y.run = .run → asyncTrap s q = none → boundaryTrap s q = some ([], .trapEntry q cause))

/-- R142 to R153, R29 to R31, R36, R37: RETT in a handler restores what the frame holds, sends a wait's request again and resumes at EPC, and
outside a handler is an illegal encoding; a poisoned frame is poison consumed (log 87, the model's choice); a system register read gives its value
as it stands, checking what it reads of the frame (R235), a lane-flag register into a mask; a write of 1s clears the bits set before its cycle
(R146), WRAP with NX (R36); other writes,
SETFMT, SETTB, TWAIT, TREALIGN, GLCHK and FLCLR. -/
def Obligations.SystemResults : Prop := (∀ (f : SX) (s : State), Settled s →
  let q := s.cur.q
  ((s.seqOf q).hnd = true → InStream s (frameEpc s q) → framePoisoned s q = false → exec (.rett f) s =
    goesTo (atS1 s) (.resume (frameEpc s q)) (frameChecks s q ++ leaveTrap s q ++ requestWait s q (frameWait s q).2 ((atS1 s).ck 10) ++
      (frameMore s q).flatMap (fun w => requestWait s q w.wait ((atS1 s).ck 11))) s ∧
    (Canonical s → ∃ t, exec (.rett f) s = .next t ∧ (t.seqOf q).pc = frameEpc s q ∧ (t.seqOf q).hnd = false ∧ (t.seqOf q).loops = frameLoops s q ∧
      (t.seqOf q).rep = frameRep s q ∧ (t.seqOf q).rearm = true)) ∧
  ((s.seqOf q).hnd = true → InStream s (frameEpc s q) → framePoisoned s q = true → exec (.rett f) s = traps s 1 0x07) ∧
  ((s.seqOf q).hnd = false → exec (.rett f) s = traps s 1 0x04)) ∧
  (∀ (f : SX) (g : SL) (s : State), Settled s →
  let x := atS1 s
  let q := s.cur.q
  let i := f.sysreg.toNat
  let a := x.scalar s f.a.toNat 0
  let ga := x.scalar s g.a.toNat 0
  (Room s → sysAssigned i = true → laneIndex i = none →
    (let l := sysFrame q i
     exec (.sysrd f) s = goesOn x (eccChecks s l (s.fnOf (q / 4)) ++
       [scalarResult x s f.d.toNat (l.any (fun p => s.unitPoisoned p.1 p.2.1)) (sysRead x s i) 1 true 0]) s)) ∧
  (∀ k, Room s → laneIndex i = some k → f.d.toNat < 16 →
    exec (.sysrd f) s = goesOn x [result x s (.mask f.d.toNat) (.mask ((seenFlags x s).laneFlag q k) false) 1 {}] s) ∧
  (sysAssigned i = true → laneIndex i = none → (a.poison = false ∨ 0x080 ≤ i ∧ i ≤ 0x083) →
    exec (.syswr f) s = goesOn x (sysWrite x s i a) s) ∧
  (∀ k, laneIndex i = some k → f.a.toNat < 16 → (x.mask s f.a.toNat 0).poison = false →
    let left := fun k => (applyActs (takeEarly x s) s).laneFlag q k &&& ~~~(x.mask s f.a.toNat 0).val
    exec (.syswr f) s = goesOn x (takeEarly x s ++ [.lanes q k (left k)] ++ (if k % 6 = 4 then [.lanes q (k + 1) (left (k + 1))] else [])) s) ∧
  (Room s → a.poison = false → fmtRefused a.val = false →
    exec (.setfmt f) s = gives x s .fmt (.word a.val false) 4 {}) ∧
  (let gl := s.readGlint q (i - 0x080) (x.ck 59)
   gl.poison = false → a.poison = false → gl.val = a.val → exec (.glchk f) s = goesOn x [] s) ∧
  exec (.flclr f) s = goesOn x (takeEarly x s ++ clearFlags q) s ∧
  (ga.poison = false →
    exec (.settb g) s = goesOn x [.seq q (fun y => { y with tb := BitVec.ofNat 64 s.cyc + ga.val + g.imm12.setWidth 64 })] s ∧
    (ga.val.toNat ≤ s.gtime → exec (.twait g) s = goesOn x [] s) ∧
    (s.gtime < ga.val.toNat → exec (.twait g) s = goesOn x [.seq q (fun y => { y with run := .wait, wait := .twait ga.val })] s)) ∧
  (g.imm12.toNat % 32 ≤ 24 →
    exec (.trealign g) s = goesOn x [.seq q (fun y => { y with run := .wait, wait := .trealign (g.imm12.toNat % 32) })] s))

/-- R207 to R212, R232: loads, stores, gathers and scatters whose address passes the checks issue: a load of each of its units into its
destination within 8 << lat cycles, a store of each of its units, VLDT against its tag, VLDB from the own BOS, at once or, behind a drain (R218),
as an access to its column; a poisoned unit of it asks for a rollback (R126). -/
def Obligations.MemoryAccessesIssue : Prop := ∀ (f : MA) (g : MI) (s : State), Settled s →
  let x := atM s
  let base := x.scalar s f.a.toNat 0
  let at_ := (base.val + f.off21.signExtend 64).toNat
  let data := x.scalar s (f.d.toNat % 64) 1
  let load := fun (n : Nat) => goesOn x (issueLoad x s (.scalar (f.d.toNat % 64)) (.word 0 false) 0 512 f.lat.toNat [⟨at_, n, 0⟩]) s
  let store := fun (n : Nat) => goesOn x (issueStore x s 0 (groupBound x s [⟨at_, n, 0⟩] true (x.ck 8))
    [(⟨at_, n, 0⟩, leBytes n (if data.poison then 0 else data.val.toNat), List.replicate n data.poison)]) s
  let row := fun (a : Nat) => goesOn x (issueLoad x s (.rows f.d.toNat) (.rows [emptyRow]) 0 (8 * rowUnit a) f.lat.toNat (parts a 2048 (rowUnit a))) s
  (base.poison = false → Room s →
    (Passes s at_ 1 1 .load → exec (.ld8 f) s = load 1) ∧ (Passes s at_ 2 2 .load → exec (.ld16 f) s = load 2) ∧
    (Passes s at_ 4 4 .load → exec (.ld32 f) s = load 4) ∧ (Passes s at_ 8 8 .load → exec (.ld64 f) s = load 8) ∧
    (Allotted s [f.d.toNat] →
      (Passes s at_ 2048 64 .load → exec (.vld f) s = row at_) ∧
      (let a := vldtAddr f x s
       Passes s a 2048 2048 .load → windowOf a = 4 → SMap.get 0 s.tags (1024 * (s.cur.q / 4) + a % 2 ^ 22 / 4096) = base.val.extractLsb' 40 16 →
       exec (.vldt f) s = row a) ∧
      (at_ ≤ 4092 → at_ % 4 = 0 → holdClear s (s.seqOf s.cur.q).hold = false → ∃ (fl : Flight) (acc : Access), exec (.vldb f) s =
         goesOn x [.work (fun w => (w.push fl).pushAccess s { acc with flight := some w.nextId })] s ∧ fl.dest = .rows f.d.toNat ∧ fl.missing = 1 ∧
         fl.due = s.cyc + 8 * 2 ^ f.lat.toNat ∧ acc.kind = .column at_) ∧
      (let bos := Home.bos (s.cur.q / 4)
       let y := s.seqOf s.cur.q
       at_ ≤ 4092 → at_ % 4 = 0 → holdClear s y.hold = true → exec (.vldb f) s = goesOn x (eccChecks s ((List.range 512).map (fun j => (bos, 4096 * j + at_, 4))) (s.fnOf (s.cur.q / 4)) ++
        [result x s (.rows f.d.toNat) (.rows [writeLanes 32 ((List.range 512).map (fun j =>
          let p := s.unitPoisoned bos (4096 * j + at_)
          some { bits := if p then 0 else leValue (s.readBytes bos (4096 * j + at_) 4), poison := p }))]) (8 * 2 ^ f.lat.toNat) {}] ++
          columnError s s.cur.q at_ (loadPass y) y.hnd) s))) ∧
  (base.poison = false →
    (Passes s at_ 1 1 .store → exec (.st8 f) s = store 1) ∧ (Passes s at_ 2 2 .store → exec (.st16 f) s = store 2) ∧
    (Passes s at_ 4 4 .store → exec (.st32 f) s = store 4) ∧ (Passes s at_ 8 8 .store → exec (.st64 f) s = store 8) ∧
    (Allotted s [f.d.toNat] → Passes s at_ 2048 64 .store →
      let b := (x.row s f.d.toNat 32 1).bytes 0 2048
      let us := parts at_ 2048 (rowUnit at_)
      exec (.vst f) s = goesOn x (issueStore x s 0 (groupBound x s us true (x.ck 8))
        (us.map (fun u => (u, (b.1.drop u.off).take u.size, (b.2.drop u.off).take u.size)))) s)) ∧
  (let es := elements g x s
   let live := es.filter (fun e => !e.2.2)
   (x.scalar s g.a.toNat 0).poison = false → Allotted s [g.d.toNat, g.x.toNat] →
     (Room s → (∀ e ∈ live, Passes s e.2.1 4 4 .load) → ∃ lanes got, exec (.vgath g) s =
       goesOn x (issueLoad x s (.rows g.d.toNat) (.rows [writeLanes 32 lanes]) got 32 g.lat.toNat (live.map (fun e => ⟨e.2.1, 4, 4 * e.1⟩))) s ∧
       ∀ i, i < 512 → lanes.getD i none = if ∃ e ∈ es, e.1 = i then some (if ∃ e ∈ es, e.1 = i ∧ e.2.2 = true then .poisoned else { bits := 0 }) else none) ∧
     ((∀ e ∈ es, e.2.2 = false ∧ Passes s e.2.1 4 4 .store) → exec (.vscat g) s = goesOn x (es.flatMap fun e =>
       let r := x.row s g.d.toNat 32 2
       let p := r.lanePoison 32 e.1
       issueStore x s e.1 (groupBound x s (es.map (fun e => ⟨e.2.1, 4, 0⟩)) true (x.ck 8)) [(⟨e.2.1, 4, 0⟩, leBytes 4 (if p then 0 else r.lane 32 e.1), List.replicate 4 p)]) s))

/-- R209, R211, R263: a scalar load from the own scratchpad gives the bytes that stand there, least significant first and zero-extended, or
zero and poisoned when a unit of them is poisoned, once the ECC check has corrected a flipped bit; a scalar store puts the low bytes of its register, or zeros for a poisoned one, at its
address and leaves every other byte of every memory, every register and every other store as it was. -/
def Obligations.OwnScratchpadAccesses : Prop := (∀ (f : MA) (s : State), Room s → PerformsAtIssue s →
  let x := atM s
  let base := x.scalar s f.a.toNat 0
  let a := (base.val + f.off21.signExtend 64).toNat
  let home := Home.spd (s.cur.q / 4)
  base.poison = false →
  ∀ n i, (n, i) ∈ [(1, Instr.ld8 f), (2, .ld16 f), (4, .ld32 f), (8, .ld64 f)] → windowOf a = 4 → Passes s a n n .load →
  let p := (s.readPoison home (a % 2 ^ 22) n).any id
  ∃ fl : Flight, exec i s = goesOn x (eccChecks s [(home, a % 2 ^ 22, n)] (s.fnOf (s.cur.q / 4)) ++ [.work (fun w => w.push fl)]) s ∧
    fl.q = s.cur.q ∧ fl.dest = .scalar (f.d.toNat % 64) ∧ fl.issue = s.cyc ∧ fl.due = s.cyc + 8 * 2 ^ f.lat.toNat ∧ fl.missing = 0 ∧
    fl.val = .word (if p then 0 else BitVec.ofNat 64 (leValue (s.readBytes home (a % 2 ^ 22) n))) p) ∧
  (∀ (f : MA) (s t : State), Settled s → PerformsAtIssue s →
  let x := atM s
  let base := x.scalar s f.a.toNat 0
  let v := x.scalar s (f.d.toNat % 64) 1
  let a := maAddr f x s
  let home := Home.spd (s.cur.q / 4)
  base.poison = false →
  ∀ n i, (n, i) ∈ [(1, Instr.st8 f), (2, .st16 f), (4, .st32 f), (8, .st64 f)] → windowOf a = 4 → Passes s a n n .store → exec i s = .next t →
  (∀ k, k < n → t.readByte home (a % 2 ^ 22 + k) = if v.poison then 0 else v.val.extractLsb' (8 * k) 8) ∧
  (∀ h b, (h.kind ≠ 0 ∨ ∀ k, k < n → h.key b ≠ home.key (a % 2 ^ 22 + k)) → t.readByte h b = s.readByte h b) ∧
  t.scalars = s.scalars ∧ t.masks = s.masks ∧ t.glints = s.glints ∧ t.laneFlags = s.laneFlags ∧ t.rows = s.rows ∧ t.mps = s.mps ∧ t.ths = s.ths ∧
  t.tags = s.tags ∧ t.bosPoison = s.bosPoison ∧ t.syePoison = s.syePoison ∧ t.hbmPoison = s.hbmPoison ∧ t.work.flights = s.work.flights ∧ t.chip = s.chip)

/-- R213, R214, R238, R239: PROBE gives the address of the slot that holds its block, going on when it holds and to its target, with a copy
of the block into the slot it takes queued, when none does; PREF begins a walk for a device address without a translation, fills the L1 TLB from the last-level one, and is never a fault. -/
def Obligations.ProbeResults : Prop := ∀ (f : MA) (s : State), Settled s →
  let x := atM s
  let c := s.cur.q / 4
  let y := s.coreOf c
  let a := x.scalar s f.a.toNat 0
  let n := y.ptSize / 4096
  let block := a.val.toNat / 4096 * 4096
  let t : Int := (s.seqOf s.cur.q).pc + 2 * f.off21.toInt
  let slotAddress := fun (i : Nat) => scalarResult x s (f.d.toNat % 64) false
    (BitVec.ofNat 64 (0xFF00000000000000 + y.ptBase + 4096 * i + a.val.toNat % 4096)) (8 * 2 ^ f.lat.toNat) true 0
  (Room s → Unpipelined s → a.poison = false → n ≠ 0 → y.ptBase / 4096 + n ≤ 0x3E0 → windowOf block = 1 →
    (∀ i, probeHit s c block = some i → exec (.probe f) s = goesOn x [slotAddress i] s) ∧
    (probeHit s c block = none → InStream s t → exec (.probe f) s = goesTo x (.free t)
      [slotAddress (y.rr % n), .ptt c (y.rr % n) ⟨true, block⟩, .core c (fun y => { y with rr := (y.rr + 1) % n }), .work (fun w => { w with
        copies := w.copies ++ [{ id := w.nextId, q := s.cur.q, fn := s.fnOf c, launch := runningLaunch s c, op := 0x11, ch := 3, src := block
                                 dst := 0xFF00000000000000 + y.ptBase + 4096 * (y.rr % n), len := 4096, tag := BitVec.ofNat 16 (block / 4096 % 2 ^ 16)
                                 bar := 0, start := s.cyc + 1, probe := some (y.rr % n), slot := x.slot, addr := x.addr
                                 hold := (s.seqOf s.cur.q).hold }]
        nextId := w.nextId + 1 })] s)) ∧
  (∃ l, exec (.pref f) s = goesOn x l s ∧
    ((x.scalar s f.a.toNat 0).poison = true ∨ windowOf (maAddr f x s) ≠ 1 → l = []) ∧
    ((x.scalar s f.a.toNat 0).poison = false → windowOf (maAddr f x s) = 1 → (translateFast s c (s.fnOf c) (maAddr f x s) false).isSome = true →
      l = l1Fills x s [maAddr f x s]) ∧
    ((x.scalar s f.a.toNat 0).poison = false → windowOf (maAddr f x s) = 1 → (translateFast s c (s.fnOf c) (maAddr f x s) false).isSome = false →
      ∃ at_, l = [.work (fun w => w.walkFor s c (s.fnOf c) (maAddr f x s) at_ none)]))

/-- R215, R151, R186: a copy whose checks hold stands as a copy with its start cycle, its length and its tag; one of length zero has no
effect. -/
def Obligations.CopiesIssue : Prop := ∀ (f : MC) (s : State), Settled s → Unpipelined s →
  let x := atM s
  let c := s.cur.q / 4
  let a := x.scalar s f.a.toNat 0
  let b := x.scalar s f.b.toNat 1
  let l := x.scalar s f.l.toNat 2
  let bar := x.scalar s f.bar.toNat 3
  let len := (l.val.extractLsb' 0 40).toNat
  let n := max len 1
  let start := startAt x s f.at14.toNat
  let place := fun (v : SReg) (windows : List Nat) =>
    windowOf v.val.toNat ∈ windows ∧ windowOf ((v.val.toNat + n - 1) % 2 ^ 64) = windowOf v.val.toNat ∧ validPart s c v.val.toNat n .engine = true
  let stands := fun (i : Instr) (op : Nat) =>
    (len = 0 → exec i s = goesOn x [] s) ∧
    (len ≠ 0 → exec i s = goesOn x [.work (fun w => { w with
      copies := w.copies ++ [{ id := w.nextId, q := s.cur.q, fn := s.fnOf c, launch := runningLaunch s c, op := op, ch := f.ch.toNat
                               src := a.val.toNat, dst := b.val.toNat, len := len, tag := l.val.extractLsb' 48 16
                               bar := if f.bar = 0 then 0 else bar.val.toNat, start := start, slot := x.slot, addr := x.addr
                               hold := (s.seqOf s.cur.q).hold }]
      nextId := w.nextId + 1 })] s)
  a.poison = false → b.poison = false → l.poison = false → l.val.extractLsb' 40 8 = 0 →
  (f.bar ≠ 0 → bar.poison = false ∧ windowOf bar.val.toNat = 2 ∧ syncValid s (s.fnOf c) bar.val.toNat 16 = true ∧ bar.val.toNat % 16 = 0) →
  s.cyc < start → (s.work.copies.filter (fun y => y.q / 4 = c && y.ch = f.ch.toNat)).length < 8 →
  a.val.toNat % 64 = 0 → b.val.toNat % 64 = 0 → len % 64 = 0 →
  (place a [1] → place b [3, 4] → stands (.cpygs f) 0x11) ∧ (place a [3, 4] → place b [1] → stands (.cpysg f) 0x12) ∧
  (place a [3, 4] → place b [3, 4] → stands (.cpyss f) 0x13) ∧
  (place a [1, 4] → b.val.toNat < 4096 → b.val.toNat + len / 512 ≤ 4096 → len % 512 = 0 → stands (.cpyb f) 0x14)

/-- R218 to R222, R228, R265: drains hold the sequencer's later accesses for their work; barrier operations and WAITV send their request to
the SYE, and the waits put the sequencer in WAIT. -/
def Obligations.SyncOperationsIssue : Prop := ∀ (f : MS) (s : State), Settled s → Unpipelined s →
  let x := atM s
  let q := s.cur.q
  let a := x.scalar s f.a.toNat 0
  let b := x.scalar s f.b.toNat 1
  let n := 4 * 2 ^ f.sz.toNat
  let holds := fun (h : Hold) => goesOn x [.seq q (fun y => { y with hold := (Hold.left s y.hold).and h })] s
  exec (.drainl f) s = holds (localHold s q) ∧ exec (.drainr f) s = holds (scopeHold s q f.sub.toNat) ∧
  exec (.drainc f) s = holds { copies := (s.work.copies.filter (fun y => y.q / 4 = q / 4 && y.ch = f.sub.toNat)).map (fun y => y.id) } ∧
  (b.poison = false →
    (SyncPasses s a 16 16 → b.val.extractLsb' 0 48 ≠ 0 → exec (.barinit f) s =
      goesOn x [sendSye x s (.barInit (b.val.extractLsb' 0 48).toNat) a.val.toNat 16 [] []] s) ∧
    (SyncPasses s a 16 16 → exec (.bararv f) s = goesOn x [sendSye x s (.arrive (b.val.extractLsb' 0 48).toNat) a.val.toNat 16 [] []] s) ∧
    (SyncPasses s a 16 16 → exec (.barwait f) s = goesOn x [sendSye x s (.barWait (b.val.getLsbD 0)) a.val.toNat 16 [] [],
      enterWait q (.barwait a.val.toNat (b.val.getLsbD 0) x.slot x.addr)] s) ∧
    (SyncPasses s a n n → exec (.waitv f) s = goesOn x [sendSye x s (.waitVal b.val n (f.sub.toNat % 16)) a.val.toNat n [] [],
      enterWait q (.waitv a.val.toNat b.val n (f.sub.toNat % 16) x.slot x.addr)] s) ∧
    (let h := treeHead b.val.toNat
     SyncPasses s a h.bytes 64 → b.val.toNat / 2 ^ 25 % 2 ^ 23 = 0 → b.val.toNat < 2 ^ 49 → h.kind ≠ 3 → h.ncore ≤ 256 → 0 < h.count → h.count ≤ 4096 →
     exec (.barinitTree f) s = goesOn x [sendSye x s (.treeInit (leBytes 64 (b.val &&& 0x1FFFFFF).toNat)) a.val.toNat
       (treeHead (b.val &&& 0x1FFFFFF).toNat).bytes [] []] s))

/-- R221, R228: an atomic whose location passes sends one request, performed at the SYE within 32 cycles, and puts its result in flight to
s[d], due within 8 << lat cycles; a contribution is one unit with its tree's header and result (R259). -/
def Obligations.AtomicsIssue : Prop := ∀ (f : MS) (s : State), Room s → Unpipelined s →
  let x := atM s
  let a := x.scalar s f.a.toNat 0
  let b := x.scalar s f.b.toNat 1
  let c := x.scalar s f.c.toNat 2
  let n := 4 * 2 ^ f.sz.toNat
  let reaches := fun (i : Instr) (n whole : Nat) (kind : AccessKind) (poison : Bool) => SyncPasses s a n n →
    ∃ (fl : Flight) (acc : Access), exec i s = goesOn x [.work (fun w => (w.push fl).pushAccess s { acc with flight := some w.nextId })] s ∧
      fl.dest = .scalar f.d.toNat ∧ fl.missing = 1 ∧ fl.due = s.cyc + 8 * 2 ^ f.lat.toNat ∧ acc.kind = kind ∧ acc.va = a.val.toNat ∧
      acc.size = whole ∧ acc.poison = [poison] ∧ s.cyc < acc.at_ ∧ acc.at_ ≤ s.cyc + 32
  let sends := fun (i : Instr) (n : Nat) (kind : AccessKind) (poison : Bool) => reaches i n n kind poison
  let form := f.sub.toNat % 4
  sends (.aadd f) n (.atomic 0x1B n b.val c.val form) b.poison ∧ sends (.amin f) n (.atomic 0x1C n b.val c.val form) b.poison ∧
  sends (.amax f) n (.atomic 0x1D n b.val c.val form) b.poison ∧ sends (.aand f) n (.atomic 0x1E n b.val c.val form) b.poison ∧
  sends (.aor f) n (.atomic 0x1F n b.val c.val form) b.poison ∧ sends (.axor f) n (.atomic 0x20 n b.val c.val form) b.poison ∧
  sends (.aswp f) n (.atomic 0x21 n b.val c.val form) b.poison ∧ sends (.acas f) n (.atomic 0x22 n b.val c.val form) (b.poison || c.poison) ∧
  reaches (.afaddo f) 4 (64 + 4) (.atomic 0x23 4 b.val c.val 0) b.poison ∧ sends (.afaddu f) 4 (.atomic 0x24 4 b.val 0 0) b.poison ∧
  sends (.axadd f) 32 (.atomic 0x25 32 b.val c.val form) (b.poison || c.poison) ∧
  sends (.astat f) 16 (.atomic 0x2E 16 b.val c.val 0) (b.poison || c.poison) ∧
  reaches (.astatO f) 16 (64 + 16) (.atomic 0x2F 16 b.val c.val 0) (b.poison || c.poison)

/-- R223 to R226, R331 to R340: CHSEND sends one element, CHRECV takes the oldest or waits; an SRCMD stands as a command of its step; JEMIT and
JMARK append a record, JCMP advances the replay cursor past an equal record, JTRUNC releases a mark, of the hosted ring once its writer has failed
and the replay has matched it, else of the module's own. -/
def Obligations.ChannelReducerAndJournalIssue : Prop := ∀ (h : MH) (f : MS) (j : MJ) (s : State), Settled s → Unpipelined s →
  let x := atM s
  let q := s.cur.q
  let core := q / 4
  (let e := s.chtOf core h.ch.toNat
   Allotted s [h.v.toNat] →
     (chtValid e 1 = true → ∃ k, exec (.chsend h) s = goesOn x [.chip (fun c => c.pushElement { sentElement s q (s.fnOf core) h.ch.toNat
       ((x.row s h.v.toNat 32 1).bytes 0 (chtBytes e)).1 ((x.row s h.v.toNat 32 1).bytes 0 (chtBytes e)).2 (s.seqOf q).hold k c with q := some q })] s) ∧
     (Room s → chtValid e 0 = true → e.getLsbD 91 = false →
       (0 < chtCount e → exec (.chrecv h) s = goesOn x (takeElement x s e 0 h.v.toNat (8 * 2 ^ h.lat.toNat) ++ [.cht core h.ch.toNat (chtTake e 1)]) s) ∧
       (chtCount e = 0 → exec (.chrecv h) s = goesOn x [enterWait q (.chrecv h.ch.toNat h.v.toNat h.lat.toNat x.slot x.addr)] s))) ∧
  (let a := x.scalar s f.a.toNat 0
   let b := x.scalar s f.b.toNat 1
   let c := x.scalar s f.c.toNat 2
   let start := startAt x s (c.val.extractLsb' 0 16).toNat
   let stands := fun (i : Instr) (step : Nat) => exec i s = goesOn x [.work (fun w => { w with
     commands := w.commands ++ [{ id := w.nextId, q := q, kind := .srd step (b.val.extractLsb' 0 4).toNat a.val.toNat, issue := s.cyc
                                  start := start, dur := 0, readAt := start, fmt := s.fmt q, slot := x.slot, addr := x.addr
                                  hold := (s.seqOf q).hold, fn := s.fnOf core }]
     nextId := w.nextId + 1 })] s
   a.poison = false → b.poison = false → c.poison = false → (b.val.extractLsb' 0 4).toNat < 12 → s.cyc < start →
   Passes s a.val.toNat 64 64 .engine → windowOf a.val.toNat = 4 →
   stands (.srcmdXadd f) 0 ∧ stands (.srcmdFaddo f) 1 ∧ stands (.srcmdFaddu f) 2 ∧ stands (.srcmdMax f) 3 ∧ stands (.srcmdMin f) 4 ∧
   stands (.srcmdStato f) 5 ∧ stands (.srcmdStatu f) 6 ∧ stands (.srcmdFwd f) 7 ∧ stands (.srcmdBx4d f) 8) ∧
  (let a := x.scalar s j.a.toNat 0
   let b := x.scalar s j.b.toNat 1
   let c := x.scalar s j.c.toNat 2
   let jr := s.chip.journal
   let stream := (b.val.extractLsb' 0 16).toNat
   let space := jr.ract = false ∧ jr.paired = true ∧ (s.chip.emits.filter (fun e => !e.replay)).length < 256 ∧
     ∀ n, ringSize jr.ringLog = some n → jr.tail - jr.head < n
   let emits := j.c = 0 ∨ (c.poison = false ∧ emitCause x s c.val = none)
   a.poison = false →
     (b.poison = false → space → emits → exec (.jemit j) s =
       goesOn x (appendRecord x s jr.tail j.kind.toNat stream a.val (if j.c = 0 then 0 else c.val) (j.c = 0)) s) ∧
     (b.poison = false → space → jr.marks.length + (if jr.freed.1 = s.cyc then jr.freed.2 else 0) < 64 → exec (.jmark j) s = goesOn x (appendRecord x s jr.tail 3 stream a.val 0 true) s) ∧
     (b.poison = false → emits → jr.ract = true → jr.cur < jr.hostedNext → (hostedRecord s jr.cur).2 = true →
       (hostedRecord s jr.cur).1.kind = j.kind.toNat → (hostedRecord s jr.cur).1.stream = stream → (hostedRecord s jr.cur).1.payload = a.val →
       exec (.jcmp j) s = goesOn x (eccChecks s [(.hbm, ringPlace jr.hostBase jr.hostLog jr.cur, 64)] (s.fnOf core) ++ [.chip (fun ch => { ch with
         emits := if j.c = 0 then ch.emits else ch.emits ++ [emitEntry x s jr.cur false true a.val c.val]
         journal := { ch.journal with
           cur := jr.cur + 1, ract := jr.cur + 1 < ch.journal.hostedNext
           matched := if j.kind = 3 && ch.journal.hostedMarks.contains jr.cur then ch.journal.matched ++ [jr.cur] else ch.journal.matched } })]) s) ∧
     (let n := a.val.toNat
      let hosted := jr.hv = true ∧ jr.wfail = true ∧ n ∈ jr.hostedMarks
      (hosted → n ∈ jr.matched → exec (.jtrunc j) s = goesOn x [.chip (fun ch => { ch with journal := { ch.journal with
        hostedHead := max ch.journal.hostedHead (n + 1), hostedMarks := ch.journal.hostedMarks.filter (fun k => n < k)
        matched := ch.journal.matched.filter (fun k => n < k) } })] s) ∧
      (¬ hosted → n ∈ jr.marks → ∃ g : Chip → Chip, exec (.jtrunc j) s = goesOn x [.chip g] s ∧ ∀ ch,
        if n ≤ ch.journal.wcom then g ch = ch
        else ∃ fr, g ch = { ch with journal := { ({ ch.journal with wcom := n } : Journal).truncate with freed := fr } })))

/-- R27, R28, R23, R175, R31: a result whose data have come, with no other in flight to its place, lands: the register, mask or
rows take its value, a glint register gains it, FMT becomes it; no memory changes. The result is not one of a handler while latches of
its frame return (R298). -/
def Obligations.ResultLanding : Prop := ∀ (id : Nat) (f : Flight) (s : State), Canonical s → s.flightOf id = some f → f.missing = 0 →
  (f.hnd = false ∨ ∀ g ∈ s.work.flights, g.returned = false) →
  (∀ g ∈ s.work.flights, g.mode = .live) → (∀ g ∈ s.work.flights, g.id ≠ id → g.overlaps f = false) →
  ∃ t, exec (.resultLand id) s = .next t ∧ t.work.flights = s.work.flights.filter (fun g => g.id ≠ id) ∧ SameMemory s t ∧
    (∀ r v p, f.dest = .scalar r → f.val = .word v p → ∀ k, SMap.get {} t.scalars k = if k = 64 * f.q + r ∧ r ≠ 0 then ⟨v, p⟩ else SMap.get {} s.scalars k) ∧
    (∀ r v p, f.dest = .mask r → f.val = .mask v p → ∀ k, SMap.get {} t.masks k = if k = 16 * f.q + r ∧ r ≠ 0 then ⟨v, p⟩ else SMap.get {} s.masks k) ∧
    (∀ n ws, f.dest = .rows n → f.val = .rows ws → ∀ k, SMap.get {} t.rows k =
      if 512 * (f.q / 4) + n ≤ k ∧ k < 512 * (f.q / 4) + n + ws.length then (SMap.get {} s.rows k).apply (ws.getD (k - (512 * (f.q / 4) + n)) {})
      else SMap.get {} s.rows k) ∧
    (∀ r v p, f.dest = .glint r → f.val = .word v p →
      let g := SMap.get {} s.glints (4 * f.q + r)
      SMap.get {} t.glints (4 * f.q + r) = ⟨g.val + v, g.poison || p⟩) ∧
    (∀ v p, f.dest = .fmt → f.val = .word v p → (t.seqOf f.q).fmt = v)

/-- R208, R24, R210, R218, R277: the data of a load, once the ECC check has passed them, reach its result; the column of a VLDB that a drain
held back is read and reaches its result; data that have not come by the bound are lost and the result is poisoned; a fault found while
the frame holds the result goes into the frame's latch and is pending. -/
def Obligations.LoadEvents : Prop := ∀ (id : Nat) (s : State), Canonical s →
  (∀ a i, s.accessOf id = some a → a.kind = .load → (a.trans = .none ∨ ∃ pa, a.trans = .done pa) → a.lost = false → a.pass = none → a.flight = some i →
    fencedFrom s (a.place s).1 (a.q / 4) = false → (∀ f, s.flightOf i = some f → f.mode = .live) →
    let p := a.place s
    let read := eccChecks s [(p.1, p.2, a.size)] a.fn
    exec (.loadDataArrival id) s = performs (read ++ [.work (fun w => w.dropAccess a.id),
      modFlight i (fun f => if f.missing ≤ 1 then f else { f with reads := (p.1.code p.2, a.size) :: f.reads }),
      modFlight i (fun f => f.deliver a.offset (overWindow a.fwd (readForeign (applyActs read s) p.1 p.2 a.size (some (a.q / 4)))))]) s) ∧
  (∀ a i off, s.accessOf id = some a → a.kind = .column off → a.lost = false → a.pass = none → a.flight = some i →
    (∀ f, s.flightOf i = some f → f.mode = .live) →
    let read := eccChecks s ((List.range 512).map (fun j => (.bos (a.q / 4), 4096 * j + off, 4))) a.fn
    exec (.loadDataArrival id) s = performs (read ++ [.work (fun w => w.dropAccess a.id),
      modFlight i (fun g => { g with val := .rows [columnRow (applyActs read s) (a.q / 4) off], missing := 0, got := BitVec.allOnes 1024 })]) s) ∧
  (∀ f, s.flightOf id = some f → 0 < f.missing → f.due ≤ s.cyc → f.mode = .live →
    exec (.loadPromiseMiss id) s = performs [modFlight f.id Flight.poisonAll,
      .work (fun w => { w with accesses := w.accesses.map (fun a => if a.flight = some f.id then { a with lost := true } else a) })] s) ∧
  (∀ a i f ix sub addr, s.accessOf id = some a → a.flight = some i → s.flightOf i = some f → f.latchIndex = some ix →
    (s.seqOf f.q).events.length + (s.seqOf f.q).orderFaults.length < 64 →
    ∃ t, exec (.latchedLoadFault id sub addr) s = .next t ∧
      (∀ g ∈ t.work.accesses, g.flight ≠ some i) ∧
      ∃ e, (t.seqOf f.q).events = (s.seqOf f.q).events ++ [e] ∧ e.code = 0x20 ∧ e.sub = sub ∧ e.addr = addr ∧ e.faddr = a.addr ∧ e.slot = a.slot)

/-- R208, R255, R268: a store's unit performs at its home: its bytes stand there, and every other byte of every memory is as it was; one to a
fenced scratchpad of another core is discarded; a timed store of which a unit is late delivers one timing fault, for all of its units (log 68),
once they have performed or 1,024 cycles have passed. -/
def Obligations.StoreEvents : Prop := ∀ (id : Nat) (a : Access) (s : State), Canonical s → s.accessOf id = some a →
  let p := a.place s
  (a.kind = .store → a.performed = false → (a.trans = .none ∨ ∃ pa, a.trans = .done pa) → a.pieces = [] →
    pieces s p.1 p.2 a.bytes.length = [(p.1, p.2, a.bytes.length)] →
    ∃ t, exec (.storePerform id) s = .next t ∧
      (∀ h b, t.readByte h b =
        if fencedFrom s p.1 (a.q / 4) = false ∧ h.kind = p.1.kind ∧ p.1.key p.2 ≤ h.key b ∧ h.key b < p.1.key p.2 + a.bytes.length
        then a.bytes.getD (h.key b - p.1.key p.2) 0 else s.readByte h b) ∧
      t.scalars = s.scalars ∧ t.masks = s.masks ∧ t.rows = s.rows ∧ t.tags = s.tags) ∧
  (a.timed = true → a.kind = .store → a.issue + a.bound < s.cyc →
    ((∀ b ∈ s.work.accesses, a.sameStore b = true → b.performed = true) ∨ a.issue + 1024 ≤ s.cyc) →
    (s.seqOf a.q).events.length + (s.seqOf a.q).orderFaults.length < 64 →
    ∃ t e, exec (.lateStoreFault id) s = .next t ∧ (t.seqOf a.q).events = (s.seqOf a.q).events ++ [e] ∧ e.code = 0x23 ∧ e.sub = 5 ∧
      e.addr = a.va ∧ e.faddr = a.addr ∧ ∀ b ∈ t.work.accesses, a.sameStore b = true → b.timed = false)

/-- R275, R276, R294 to R296: taking a trap enters the handler at stream address 2 not before 16 cycles, with EPC and TCAUSE in the frame, an
empty loop stack, no REP and clear flags; memory outside the frame and the registers stay; the timer is due once CYC has reached TIME and
disarms; a precise cause in a handler ends the launch. -/
def Obligations.TrapEntryEffects : Prop := ∀ (q : Nat) (cause : Cause) (s : State), Canonical s →
  ((s.seqOf q).hnd = false →
    ∃ t, exec (.trapEntry q cause) s = .next t ∧ Entered s t q (s.seqOf q).pc cause) ∧
  ((s.seqOf q).hnd = true → cause.code < 0x20 ∨ cause.code = 0x32 → exec (.trapEntry q cause) s = performs (doubleFault s (q / 4)) s) ∧
  (let tcmp := (s.seqOf q).tcmp
   tcmp.getLsbD 48 = true → ((s.cyc : Int) - (tcmp.extractLsb' 0 48).toNat) % 2 ^ 48 < 2 ^ 47 → (s.seqOf q).hnd = false →
   ∃ t, exec (.timerInterrupt q) s = .next t ∧ Entered s t q (s.seqOf q).pc ⟨0x30, none, false, 0, (s.seqOf q).pc⟩ ∧ (t.seqOf q).tcmp.getLsbD 48 = false)

/-- R126, R127: the rollback of a LOOPP: with the rolled-back flag clear and the stores of pass p still held it goes back to the prologue for
pass p; otherwise the poison-escalation trap comes at the next boundary; the stores of the passes before p perform, the others are
discarded. -/
def Obligations.LooppRollback : Prop := ∀ (q p pc : Nat) (loops : List LoopEntry) (e : LoopEntry) (s : State),
  let y := s.seqOf q
  let kept := releaseHeld s q (y.window.filter (fun h => h.pass < p))
  y.passEnd = some (loops, pc) → y.rollback = some p → y.loops.getLast? = some e →
  (y.rollEsc = false → e.index ≤ p + e.stage → ∃ ev, exec (.looppRollback q) s = performs (kept ++
    [.seq q (fun y => { y with loops := y.loops.dropLast ++ [{ e with index := p }], pc := e.prologue, window := [], rollback := none
                               passEnd := none, reent := true, rolledBack := true, rbPass := p }), .chip (fun h => h.post s.cyc ev)]) s ∧ ev.code = 0x13) ∧
  (y.rollEsc = true ∨ p + e.stage < e.index → ∃ ev, exec (.looppRollback q) s = performs (kept ++
    [.seq q (fun y => { y with loops := loops, pc := pc, window := [], rollback := none, rollEsc := false, passEnd := none, escalate := true }),
     .chip (fun h => h.post s.cyc ev)]) s ∧ ev.code = 0x14)

/-- R152, R153, R220 to R223, R17: the ends of the waits: a report, a time reached, a grid point of a locked GTIME, an element; a poisoned
location gives the WAITV a deferred fault. -/
def Obligations.WaitsEnd : Prop := ∀ (q : Nat) (s : State), (s.seqOf q).run = .wait →
  let y := s.seqOf q
  (∀ o p sl ad t b, y.wait = .barwait o p sl ad → y.report = some (t, b) → t ≤ s.cyc → exec (.barwaitReport q) s = performs (endWait q) s) ∧
  (∀ loc v n c sl ad t b, y.wait = .waitv loc v n c sl ad → y.report = some (t, b) → t ≤ s.cyc →
    exec (.waitvWake q false) s = performs (endWait q) s ∧
    exec (.waitvWake q true) s = performs (endWait q ++ pushEvent s q { code := 0x20, slot := sl, sub := 3, faddr := ad, addr := loc }) s) ∧
  (∀ t, y.wait = .twait t → t.toNat ≤ s.gtime → exec (.twaitRelease q) s = performs (endWait q ++
    [.seq q (fun y => { y with resumeAt := max y.resumeAt (s.cyc + 1) })]) s) ∧
  (∀ k, y.wait = .trealign k → s.chip.tbu.lock = true → s.gtime % 2 ^ k = 0 → exec (.trealignRelease q) s = performs (endWait q ++
    [.seq q (fun y => { y with tb := BitVec.ofNat 64 s.cyc })]) s) ∧
  (∀ ch row lat sl ad, y.wait = .chrecv ch row lat sl ad → 0 < chtCount (s.chtOf (q / 4) ch) →
    exec (.chrecvWake q) s = performs (takeElement { q := q, slot := sl, addr := ad, size := 2 } s (s.chtOf (q / 4) ch) 0 row (8 * 2 ^ lat) ++
      .cht (q / 4) ch (chtTake (s.chtOf (q / 4) ch) 1) :: endWait q) s) ∧
  (y.more = [] → ∃ f : Seq → Seq, endWait q = [.seq q f] ∧ (f y).run = .run ∧ (f y).wait = .none)

/-- R219 to R222, R227, R228, R254, R317: requests performed at the sync engine, which checks the ECC of what they read, and elements that arrive:
BARINIT, BARARV, a tree header, the arming of a wait, an atomic, an element put into its ring. What an atomic makes of a poisoned location is
the model's reading (log 73); every write is noted for the cycle's order of accesses (log 4). -/
def Obligations.SyncEngineEvents : Prop := ∀ (id : Nat) (s : State),
  (∀ a, s.accessOf id = some a →
    let p := a.place s
    let drop : Act := .work (fun w => w.dropAccess a.id)
    let notes : Act := noteWrite (accessRank s a) p.1 p.2 a.size
    (∀ target, a.kind = .barInit target → exec (.syeRequestArrival id) s =
      performs (notes :: drop :: writeHome s p.1 p.2 (leBytes 8 0 ++ leBytes 8 target) (List.replicate 16 false)) s) ∧
    (∀ header, a.kind = .treeInit header →
      let n := (treeHead (leValue (header.take 8))).bytes
      exec (.syeRequestArrival id) s = performs (notes :: drop :: .chip (fun x => { x with trees := SMap.set {} x.trees (treeKey a.va) {} }) ::
        writeHome s p.1 p.2 (header ++ List.replicate (n - 64) 0) (List.replicate n false)) s) ∧
    (∀ n, a.kind = .arrive n →
      let read := eccChecks s [(p.1, p.2, 16)] a.fn
      let u := applyActs read s
      let p := a.place u
      let w := leValue (u.readBytes p.1 p.2 8)
      let target := leValue (u.readBytes p.1 (p.2 + 8) 6)
      let count := w % 2 ^ 48 + n
      target ≠ 0 → exec (.syeRequestArrival id) s = performs (read ++ notes :: drop :: writeHome u p.1 p.2 (leBytes 8
        (count % target % 2 ^ 48 + 2 ^ 48 * ((w / 2 ^ 48 + count / target) % 2) + w / 2 ^ 49 * 2 ^ 49)) (List.replicate 8 false)) s) ∧
    (∀ ph, a.kind = .barWait ph → let read := eccChecks s [(p.1, p.2, 16)] a.fn
      exec (.syeRequestArrival id) s = performs (read ++ notes :: armActs (applyActs read s) a) s) ∧
    (∀ v n c, a.kind = .waitVal v n c → let read := eccChecks s [(p.1, p.2, n)] a.fn
      exec (.syeRequestArrival id) s = performs (read ++ notes :: armActs (applyActs read s) a) s) ∧
    (∀ op size b c sub, a.kind = .atomic op size b c sub → op ≠ 0x23 → op ≠ 0x2F →
      let read := eccChecks s [(p.1, p.2, size)] a.fn
      let u := applyActs read s
      let p := a.place u
      let old := leValue (u.readBytes p.1 p.2 size)
      let bad := (u.readPoison p.1 p.2 size).any (fun x => x)
      let poison := a.poison.any (fun x => x) || (bad && op ≠ 0x21)
      let r := atomicResult op size sub old b c
      exec (.syeRequestArrival id) s = performs (read ++ notes :: (writeHome u p.1 p.2 (if poison then List.replicate size 0 else leBytes size r.1) (List.replicate size poison) ++
        .work (fun w => (w.dropAccess a.id).raise ⟨a.q, a.slot, a.addr, a.issue, a.bound, flagSet false [if poison then 0 else r.2.2], false⟩) ::
        returnValue u a r.2.1 bad)) s)) ∧
  (∀ e : Element, let t := s.chtOf e.core e.channel
    e.source / 1024 ≠ s.chip.modId → (s.coreOf e.core).fenced = false → resetting s (s.fnOf e.core) = false → chtValid t 0 = true →
    e.source = 1024 * chtModule t + chtPeer t → e.bytes.length = chtBytes t → chtCount t < chtSlots t →
    exec (.channelElementArrival e) s =
      performs (noteWrite engineRank (.spd e.core) (ringOff t (chtCount t)) e.bytes.length ::
        writeHome s (.spd e.core) (ringOff t (chtCount t)) e.bytes e.poison ++ [.cht e.core e.channel (chtPut t)]) s)

/-- R186 to R198, R265, R359: engine events: a command whose start has come begins once no drain holds it, at its S, or, where a drain has moved
it, when the MXE is free of it (log 35); at S + D its rows are in place and it is gone; a routine goes on four clocks a cycle (logs 32, 46), and
one without END is stopped; a tile row whose walks have ended comes into the staging store, or past its bound is bad; what is read is checked
for ECC errors. -/
def Obligations.EngineEvents : Prop := ∀ (id : Nat) (s : State),
  (∀ y, s.work.commands.find? (fun y => y.id = id) = some y →
    (let start := y.start + (s.cyc - y.dueAt)
     y.started = false → y.dueAt ≤ s.cyc → holdClear s y.hold = true →
      (y.dueAt < s.cyc → ∀ z ∈ s.mxeCommands (y.q / 4), z.id ≠ y.id → ¬ (start < z.finish ∧ z.start < start + y.dur)) →
      let begun := fun (r : Routine) => modCommand y.id (fun x => { x with start := start, started := true, routine := r })
      (∀ row0 n, y.kind = .zero row0 n → exec (.engineCommandStart id) s = performs [begun {},
        engineRows s { y with start := start, started := true } row0 (List.replicate n (writeWhole {}))] s) ∧
      (∀ rtn, y.kind = .mcall rtn → exec (.engineCommandStart id) s =
        performs [begun { pc := entryFirst (s.routineOf (y.q / 4) rtn), mp := y.mp }] s)) ∧
    (∀ row0 n, y.kind = .zero row0 n → y.started = true → y.finish ≤ s.cyc → exec (.engineCommandEnd id) s =
      performs [.work (fun w => { w with commands := w.commands.filter (fun x => x.id ≠ y.id) })] s) ∧
    (∀ rtn, y.kind = .mcall rtn → y.started = true → y.stopped = false → y.routine.ended = false →
      let first := entryFirst (s.routineOf (y.q / 4) rtn)
      (∀ r, mxeClocks s y first 4 y.routine = .ok r → r.ended = false →
        exec (.mxeRoutineStart id) s = performs (eccChecks s (clocksRead s y first 4 y.routine) (s.fnOf (y.q / 4)) ++
          rowChecks s (y.q / 4) (rowsRead y.routine r) ++ [modCommand y.id (fun y => { y with routine := r })]) s) ∧
      (y.finish ≤ s.cyc → exec (.mxeRoutineOverrun id) s = performs (stopCommand s y ⟨0x23, 7, 0⟩) s))) ∧
  (∀ c h row, let key := 32 * (64 * c + h) + row
    let st := SMap.get {} s.staging key
    st.present = false → st.bad = false →
    (st.bound < s.cyc → exec (.tileRowArrival c h row) s = performs [.stage key { st with bad := true }] s) ∧
    (s.cyc ≤ st.bound → holdClear s st.hold = true → (∀ p ∈ st.parts, ∃ pa, p.trans = .done pa) →
      exec (.tileRowArrival c h row) s = performs (eccChecks s (st.parts.filterMap (fun p => match p.trans with | .done pa => some (.hbm, pa, p.n) | _ => none)) (s.fnOf c) ++
        [.stage key { st with present := true, bad := (readParts s st.parts).2.any (fun p => p), bytes := (readParts s st.parts).1
                              poison := (readParts s st.parts).2 }]) s))

/-- R213, R215 to R217, R220, R228, R236, R299: copy events: the first outstanding chunk, once written, moves the cursor and sets its block's tag; a
whole copy sends its length to its barrier's SYE and is gone; a fault suspends it with its event; a fill that has come sets its slot's tag. -/
def Obligations.CopyEvents : Prop := ∀ (id : Nat) (y : Copy) (s : State), s.copyOf id = some y →
  (∀ k l, y.chunks = k :: l → k.read = true → k.crc = 0 → y.probe = none → (∀ a ∈ s.work.accesses, ¬ (a.origin = some y.id ∧ a.offset = y.cursor)) →
    exec (.copyChunkComplete id 0) s = performs ((match y.block s with | some b => [.tag b.1 b.2 y.tag] | none => []) ++
      [modCopy y.id (fun y => { y with cursor := y.cursor + k.n, chunks := l })]) s) ∧
  (y.len ≤ y.cursor → y.probe = none →
    (y.bar = 0 → exec (.copyComplete id) s = performs [dropCopy y.id] s) ∧
    (y.bar ≠ 0 → exec (.copyComplete id) s = performs [sendAddition s y.q y.fn y.launch y.slot y.addr y.bar y.len, dropCopy y.id] s)) ∧
  (∀ sub addr, y.fault = some (sub, addr) → y.probe = none → y.chunks = [] → exec (.copySuspend id sub addr) s = performs
    (modCopy y.id (fun y => { y with fault := none, faulted := true }) :: pushEvent s y.q
      { code := 0x22, slot := y.slot, ch := y.ch, sub := sub, faddr := y.addr, addr := addr, info := y.cursor, copy := some y.id }) s) ∧
  (∀ n, y.probe = some n → y.fault = none → y.len ≤ y.cursor →
    exec (.probeFillComplete id) s = performs [.tag (y.q / 4) (y.dst % 2 ^ 22 / 4096) y.tag, dropCopy y.id] s)

/-- R243 to R246, R253: a walk that ends gives the accesses to its page their translation or fault 0, and fills the TLBs; an
invalidation drops the function's translations of the range and is done once the accesses, chunks of copies and tile rows that use them have
performed. Handover and migration as staged inputs are the model's form (log 52): a handover sets or clears OWN in the 16 entries of the page
and drops its translations; a range moves with its bytes, and what it held then performs in the order held. -/
def Obligations.TranslationEvents : Prop :=
  (∀ (w : Walk) (s : State), s.work.walks.find? (fun x => x.id = w.id) = some w → w.started = true → w.at_ ≤ s.cyc →
    w.id < s.work.nextId →
    let found := walkNow s w.fn (w.page * 4096) (s.choice 0)
    ∃ t, exec (.tlbWalkComplete w.id) s = .next t ∧ (∀ x ∈ t.work.walks, x.id ≠ w.id) ∧
      (∀ a ∈ s.work.accesses, a.fn = w.fn → a.q / 1024 = w.die → a.va / 4096 = w.page → a.trans = .waiting →
        ∃ b ∈ t.work.accesses, b.id = a.id ∧ b.va = a.va ∧
          b.trans = match found with | some e => e.use s a.va (a.kind ≠ .load) | none => .fault 0) ∧
      (∀ e, found = some e → e ∈ SMap.get [] t.chip.l1 w.core ∧ e ∈ SMap.get [] t.chip.tlb (w.core / 256)) ∧
      (found = none → t.chip.l1 = s.chip.l1 ∧ t.chip.tlb = s.chip.tlb)) ∧
  (∀ (v : Word) (s : State), let fn := (v.extractLsb' 0 5).toNat
    (v.getLsbD 8 = false → exec (.tlbInvalidate v) s = performs [.chip (fun h => { h with invFn := fn })] s) ∧
    (v.getLsbD 8 = true → ∃ t, exec (.tlbInvalidate v) s = .next t ∧ t.chip.invDone = false ∧ t.chip.invFn = fn ∧
      t.chip.invalidating = some ((s.chip.invalidating.getD {}).and (translationUsers s fn s.chip.invLo.toNat s.chip.invHi.toNat)) ∧
      ∀ c e, e ∈ SMap.get [] t.chip.l1 c ∨ e ∈ SMap.get [] t.chip.tlb c → e.fn = fn → s.chip.invHi.toNat < e.base ∨ e.base + e.size ≤ s.chip.invLo.toNat)) ∧
  (∀ (l : Invalidation) (s : State), s.chip.invalidating = some l → (∀ a ∈ s.work.accesses, a.id ∈ l.accs → a.performed = true) →
    (∀ y ∈ s.work.copies, ∀ n, (y.id, n) ∈ l.copies → n ≤ y.cursor ∧ ∀ a ∈ s.work.accesses, a.origin = some y.id → a.performed = true) →
    (∀ k va, (k, va) ∈ l.rows → let x := SMap.get {} s.staging k
      x.va ≠ va ∨ x.present = true ∨ x.bad = true ∨ x.parts = []) →
    exec .tlbInvalidateComplete s = performs [.chip (fun h => { h with invalidating := none, invDone := true })] s) ∧
  (∀ (fn va table : Nat) (toHost : Bool) (e : TlbEntry) (s : State), walkNow s fn va (s.choice 0) = some e → leafTable s fn va = some table →
    e.hostShared = true → e.own ≠ toHost →
    (toHost = true → (∀ a ∈ s.work.accesses, writesPage a e = false) ∧ pageHeld s e = false ∧
      ∀ y ∈ s.work.copies, ∀ k ∈ (y.found s e).chunks, ∀ pa, k.dst = .done pa → rangesMeet pa k.n e.pa e.size = false) →
    ∃ t, exec (.pageHandover fn va toHost) s = .next t ∧
      (∀ a, t.readByte .hbm a =
        let first := table + 8 * (va / 4096 % 512 / 16 * 16)
        if first ≤ a ∧ a < first + 128 ∧ (a - first) % 8 = 0 then (if toHost then s.readByte .hbm a ||| 0x40 else s.readByte .hbm a &&& 0xBF)
        else s.readByte .hbm a) ∧
      ∀ c x, x ∈ SMap.get [] t.chip.l1 c ∨ x ∈ SMap.get [] t.chip.tlb c → x.fn = fn → e.base + e.size ≤ x.base ∨ x.base + x.size ≤ e.base) ∧
  (∀ (n off : Nat) (s : State), let e := SMap.get 0 s.chip.ranges n
    let old := rangeField e 144 24 * 2 ^ 16
    let new := off % 2 ^ 24 * 2 ^ 16
    (s.chip.moving.find? (fun m => m.1 = n) = none → e.getLsbD 0 = true → (e.getLsbD 2 = true → ∀ l ∈ s.work.launches, l.fn ≠ rangeField e 4 5) →
      exec (.rangeMigration n off 0) s = performs [.chip (fun h => { h with
        ranges := SMap.set 0 h.ranges n (setField e 1 1 0), moving := h.moving ++ [(n, 0)] })] s) ∧
    (∀ m, s.chip.moving.find? (fun m => m.1 = n) = some m → NoWriteTo s old (rangeBytes e) →
      (∀ y ∈ s.work.copies, ∀ k ∈ y.chunks, ∀ pa, k.dst = .done pa → rangesMeet pa k.n old (rangeBytes e) = false) →
      ∃ t, exec (.rangeMigration n off 1) s = .next t ∧ (n, off % 2 ^ 24 + 1) ∈ t.chip.moving ∧ ∀ a, t.readByte .hbm a =
        if new ≤ a ∧ a < new + rangeBytes e then s.readByte .hbm (a - new + old) else s.readByte .hbm a) ∧
    (let stays := e.getLsbD 2 && residentFn s (rangeField e 4 5)
     ∀ m, s.chip.moving.find? (fun m => m.1 = n) = some m → (∀ x ∈ s.work.putOff, x.2 ≠ .range n off 1) → stays = true ∨ m.2 = off % 2 ^ 24 + 1 →
      let e' := setField (if stays then e else setField e 144 24 off) 1 1 1
      let l : List Act := [.chip (fun h => { h with
        ranges := SMap.set 0 h.ranges n e', moving := h.moving.filter (fun k => k.1 ≠ n), hostHeld := [] }), .work (fun w => w.rangeMoved s n e')]
      exec (.rangeMigration n off 2) s =
        performs (l ++ releaseOrder (s.work.accesses.length + 1) (heldOrder s n) (applyActs l s)) s ∧
      (heldOrder s n).Pairwise (fun a b => a.1 ≤ b.1) ∧ ∀ a ∈ s.work.accesses, a.trans = .held n →
        ∃ b ∈ (s.work.rangeMoved s n e').accesses, b.id = a.id ∧ b.trans = checkMapping s (rangePa e' a.va) true false true ∧ b.at_ = min a.at_ s.cyc))

/-- R286, R381: whatever the arbiter grants is a ready queue of a core in service, and of all ready queues whose run fits the slice it has
the precedence; a run longer than the slice is granted at a slice reset only; nothing only when no queue's run fits. -/
def Obligations.ArbiterChoice : Prop := ∀ (y : Core) (t : Nat) (run : Option Nat) (reset : Bool),
  y.queues.length = 8 → (∀ q ∈ y.queues, q.pass ≤ 16) →
  let q := fun n => y.queues.getD n {}
  let ready := fun n => y.outOfService = false ∧ n < 8 ∧ (q n).ready = true
  let fits := fun n => ready n ∧ (q n).run ≤ sliceLeft y t
  (∀ n, arbitrate y t run reset = .grant n → fits n ∧ ∀ m, fits m → Precedes run n (q n) m (q m)) ∧
  (∀ n, arbitrate y t run reset = .long n → reset = true ∧ ready n ∧ (∀ m, ¬ fits m) ∧ ∀ m, ready m → Precedes run n (q n) m (q m)) ∧
  (arbitrate y t run reset = .idle → (∀ m, ¬ fits m) ∧ (reset = true → ∀ m, ¬ ready m))

/-- R283, R284, R286, R287, R289, R290, R381: a launch starts on a core with cleared registers and its images; a task starts at its entry
with s1 and s2; a launch done on its cores leaves; a slice ends; a core whose launch is done is free and takes the arbiter's queue; a switch
saves the outgoing state and restores the incoming one. R288, R291: a spent budget brings the deadline fault to every sequencer that is not
IDLE and starts the grace; after the grace the launch is ended on the core; an overrun is posted, and changes nothing else. -/
def Obligations.SchedulingEvents : Prop := (∀ (c : Nat) (s : State), Canonical s →
  let y := s.coreOf c
  (∀ l, s.work.launches.find? (fun k => k.id = l.id) = some l → launchReady s l c = true →
    ∃ t, exec (.launchStart l.id c) s = .next t ∧
      (∀ i, i < 4 → (t.seqOf (4 * c + i)) = { run := if i = 0 && !l.task then .run else .idle }) ∧
      (∀ r, r < 256 → SMap.get {} t.scalars (256 * c + r) = {}) ∧ (∀ r, r < 64 → SMap.get {} t.masks (64 * c + r) = {}) ∧
      (∀ r, r < 16 → SMap.get {} t.glints (16 * c + r) = {}) ∧ (∀ n, n < 512 → t.rowOf c n = {}) ∧ (∀ b, b < 1024 → SMap.get 0 t.tags (1024 * c + b) = 0) ∧
      (t.coreOf c).stream = (kernelFor s l c).stream ∧ (t.coreOf c).width = l.width ∧ (t.coreOf c).budget = l.budget ∧ (t.coreOf c).seed = BitVec.ofNat 64 l.seed) ∧
  (∀ l i bs, taskReady s c = some (l, i) → readDevice s c l.fn (l.taskList + 16 * i) 16 (s.choice 0) = .ok (bs, List.replicate 16 false) →
    ∃ t, exec (.taskStart c) s = .next t ∧
      (t.seqOf (4 * c)).run = .run ∧ (t.seqOf (4 * c)).pc = leValue (bs.take 4) ∧ (∀ k, k < 4 → (t.seqOf (4 * c + k)).fmt = 8) ∧
      ∀ r, SMap.get {} t.scalars r = if r = 256 * c + 1 then ⟨BitVec.ofNat 64 i, false⟩
        else if r = 256 * c + 2 then ⟨BitVec.ofNat 64 (leValue (bs.drop 8)), false⟩ else SMap.get {} s.scalars r) ∧
  (∀ l, s.work.launches.find? (fun k => k.id = l.id) = some l → l.remaining = [] →
    ∃ t, exec (.launchDone l.id) s = .next t ∧ (∀ k ∈ t.work.launches, k.id ≠ l.id) ∧ (∀ d ∈ l.cores, (t.queueOf d l.queue).launch ≠ some l.id)) ∧
  (sliceEnd y ≤ s.cyc → ∃ t, exec (.sliceReset c) s = .next t ∧ (t.coreOf c).sliceStart = s.cyc ∧ (t.coreOf c).slice = y.nextSlice ∧
    (decidesAtReset y = false → ∀ n, n < y.queues.length →
      (t.queueOf c n).pass = if (s.queueOf c n).ready = true ∧ (s.queueOf c n).ownedSlice = false then min 16 ((s.queueOf c n).pass + 1) else (s.queueOf c n).pass)) ∧
  (∀ n l, ownerDone s c = some n → s.launchOf c n = some l →
    ∃ t, exec (.arbiterIdleGrant c) s = .next t ∧ (t.queueOf c n).done = true ∧ ∀ k ∈ t.work.launches, k.id = l.id → c ∉ k.remaining) ∧
  (∀ n, y.owner = none → y.switching = none → settledCore s c = true → quiescing s c = false → coreIdle y s.cyc = false → arbitrate y s.cyc none false = .grant n →
    (s.queueOf c n).started = false → ∃ t, exec (.arbiterIdleGrant c) s = .next t ∧ (t.coreOf c).owner = some n ∧ (t.queueOf c n).pass = 0) ∧
  (∀ to_ u, y.switching = some (to_, u) → u ≤ s.cyc → settledCore s c = true → y.outOfService = false →
    ∃ t, exec (.queueSwitchComplete c) s = .next t ∧ (t.coreOf c).owner = to_ ∧ (t.coreOf c).switching = none ∧
      (∀ m, y.owner = some m → (s.queueOf c m).ended = false → to_ ≠ some m → (8 * c + m, s.snapshot c) ∈ t.saved) ∧
      (∀ n v, to_ = some n → y.owner ≠ some n → (s.queueOf c n).started = true → s.saved.find? (fun e => e.1 = 8 * c + n) = some (8 * c + n, v) →
        SMap.wf {} v.scalars = true → SMap.wf {} v.rows = true →
        (∀ r, r < 256 → SMap.get {} t.scalars (256 * c + r) = SMap.get {} v.scalars r) ∧ (∀ r, r < 512 → t.rowOf c r = SMap.get {} v.rows r)))) ∧
  (∀ (c n : Nat) (s : State), Canonical s →
  let q := s.queueOf c n
  ((s.coreOf c).owner = some n → n < (s.coreOf c).queues.length → q.started = true → q.grace = none → q.ended = false → doneOn s c n = false → (s.coreOf c).budget ≤ q.owned →
    ∃ t, exec (.deadlineFault c) s = .next t ∧ (t.queueOf c n).grace = some (q.owned + 4096) ∧ Posts s t 0x15 (s.fnOf c) c 0 0 ∧
      ∀ i, i < 4 → t.seqOf (4 * c + i) = if (s.seqOf (4 * c + i)).run = .idle then s.seqOf (4 * c + i) else { s.seqOf (4 * c + i) with deadline := true }) ∧
  (∀ g l, q.grace = some g → g ≤ q.owned → doneOn s c n = false → s.launchOf c n = some l →
    ∃ t, exec (.deadlineAbort c n) s = .next t ∧ (t.queueOf c n).ended = true ∧ (∀ k ∈ t.work.launches, k.id = l.id → c ∉ k.remaining) ∧
      Posts s t 0x15 l.fn c 0 0 ∧ ((s.coreOf c).owner = some n → (t.coreOf c).owner = none ∧ ∀ i, i < 4 → (t.seqOf (4 * c + i)).run = .idle)) ∧
  ((s.coreOf c).owner = some n → n < (s.coreOf c).queues.length → q.started = true → q.overrun = false → q.run < q.sinceYield →
    (∃ i, i < 4 ∧ (s.seqOf (4 * c + i)).run ≠ .idle) →
    ∃ t, exec (.statedRunOverrun c) s = .next t ∧ Posts s t 0x30 (s.fnOf c) c 0 0 ∧ SameStores s t ∧ t.seqs = s.seqs ∧
      (t.queueOf c n) = { q with overrun := true } ∧ t.chip.aer = s.chip.aer))

/-- R279 to R282, R289, R292, R293, R303, R305: each packet at the head of its ring is read and answered: refused with its status, or carried
out with OK; a launch stands in its queues, a level and a rank and slice length apply, a quiesced context resumes, an aborted launch is ended
on its cores, a Quiesce begins, an image that fits is restored. R303, R304: a Quiesce whose work has drained is cut: its queues are quiesced
and it is complete, or, when the buffer cannot be written or the time is over, QUIESCE_TIMEOUT is reported and its sequencers run on. The
launch that a refused packet's record names (log 67), the image's layout and checks (log 15) and Lantern's own Quiesce, which writes no image
(log 86), are the model's. -/
def Obligations.PacketEvents : Prop := (∀ (p : Packet) (s : State), Canonical s → ringReady s p.ring = true → ringPacket s p.ring = p →
  let f := packetField p
  let r := applyAct (packetRead p) s
  let answers := fun (status launch : Nat) (u : State) => complete u p.ring (completionRecord status (f 0 8) launch p.index 0)
  (packetBad s p = true → exec (.badPacket p) s = takes s p (answers 0x01 (badLaunch p))) ∧
  (packetBad s p = false →
    (f 0 8 = 1 →
      let l := packetLaunch r p.ring p
      let st := launchStatus r p l
      (f 16 2 < f 14 2 ∨ f 16 2 < SMap.get 0 s.chip.levels p.ring → st = 0x02) ∧ (st ≠ 0 → exec (.launch p) s = takes s p (fun u => listChecks u p ++ answers st (f 32 32) u)) ∧
      (∀ k, l = some k → st = 0 → ∃ t, exec (.launch p) s = .next t ∧ k ∈ t.work.launches ∧
        ∀ c ∈ k.remaining, k.queue < (s.coreOf c).queues.length → (t.queueOf c k.queue).launch = some k.id ∧ (t.queueOf c k.queue).run = k.run0 ∧
          (t.queueOf c k.queue).started = false ∧ (t.queueOf c k.queue).rank = (s.queueOf c k.queue).rank)) ∧
    (f 0 8 = 2 → exec (.detlevel p) s = takes s p (fun u => .chip (fun h => { h with levels := SMap.set 0 h.levels (f 8 5) (f 16 2) }) :: answers 0 0 u)) ∧
    (f 0 8 = 3 →
      (∀ cs, coreSet r p.ring (f 128 64) (f 64 16) = some cs → (∀ c ∈ cs, s.fnOf c = f 8 5) → exec (.qset p) s = takes s p (fun u => listChecks u p ++
        cs.map (fun c => .core c (fun y => let y := y.atSlice s.cyc
          { y with pendRanks := y.pendRanks ++ [(f 13 3, f 16 3)], nextSlice := if f 19 1 = 1 then f 32 32 else y.nextSlice })) ++ answers 0 0 u)) ∧
      ((∀ cs, coreSet r p.ring (f 128 64) (f 64 16) = some cs → ∃ c ∈ cs, s.fnOf c ≠ f 8 5) → exec (.qset p) s = takes s p (fun u => listChecks u p ++ answers 0x04 0 u))) ∧
    (f 0 8 = 4 →
      (f 128 64 < imageLength r (f 8 5) → exec (.quiesce p) s = takes s p (answers 0x0A 0)) ∧
      (imageLength r (f 8 5) ≤ f 128 64 → ∃ t, exec (.quiesce p) s = .next t ∧
        ({ fn := f 8 5, ring := p.ring, pix := p.index, deadline := s.cyc + f 32 32, buf := f 64 64, len := f 128 64
           reseed := decide (s.chip.journal.state = 3) } : Quiesce) ∈ t.chip.quiesces ∧
        ∀ c ∈ coresOf s (f 8 5), ∀ i, i < 4 → (t.seqOf (4 * c + i)).run = if (s.seqOf (4 * c + i)).run = .parked then .quiesced else (s.seqOf (4 * c + i)).run)) ∧
    (f 0 8 = 5 →
      let refused := fun (status : Nat) (u : State) => deviceChecks u 0 p.ring (f 64 64) (f 128 64) (u.choice 0) ++ answers status 0 u
      (∀ e, readDevice r 0 p.ring (f 64 64) (f 128 64) (r.choice 0) = .error e → exec (.restore p) s = takes s p (refused 0x06)) ∧
      (∀ b ps, readDevice r 0 p.ring (f 64 64) (f 128 64) (r.choice 0) = .ok (b, ps) →
        let g := imageField b
        let u := applyAct (restoreTranslation (f 8 5) (moduleParts ((b.drop (g 0x20 8)).take (g 0x28 8)))) r
        let launches := ((List.range ((g 0x20 8 - 0x1040) / 256)).map (fun i => (b.drop (0x1040 + 256 * i)).take 256)).mapIdx
          (fun i x => imageLaunch u (f 8 5) x (r.work.nextId + i))
        let fits := imageFits r (f 8 5) b (imageSections b) launches
        (ps.any id = true ∨ fits = false → exec (.restore p) s = takes s p (refused 0x06)) ∧
        (ps.any id = false → fits = true → ∃ t, exec (.restore p) s = .next t ∧ t.work.launches = s.work.launches ++ launches.filterMap id))) ∧
    (f 0 8 = 6 → ∃ t, exec (.resume p) s = .next t ∧ (∀ z ∈ t.chip.quiesces, z.fn ≠ f 8 5) ∧
      ∀ c ∈ coresOf s (f 8 5), (∀ q ∈ (t.coreOf c).queues, q.quiesced = false) ∧
        ∀ i, i < 4 → (t.seqOf (4 * c + i)).run = if (s.seqOf (4 * c + i)).run = .quiesced then (s.seqOf (4 * c + i)).proceed.run else (s.seqOf (4 * c + i)).run) ∧
    (∀ l, f 0 8 = 7 → namedLaunch s (f 8 5) (f 32 32) = some l → (∀ c ∈ l.remaining, (s.queueOf c l.queue).launch = some l.id) →
      ∃ t, exec (.abort p) s = .next t ∧ ∀ k ∈ t.work.launches, k.id = l.id → ∀ c ∈ l.remaining, c ∉ k.remaining))) ∧
  (∀ (fn : Nat) (z : Quiesce) (s : State), Canonical s → quiesceOf s fn = some z →
  let write := writeDevice s 0 z.ring z.buf (s.choice 0) (stateImage s fn) (List.replicate (imageLength s fn) false)
  let gaveUp := fun (i : Instr) => ∃ t, exec i s = .next t ∧ z ∉ t.chip.quiesces ∧
    ∀ c ∈ coresOf s fn, ∀ i, i < 4 → (t.seqOf (4 * c + i)).run = if (s.seqOf (4 * c + i)).run = .quiesced then (s.seqOf (4 * c + i)).proceed.run else (s.seqOf (4 * c + i)).run
  (z.deadline ≤ s.cyc → stoppedFn s fn = false → gaveUp (.quiesceTimeout fn)) ∧
  (cutReady s fn = true → z.own = true → exec (.quiesceCutComplete fn) s = performs (cutContext s z) s) ∧
  (cutReady s fn = true → z.own = false →
    (∀ e, write = .error e → gaveUp (.quiesceCutComplete fn)) ∧
    (∀ l, write = .ok l → ∃ t, exec (.quiesceCutComplete fn) s = .next t ∧ { z with cut := true, cutCyc := s.cyc } ∈ t.chip.quiesces ∧
      ∀ c ∈ coresOf s fn, ∀ q ∈ (t.coreOf c).queues, q.launch.isSome = true → q.quiesced = true)))

/-- R282, R237, R241, R244, R313, R314, R332, R335, R340, R344, R250, R368, R375: writes of module registers from the host link while the
function is not blocked, and of the pairing and routing registers by the agent. That a pairing write with an ACKB below 1,024 keeps the old one
is the model's choice (log 79), and so are the masks of MSI-X vectors at reset (log 12). -/
def Obligations.RegisterWrites : Prop := ∀ (fn : Nat) (v : Word) (s : State),
  let r := s.chip.ring fn
  let ring := fun (r : Ring) => performs [.chip (fun h => { h with rings := SMap.set {} h.rings fn r })] s
  let sizes := 4 ≤ r.cmdLog ∧ r.cmdLog ≤ 16 ∧ 4 ≤ r.cplLog ∧ r.cplLog ≤ 16
  let j := s.chip.journal
  let f := fun b w => (v.extractLsb' b w).toNat
  (hostBlocked s fn = false →
    (sizes → exec (.ringEnableWrite fn v) s = ring { r with en := v.getLsbD 0, irq := v.getLsbD 1 }) ∧
    (¬ sizes → exec (.ringEnableWrite fn v) s = ring { r with en := false, irq := v.getLsbD 1 }) ∧
    exec (.cmdtailWrite fn v) s = ring { r with cmdTail := v.toNat % 2 ^ 32 } ∧
    exec (.cplheadWrite fn v) s = performs (drainRecords { r with cplHead := v.toNat % 2 ^ 32 } fn) s ∧
    (r.waiting = [] → exec (.cplheadWrite fn v) s = ring { r with cplHead := v.toNat % 2 ^ 32 }) ∧
    (∀ e, r.waiting = [e] → (r.cplTail + 2 ^ 32 - v.toNat % 2 ^ 32) % 2 ^ 32 < 2 ^ r.cplLog → exec (.cplheadWrite fn v) s =
      performs [.write .host (r.cplBase + 16 * (r.cplTail % 2 ^ r.cplLog)) (leBytes 16 e.toNat) (List.replicate 16 false),
        .chip (fun h =>
          let h := { h with rings := SMap.set {} h.rings fn { r with
            cplHead := v.toNat % 2 ^ 32, waiting := [], cplTail := (r.cplTail + 1) % 2 ^ 32, messages := r.messages + (if r.irq then 1 else 0) } }
          if r.irq then h.raise fn 0 else h)] s)) ∧
  (hostBlocked s fn = true → exec (.ringEnableWrite fn v) s = performs [] s ∧ exec (.cmdtailWrite fn v) s = performs [] s ∧ exec (.cplheadWrite fn v) s = performs [] s) ∧
  (hostBlocked s 0 = false →
    exec (.dutyWrite v) s = performs [.chip (fun h => { h with duty := v &&& 0xFF })] s ∧
    (2400 ≤ v.toNat % 2 ^ 13 → v.toNat % 2 ^ 13 ≤ 4400 → exec (.pwrcapWrite v) s = performs [.chip (fun h => { h with cap := v.toNat % 2 ^ 13 })] s) ∧
    (v.toNat % 2 ^ 13 < 2400 ∨ 4400 < v.toNat % 2 ^ 13 → exec (.pwrcapWrite v) s = performs [] s) ∧
    exec (.registerWrite 0x20000 v) s = exec (.dutyWrite v) s ∧ exec (.registerWrite 0x20008 v) s = exec (.pwrcapWrite v) s ∧
    exec (.registerWrite 0x60110 v) s = exec (.tlbInvalidate v) s ∧ exec (.registerWrite 0x80048 v) s = exec (.jpcomWrite v false) s ∧
    (∀ n k, n < 256 → k < 3 → exec (.registerWrite (0x50000 + 32 * n + 8 * k) v) s = performs [.chip (fun h => { h with
      ranges := SMap.set 0 h.ranges n (setField (SMap.get 0 h.ranges n) (64 * k) 64 v.toNat &&& rangeMask) })] s) ∧
    (∀ m, m < 17 → exec (.registerWrite (0x60000 + 8 * m) v) s = performs [.chip (fun h => { h with roots := SMap.set 0 h.roots m (v &&& 0xFFFFF00001) })] s)) ∧
  (∀ k byHost, exec (.tkoWrite k byHost) s =
    performs (if byHost = s.chip.duty.getLsbD 2 ∧ (s.stackAt k).tko = true ∧ 16 ≤ (s.stackAt k).beats then [modStack k (fun t => { t with
      handback := true, handbackAt := s.cyc + 1 + s.choice 0 % (3900 / max 1 (s.stackAt k).tkoRate) })] else []) s) ∧
  (∀ m, ∃ t, exec (.routeTableWrite m v) s = .next t ∧ t.chip.routes = SMap.set 0 s.chip.routes (m % 1024) (v &&& 0x9F)) ∧
  exec (.mcurWrite v) s = performs (if j.wfail then modJournal (fun j => { j with cur := v.toNat, ract := v.toNat < j.hostedNext }) ::
    (if v.toNat < j.hostedNext then [post s 0x31 0 0 0 0] else []) else []) s ∧
  (∃ t, exec (.jpcomWrite v true) s = .next t ∧ t.chip.journal = if j.pcom = v.toNat then j else ({ j with pcom := v.toNat } : Journal).truncate) ∧
  (hostBlocked s 0 = false → v.toNat ∈ j.hostedMarks → ∃ t, exec (.jpcomWrite v false) s = .next t ∧ t.chip.journal.hostedCom = v.toNat) ∧
  (v.toNat ∉ j.hostedMarks → exec (.jpcomWrite v false) s = performs [] s) ∧
  (∃ t, exec (.mirrorPairingWrite 0x040 v) s = .next t ∧ t.chip.journal.partner = f 0 10 ∧ t.chip.journal.pval = v.getLsbD 10 ∧
    t.chip.journal.ackb = (if 1024 ≤ f 32 24 then f 32 24 else j.ackb) ∧ (v.getLsbD 10 = false → t.chip.journal.state = 0)) ∧
  (j.state ≠ 2 → exec (.mirrorPairingWrite 0x041 v) s = performs [modJournal (fun j => { j with spares := v &&& 0x7FF7FF7FF7FF })] s) ∧
  (∃ t, exec (.mirrorPairingWrite 0x042 v) s = .next t ∧ t.chip.journal.ringBase = f 0 24 ∧ t.chip.journal.ringLog = f 24 5 ∧ t.chip.journal.localBase = f 32 24) ∧
  (v.getLsbD 29 = true → j.hv = false → ∃ t, exec (.mirrorPairingWrite 0x043 v) s = .next t ∧ t.chip.journal.hv = true ∧ t.chip.journal.writer = f 32 10 ∧
    t.chip.journal.hostedNext = j.hostedHead ∧ t.chip.journal.wfail = false)

/-- R247 to R253, R368, R371, R373, R375, R376, R359, R360: the stacks' refresh, heartbeats, handback, retrain and map-out; sensors, heat map and
power; images; soft errors by store; the host link's answers. The model's own readings are the forms of a link request (log 12) and of a report
(log 16), the evaluation of a stack's layers together (log 53), the moves and the commit of a map-out (log 54), flipped bits that stand until a
read meets them (log 57), when the host is asked (log 72), which saves a retrain waits for (log 78), and Lantern's own Quiesce (log 86). -/
def Obligations.StackAndLanternEvents : Prop := ∀ (k : Nat) (s : State),
  let t := s.stackAt k
  let l := s.chip.lantern
  (∀ layer, layer < 16 →
    exec (.layerMapOut k layer 0) s = performs (modStack k (fun t => { t with leaving := some layer, leavingHost := s.chip.duty.getLsbD 4 }) ::
      (askHost s 4 ++ quiesceAll s)) s ∧
    (t.leaving ≠ some layer ∨ t.leavingHost = true ∨ regionMapped s k layer = false → exec (.layerMapOut k layer 1) s = performs [] s) ∧
    (t.leaving = some layer → t.leavingHost = false → regionMapped s k layer = true → ownQuiescing s = false →
      exec (.layerMapOut k layer 1) s = performs (regionMoves s k layer ++ [again s (.layer k layer 1)]) s) ∧
    (t.leaving = some layer → regionMapped s k layer = false →
      (layerBusy s k layer = true → exec (.layerMapOut k layer 2) s = performs [again s (.layer k layer 2)] s) ∧
      (let l : List Act := [modStack k (fun t => { t with good := setField t.good layer 1 0, leaving := none }),
         .wipe .hbm (2 ^ 32 * 3 * (16 * (k / 3) + layer)) (2 ^ 32 * 3), post s 0x19 0 k 0 layer]
       layerBusy s k layer = false → ownQuiescing s = false → exec (.layerMapOut k layer 2) s = performs (l ++ resumeOwn (applyActs l s)) s))) ∧
  (∀ temps : List Nat,
    let rates := (List.range 16).map (fun i => refreshRate (t.rates.getD i 1) (temps.getD i 0))
    let sets := modStack k (fun y => { y with
      rates := rates, evalAt := s.cyc, reports := (t.reports.filter (fun e => s.cyc ≤ e.1 + 100000)) ++ [(s.cyc, rates.foldl max 1)] })
    ((∀ x ∈ temps, x ≤ 105) → exec (.refreshRateEval k temps) s = performs (sets :: resumeOwn s) s) ∧
    ((∃ x ∈ temps, 105 < x) → exec (.refreshRateEval k temps) s = performs (sets :: post s 0x1A 0 k 0 0 :: quiesceAll s) s)) ∧
  (∀ old x, (95 < x → refreshRate old x = 4) ∧ (85 < x → x ≤ 95 → old ≤ 2 → refreshRate old x = 2) ∧ (x ≤ 85 → old ≤ 1 → refreshRate old x = 1) ∧
    (x ≤ 83 → refreshRate old x = 1) ∧ (83 < x → x ≤ 85 → old = 2 → refreshRate old x = 2) ∧ (93 < x → x ≤ 95 → old = 4 → refreshRate old x = 4)) ∧
  (let n := (if s.cyc < t.lastBeat + 2000 then t.beats + 1 else 1)
   exec (.heartbeat k) s = performs (modStack k (fun y => { y with lastBeat := s.cyc, beats := n }) ::
      (if t.tko = true ∧ n = 16 then askHost s 2 else [])) s) ∧
  (0 < t.lastBeat → t.tko = false → t.lastBeat + 4000 ≤ s.cyc →
    (∀ e ∈ t.reports, e.1 + 100000 < s.cyc) → exec (.heartbeatTimeout k) s = performs [modStack k (fun y => { y with
      tko := true, beats := 0, handback := false, src := 2, tkoRate := 4 }), post s 0x06 0 k 0 0] s) ∧
  exec (.refreshIntervalBoundary k) s = performs (if t.handback then [modStack k (fun y => { y with tko := false, src := 0, handback := false, tkoRate := 0 })] else []) s ∧
  ((∀ e ∈ s.cores, deadlineSave s e.1 = none) → exec (.retrainRequest k) s = performs [modStack k (fun y => { y with retrain := true })] s) ∧
  (∃ saves : List (Nat × Nat), (∀ w ∈ saves, deadlineSave s w.1 = some w.2) ∧ exec (.retrainRequest k) s =
    performs [modStack k (fun y => if saves.isEmpty then { y with retrain := true } else { y with rtd := true, waits := saves })] s) ∧
  exec (.dataRateRetrainComplete k) s = performs [modStack k (fun y => { y with retrain := false })] s ∧
  (∃ m : List Nat, exec .heatMapPublish s = performs (modLantern (fun l => { l with heat := m, heatAt := s.cyc }) :: askHost s 5) s ∧ m.length = 576 ∧
    ∀ i, i < 192 → m.getD (384 + i) 0 = min (SMap.get 0 l.sensors (16 + i)).toNat 255) ∧
  (∀ n r, let reads : Act := modLantern (fun l => { l with sensors := SMap.set 0 l.sensors n r })
   exec (.sensorSample n r) s = performs (reads ::
    (if n < 16 ∧ 420 < r then post s 0x1A 0 (256 * (n / 4)) 0 n :: quiesceAll s else resumeOwn (applyAct reads s)) ++
    (if n < 16 ∧ 460 ≤ r then [post s 0x23 0 (256 * (n / 4)) 0 n, .chip (fun h => { h with
      halted := true, hbmStacks := (List.range 12).foldl (fun m k => SMap.set {} m k { SMap.get {} m k with selfRefresh := true }) h.hbmStacks })] else [])) s) ∧
  (∀ w, exec (.powerCapEval w) s = performs [.chip (fun h => { h with meas := w % 2 ^ 13 })] s) ∧
  (∀ i : FirmwareImage, l.powered = true →
    (i.edOk = true → i.mlOk = true → l.fuse ≤ i.version → exec (.imageWrite i) s =
      performs [modLantern (fun l => { l with inactive := some i, staged := true }), post s 0x32 0 0 0 0] s) ∧
    (i.edOk = false ∨ i.mlOk = false ∨ i.version < l.fuse → ∃ n, n ≠ 0 ∧ exec (.imageWrite i) s = performs [post s 0x32 0 0 0 n] s)) ∧
  (∀ n, l.powered = true → ∃ w : List Word, exec (.attestationRequest n) s = performs [modLantern (fun l => { l with report := w })] s ∧
    (∀ i, i < 4 → w.getD i 0 = n.extractLsb' (64 * i) 64) ∧ w.getD 6 0 = BitVec.ofNat 64 l.fuse) ∧
  (∀ e : ErrorTarget, let c := e.place % 1024
    (e.store = 0 → e.double = true → exec (.softError e) s = performs [.row c (e.index / 256 % 512) (poisonedWords (e.index % 256))] s) ∧
    (e.store = 1 → e.double = true → exec (.softError e) s = performs [.mark (.spd c) (e.index % 2 ^ 19) .flips] s) ∧
    (e.store = 2 → e.double = true → exec (.softError e) s = performs [.mark (.bos c) (e.index % 2 ^ 18) .flips] s) ∧
    (let flip := (s.rowOf c (e.index / 256 % 512)).flip
     e.store = 0 → e.double = false → exec (.softError e) s = performs [if flip.getLsbD (e.index % 256) then .row c (e.index / 256 % 512) (poisonedWords (e.index % 256))
       else .flipRow c (e.index / 256 % 512) (flip ||| (1 : BitVec 256) <<< (e.index % 256))] s) ∧
    (let one := fun (h : Home) (u : Nat) => performs (match s.unitMark h (8 * u) with
       | .clear => [.mark h u .flip] | .flip => [.mark h u .flips] | .flips | .error | .stored => []) s
     (e.store = 1 → e.double = false → exec (.softError e) s = one (.spd c) (e.index % 2 ^ 19)) ∧
     (e.store = 2 → e.double = false → exec (.softError e) s = one (.bos c) (e.index % 2 ^ 18)) ∧
     (e.store = 4 → e.double = false → exec (.softError e) s = one .hbm e.index) ∧
     (e.store = 4 → e.double = true → exec (.softError e) s = performs [.mark .hbm e.index .flips] s)) ∧
    (let d := e.place % 4
     let u := e.index % (Config.syeSram / 8)
     e.store = 3 → s.unitMark (.sye d) (8 * u) = .flip ∨ (s.unitMark (.sye d) (8 * u) = .clear ∧ e.double = true) →
       exec (.softError e) s = performs [.mark (.sye d) u .error, post s 0x20 0 (256 * d) (8 * u) 0] s)) ∧
  (∀ q : LinkRequest, l.powered = true →
    (l.up = false → exec (.hostLinkRequest q) s = performs [hostAnswer q.fn [] (if q.config then 2 else 1)] s) ∧
    (l.up = true → fnEnabled s q.fn = false → exec (.hostLinkRequest q) s = performs [hostAnswer q.fn [] 1] s) ∧
    (l.up = true → fnEnabled s q.fn = true → q.config = true → q.write = none → exec (.hostLinkRequest q) s =
      performs [hostAnswer q.fn (wordsRead (configRead s q.fn) q.addr q.size) 0] s) ∧
    (fnEnabled s q.fn = true → q.config = false → hostBlocked s q.fn = true → l.up = true → exec (.hostLinkRequest q) s = performs [hostAnswer q.fn [] 1] s) ∧
    (fnEnabled s q.fn = true → q.config = false → hostBlocked s q.fn = false → 2 ^ 60 ≤ q.addr → q.write = none → exec (.hostLinkRequest q) s =
      performs [hostAnswer q.fn (wordsRead (registerRead s) (barOffset q.fn (q.addr - 2 ^ 60)) q.size) 0] s))

/-- R310 to R314, R317, R321, R326 to R329: a flit in sequence is taken and every eighth acknowledged; one that fails its check, and those
after it, are discarded with a retry beat for the one expected; a retry beat replays, the 17th replay takes the link down; acknowledged flits
leave the retry buffer; a lane pauses and starts again; flits without a route for 1 ms are discarded; a time message sets the TBU. The delays of
84 and 169 cycles and the repeats of beats (log 33), what a time message carries (log 64), and the flits of a function being reset that a replay
leaves out (log 90) are the model's. -/
def Obligations.LinkEvents : Prop := ∀ (k : Nat) (s : State),
  let p := s.chip.port k
  (∀ f ok, p.up = false ∨ 24 ≤ k → exec (.flitReceive k f ok) s = performs [] s) ∧
  (∀ f ok, p.up = true → k < 24 →
    (ok = false ∨ flitLseq f ≠ p.expect ∧ p.discarding = false → exec (.flitReceive k f ok) s =
      performs [modPort k (fun p => ({ p with discarding := true, retryAt := s.cyc + 84 } : Port).beat s.cyc (.retry p.expect))] s) ∧
    (ok = true → flitLseq f ≠ p.expect → p.discarding = true → exec (.flitReceive k f ok) s = performs [] s) ∧
    (ok = true → flitLseq f = p.expect →
      let takes : Act := modPort k (fun p =>
        let q : Port := { p with expect := (p.expect + 1) % 4096, discarding := false, good := p.good + 1 }
        if (p.good + 1) % 8 = 0 then q.beat s.cyc (.ack p.expect) else q)
      (flitDest f ≠ s.chip.modId → exec (.flitReceive k f ok) s = performs [takes, .chip (fun h => h.send (flitDest f) [(f, 0)])] s) ∧
      (flitDest f = s.chip.modId → flitKind f = 1 → p.queued (flitLane f) < 47 → exec (.flitReceive k f ok) s =
        performs [takes, modPort k (fun p => { p with queues := p.queues ++ [⟨flitLane f, s.cyc, f⟩] }), later s (.collectiveFlitArrival k f)] s) ∧
      (flitDest f = s.chip.modId → flitKind f = 1 → p.queued (flitLane f) = 47 → (∀ e ∈ p.pausing, e.1 ≠ flitLane f) → exec (.flitReceive k f ok) s =
        performs [takes, modPort k (fun p => ({ p with queues := p.queues ++ [⟨flitLane f, s.cyc, f⟩]
                                                       pausing := p.pausing ++ [(flitLane f, s.cyc + 84)] } : Port).beat s.cyc (.pause (flitLane f))),
          later s (.collectiveFlitArrival k f)] s) ∧
      (flitDest f = s.chip.modId → flitKind f = 3 → exec (.flitReceive k f ok) s = performs [takes] s))) ∧
  (∀ n i, p.retry.findIdx? (fun e => e.1 = n) = some i →
    let m := if p.replayed = n then p.replays + 1 else 1
    (m ≤ 16 → exec (.retryBeat k n) s = performs [.chip (fun h => { h with
      ports := SMap.set {} h.ports k { (h.port k).purge i h.dead with resend := some i, replayed := n, replays := m } }), post s 0x04 0 0 0 k] s) ∧
    (16 < m → ∃ t, exec (.retryBeat k n) s = .next t ∧ t.chip.ports = SMap.set {} s.chip.ports k { p with up := false, retry := [], waiting := [], resend := none })) ∧
  (∀ n, p.retry.findIdx? (fun e => e.1 = n) = none → exec (.retryBeat k n) s = performs [] s) ∧
  (∀ n i, p.retry.findIdx? (fun e => e.1 = n) = some i → exec (.ackBeat k n) s = performs [modPort k (fun p => { p with
    retry := p.retry.drop (i + 1), resend := p.resend.map (fun r => r - (i + 1)), replays := 0 })] s) ∧
  (∀ lane, exec (.pauseBeat k lane) s = performs [modPort k (fun p => { p with paused := p.paused.filter (fun e => e.1 ≠ lane) ++ [(lane, s.cyc + 169)] })] s ∧
    exec (.pauseExpiry k lane) s = performs [modPort k (fun p => { p with paused := p.paused.filter (fun e => !(e.1 = lane && e.2 ≤ s.cyc)) })] s) ∧
  (∀ m, SMap.get 0 s.chip.noRoute m + 1000000 ≤ s.cyc → s.chip.route m = none → SMap.get [] s.chip.routeHold m ≠ [] →
    exec (.noRouteTimeout m) s = performs [.chip (fun h => { h with routeHold := SMap.set [] h.routeHold m [] }), post s 0x22 0 0 0 m] s) ∧
  (∀ m : TimeMessage, ∃ t, exec (.timeSyncMessage m) s = .next t ∧ t.chip.tbu.isRef = m.isReference ∧
    t.chip.tbu.theta = (if m.isReference then 0 else min (m.ptheta + m.asym + m.resid) 0xFFFF) ∧
    (t.chip.tbu.lock = true ↔ m.locked = true ∧ t.chip.tbu.theta ≤ 9))

/-- R224, R320 to R322, R326: a reducer command's descriptor is read at its start, and the step queued when it is sound, or dropped with a
deferred fault; the oldest step begins; a flit of the begun step's tag, alone in the queues, is taken, its data the first of a new chunk of
its sender; a flit of another sequence, or one that has waited 1,024 cycles, is refused with the collective-order
fault, or without an issuer dropped; a step that completes leaves the queue and writes its result. When a flit is taken, settled or refused, and
when a step completes, is the model's reading (log 34), as are the walks of what a step reads and writes (log 84). -/
def Obligations.ReducerEvents : Prop := ∀ (k : Nat) (s : State),
  (∀ id y step d, s.work.commands.find? (fun y => y.id = id) = some y → y.kind = .srd step k d → y.start ≤ s.cyc → holdClear s y.hold = true → s.chip.fatal = false →
    let c := y.q / 4
    let read := engineBytes s c (d % 2 ^ 22) 64
    let x := readStep s y step k read.1
    let ready := spdNotReady s c (d % 2 ^ 22) 64 = false
    let poisoned := read.2.any id
    let room := (s.seqOf y.q).events.length + (s.seqOf y.q).orderFaults.length < 64
    (ready → (s.chip.srd k).length < 64 → poisoned = false → x.illegal = false → ∃ t, exec (.srdStepEnqueue id) s = .next t ∧
      t.chip.srds = SMap.set [] s.chip.srds k (s.chip.srd k ++ [x]) ∧ ∀ z ∈ t.work.commands, z.id ≠ id) ∧
    (Canonical s → room → ready → 64 ≤ (s.chip.srd k).length ∨ (poisoned = true ∨ x.illegal = true) → ∃ t e, exec (.srdStepEnqueue id) s = .next t ∧
      t.chip.srds = s.chip.srds ∧ (t.seqOf y.q).events = (s.seqOf y.q).events ++ [e] ∧ e.code = (if 64 ≤ (s.chip.srd k).length then 0x23 else 0x24) ∧ e.faddr = y.addr)) ∧
  (∀ x l, s.chip.srd k = x :: l → x.begun = false → s.chip.fatal = false → resetting s x.fn = false →
    (∀ e ∈ s.chip.ports, ∀ r ∈ e.2.queues, x.tagged r.flit = false) → ∃ y, exec (.srdStepBegin k) s = performs [modSrd k (modifyAt 0 (fun _ => y))] s ∧
      y.begun = true ∧ y.id = x.id ∧ (x.hasInput = true → ∃ u, (y.ready = some u ∨ x.ready ≠ none) ∧ s.cyc < u) ∧ (x.hasInput = false → y.ready = x.ready)) ∧
  (∀ port f r x y l, s.chip.srd k = x :: l → x.begun = true → x.ready = none → x.tagged f = true → x.stack = k → r.flit = f →
    (s.chip.port port).queues.find? (fun r => r.flit = f) = some r → queuedInOrder s = [(port, r)] → queuedFlits s = 1 →
    s.chip.refused.contains (f.source, 256 * (flitTag f).1 + (flitTag f).2.1, (flitTag f).2.2) = false →
    (x.ordered = true → f.source / 1024 = chtField x.entry 28 10) → x.take f = .took y →
    exec (.collectiveFlitArrival port f) s = performs [unqueue port r, modSrd k (modifyAt 0 (fun _ => y.settle (s.cyc + 1 + s.choice 1)))] s) ∧
  (∀ (x : SrdStep) (f : Flit) (e : BitVec 128), x.from f.source = [] → f.ext = some e → flitFix f = 0 → x.started < x.need →
    (x.ordered = true ∨ 7 ≤ x.step → f.source / 1024 = chtField x.entry 28 10) →
    x.take f = .took { x with taken := x.taken ++ [(f.source, (flitData f).1.take (x.chunkSize 0), (flitData f).2.take (x.chunkSize 0), e.extractLsb' 0 64)] }) ∧
  (∀ port f r x, (s.chip.port port).queues.find? (fun r => r.flit = f) = some r → (flitTag f).1 = k →
    s.chip.refused.contains (f.source, 256 * (flitTag f).1 + (flitTag f).2.1, (flitTag f).2.2) = false →
    (s.chip.srd k).find? (fun x => x.chan = (flitTag f).2.1) = some x → x.stack = k →
    x.seq ≠ (flitTag f).2.2 ∨ (x.ordered = true ∧ f.source / 1024 ≠ chtField x.entry 28 10) →
    ∃ t, exec (.collectiveFlitArrival port f) s = .next t ∧ t.chip.srds = SMap.set [] s.chip.srds k ((s.chip.srd k).filter (fun y => y.chan ≠ x.chan)) ∧
      (Canonical s → runningLaunch s (x.q / 4) = x.launch → (s.seqOf x.q).events.length + (s.seqOf x.q).orderFaults.length < 64 →
        ∃ e, (t.seqOf x.q).orderFaults = (s.seqOf x.q).orderFaults ++ [e] ∧ e.code = 0x33 ∧ e.notBefore ≤ s.cyc + 16)) ∧
  (∀ lane r, waitedFlit s k lane = some r → (∀ x ∈ s.chip.srd (flitTag r.flit).1, x.chan ≠ (flitTag r.flit).2.1) →
    exec (.collectiveWaitTimeout k lane) s = performs [unqueueTransfer r.flit, .chip (fun h => { h with
      refused := h.refused ++ [(r.flit.source, 256 * (flitTag r.flit).1 + (flitTag r.flit).2.1, (flitTag r.flit).2.2)] })] s) ∧
  (∀ x l u, s.chip.srd k = x :: l → x.begun = true → x.ready = some u → u ≤ s.cyc → x.out = none → x.mapped s = true → x.sends = false → x.bar = 0 →
    heldWrite s x.fn x.dst x.len = false → s.chip.holdsFlits s.chip.nextElem = false → (x.result s).2 = [] →
    ∀ w, (if x.step ≠ 7 ∨ x.dst ≠ 0 then writeDevice s (x.q / 4) x.fn x.dst (s.choice 3) (x.result s).1.1 (x.result s).1.2 else .ok []) = .ok w →
    ∃ t, exec (.srdStepComplete k) s = .next t ∧ t.chip.srds = SMap.set [] s.chip.srds k l ∧ ∀ h a, t.readByte h a = (applyActs w s).readByte h a)

/-- R226, R269, R331, R335 to R344: a record in sequence and good stands in the hosted ring, and an acknowledgement of the next number goes to its
writer, in the same step (log 39); acknowledgements raise DUR; an unacknowledged record is sent again after ACKB / 4 cycles, and after ACKB
the partner is declared failed; a spare with the whole ring becomes the partner; a silent or reported writer is declared failed; a durable
record's emission performs, is held back, or is dropped with its fault. -/
def Obligations.JournalEvents : Prop := ∀ (s : State),
  let j := s.chip.journal
  (∀ r ok, j.hv = false ∨ j.wfail = true ∨ r.writer % 1024 ≠ j.writer → exec (.journalRecordReceive r ok) s = performs [] s) ∧
  (∀ r ok, j.hv = true → j.wfail = false → r.writer % 1024 = j.writer → 10 ≤ j.hostLog → j.hostLog ≤ 24 →
    let heard : Act := modJournal (fun j => { j with heardAt := s.cyc })
    let b := j.hostBase * 2 ^ 16 + 64 * (r.number % 2 ^ j.hostLog)
    (ok = true → r.number = j.hostedNext →
      exec (.journalRecordReceive r ok) s = performs [heard, .write .hbm b (recordBytes r) (List.replicate 64 false),
        .chip (fun h => ({ h with journal := { h.journal with
          hostedNext := j.hostedNext + 1, hostedMarks := if r.kind % 16 = 3 then j.hostedMarks ++ [r.number] else j.hostedMarks } } : Chip).tell s.cyc j.writer
            (.journalAck (j.hostedNext + 1)))] s ∧
      ∃ t, exec (.journalRecordReceive r ok) s = .next t ∧ t.chip.journal.hostedNext = j.hostedNext + 1 ∧
        (∀ p, s.chip.route j.writer = some p → (t.chip.port p).out = (s.chip.port p).out ++ [.journalAck (j.hostedNext + 1)]) ∧
        ∀ a, t.readByte .hbm a = if b ≤ a ∧ a < b + 64 then (recordBytes r).getD (a - b) 0 else s.readByte .hbm a) ∧
    (ok = false ∨ r.number ≠ j.hostedNext → exec (.journalRecordReceive r ok) s = performs [heard] s)) ∧
  (∀ m n,
    (j.state = 3 → m = j.rseed → exec (.journalAck ⟨m, n⟩) s =
      performs [modJournal (fun j => { j with spareAck := max j.spareAck n, sentAt := j.sentAt.filter (fun e => n ≤ e.1) })] s) ∧
    (¬ (j.state = 3 ∧ m = j.rseed) → j.pval = true → m = j.partner → exec (.journalAck ⟨m, n⟩) s = performs [modJournal (fun j => { j with
      dur := max j.dur n, heard := some n, sentAt := if j.state = 1 then j.sentAt.filter (fun e => n ≤ e.1) else j.sentAt })] s) ∧
    (¬ (j.state = 3 ∧ m = j.rseed) → j.pval = false ∨ m ≠ j.partner → exec (.journalAck ⟨m, n⟩) s = performs [] s)) ∧
  (j.oldestSent = none → exec .journalResendTimeout s = performs [] s ∧ exec .partnerFailureTimeout s = performs [] s) ∧
  (∀ since, s.chip.fatal = false → j.oldestSent = some since →
    let fails : List Act := [modJournal (fun j => { j with state := 2, rseed := 0 }), post s 0x18 0 0 0 0]
    (s.cyc < max since j.resentAt + j.ackb / 4 → exec .journalResendTimeout s = performs [] s) ∧
    (max since j.resentAt + j.ackb / 4 ≤ s.cyc → exec .journalResendTimeout s =
      performs (modJournal (fun j => { j with resentAt := s.cyc }) :: resendActs s (if j.state = 3 then j.spareAck else j.dur) j.tail) s) ∧
    (s.cyc < since + j.ackb → exec .partnerFailureTimeout s = performs [] s) ∧
    (since + j.ackb ≤ s.cyc → s.chip.duty.getLsbD 1 = true → exec .partnerFailureTimeout s = performs (fails ++ [.chip (fun h => h.raise 0 1)]) s) ∧
    (since + j.ackb ≤ s.cyc → s.chip.duty.getLsbD 1 = false →
      exec .partnerFailureTimeout s = performs (fails ++ reseedActs (applyActs fails s)) s ∧
      (s.chip.spare = none → exec .partnerFailureTimeout s = performs (fails ++ [post s 0x18 0 0 0 0]) s))) ∧
  (j.state = 3 → j.tail ≤ j.spareAck → exec .spareReseedComplete s = performs [modJournal (fun j => { j with
    partner := j.rseed, ringBase := j.spareBase, rseed := 0, state := 1, dur := j.spareAck, pcom := j.head - 1, sentAt := []
    heard := some j.spareAck })] s) ∧
  (j.hv = true → j.wfail = false → exec .writerDownReport s = performs [modJournal (fun j => { j with wfail := true }), post s 0x31 0 0 0 0] s) ∧
  (j.hv = true → j.wfail = false → j.hostedHead < j.hostedNext → j.heardAt + 4 * j.ackb ≤ s.cyc →
    (s.chip.duty.getLsbD 1 = false → exec .writerFailureTimeout s = performs [modJournal (fun j => { j with wfail := true }), post s 0x31 0 0 0 0] s) ∧
    (s.chip.duty.getLsbD 1 = true → exec .writerFailureTimeout s =
      performs [modJournal (fun j => { j with heardAt := s.cyc }), .chip (fun h => h.raise 0 1)] s)) ∧
  (s.chip.fatal = true ∨ s.chip.emits = [] → exec .emissionPerform s = performs [] s) ∧
  (∀ e l, s.chip.emits = e :: l → s.chip.fatal = false → e.replay = true ∨ e.number < j.dur → e.silent = true →
    exec .emissionPerform s = performs [.chip (fun h => { h with emits := l })] s) ∧
  (∀ e l, s.chip.emits = e :: l → s.chip.fatal = false → e.replay = true ∨ (e.number < j.dur ∧ j.state ≠ 2 ∧ j.state ≠ 3) → holdClear s e.hold = true →
    e ∉ l → (∀ x ∈ l, x.silent = false ∧ x.place s ≠ .sent) →
    (∀ h off, e.place s = .home h off → fencedFrom s h (e.q / 4) = false → exec .emissionPerform s =
      performs (.chip (fun h => { h with emits := l }) :: noteWrite engineRank h off 8 :: writeHome s h off (leBytes 8 e.payload.toNat) (List.replicate 8 false)) s) ∧
    (∀ n, e.place s = .fault n → exec .emissionPerform s =
      performs (.chip (fun h => { h with emits := l }) :: post s 0x1B e.fn (e.q / 4) e.target.toNat e.number :: emitFault s e n) s) ∧
    (∀ ch, e.place s = .channel ch → ∃ t x, exec .emissionPerform s = .next t ∧ t.chip.elements = s.chip.elements ++ [x] ∧ x.element.channel = ch ∧
      t.chip.emits = { e with sent := some s.chip.nextElem } :: l))

/-- R7, R351 to R357, R362, R363, R370, R373, R377: a function reset performs the function's writes that reach their home in its first cycle, then
stops its cores, drops its work and what it sent, and once its reads have drained, or half of its 100 µs are over, clears its cores and module
state; a core fatal fault fences the core; a module reset and power bring every register and table to its reset value, device memory kept by
the one and not by the other. The zero bytes of memory (log 1), what of a function's work counts and goes at once (log 55), what a module
reset keeps (log 56), the half of the reset's time (log 65), the core map (log 80) and the flits in retry buffers (log 90) are the model's. -/
def Obligations.ResetEvents : Prop := ∀ (v : Nat) (s : State), Canonical s →
  let begins := fun (i : Instr) => ∃ t, exec i s = .next t ∧
    (∀ c ∈ coresOf s v, (t.coreOf c).owner = none ∧ (∀ i, i < 4 → t.seqOf (4 * c + i) = {}) ∧ ∀ q ∈ (t.coreOf c).queues, q.launch = none) ∧
    (∀ l ∈ t.work.launches, l.fn ≠ v) ∧ (∀ y ∈ t.work.commands, y.fn ≠ v) ∧ (∀ y ∈ t.work.copies, y.fn ≠ v) ∧ (∀ x ∈ t.chip.elements, x.fn ≠ v) ∧
    (∀ a ∈ t.work.accesses, a.fn = v → a.kind = .load ∧ a.lost = true ∧ a.flight = none) ∧ (∀ f ∈ t.work.flights, s.fnOf (f.q / 4) ≠ v) ∧ SameMemory s t
  let due := s.work.accesses.filter (fun a => a.fn = v && !a.performed && a.kind.writes && a.at_ ≤ s.cyc && !a.trans.isOpen)
  let first := bringForward (s.work.accesses.length + 1) (due.map (fun a => a.id)) s
  (1 ≤ v → v ≤ 16 → (s.chip.vfReset v).busy = false → s.chip.fatal = false → s.chip.halted = false → s.chip.lantern.powered = true →
    exec (.vfFlr v) s = performs (first ++ fenceActs (applyActs first s) v) s ∧
    (due = [] → begins (.vfFlr v)) ∧ (due = [] → (s.chip.vfReset v).contain ≠ [] → (∀ l ∈ s.work.launches, l.fn = v → l.remaining = [] ∨ l.id ∈ (s.chip.vfReset v).contain) →
      begins (.containmentFlr v))) ∧
  ((s.chip.vfReset v).busy = true → exec (.vfFlr v) s = performs [] s) ∧
  (let r := s.chip.vfReset v
   r.busy = true → s.chip.fatal = false →
   (r.step = 2 → r.start < s.cyc → drained s v = true ∨ r.start + 50000 ≤ s.cyc →
     let reads := s.work.accesses.filter (fun a => a.fn = v && !a.performed && a.kind = .load && !a.trans.isOpen)
     (∃ f : VfReset → VfReset, exec (.flrDrainComplete v) s = performs (bringForward (s.work.accesses.length + 1) (reads.map (fun a => a.id)) s ++
       [.work (fun w => { w with accesses := w.accesses.filter (fun a => a.fn ≠ v), walks := w.walks.filter (fun w => w.fn ≠ v) }),
        .chip (fun h => (h.dropSent v true).untag v), modVfr v f]) s ∧ ∀ x, (f x).step = 3 ∧ s.cyc < (f x).until_ ∧
          (s.cyc < x.start + 100000 → (f x).until_ ≤ x.start + 100000) ∧ s.cyc < (f x).four ∧ (f x).four ≤ (f x).until_ ∧
          f x = { x with step := 3, until_ := (f x).until_, four := (f x).four }) ∧
     (reads = [] → ∃ t, exec (.flrDrainComplete v) s = .next t ∧ SameStores s t ∧
       (∀ a ∈ t.work.accesses, a.fn ≠ v) ∧ (∀ w ∈ t.work.walks, w.fn ≠ v) ∧ (t.chip.vfReset v).step = 3 ∧ (t.chip.vfReset v).busy = true ∧
       (t.chip.vfReset v).ndrop = r.ndrop ∧ (t.chip.vfReset v).ndisc = r.ndisc)) ∧
   (r.step = 3 → r.until_ ≤ s.cyc → ∃ t, exec (.flrScrubComplete v) s = .next t ∧
     (∀ c ∈ coresOf s v, (∀ k, k < 256 → SMap.get {} t.scalars (256 * c + k) = {}) ∧ (∀ k, k < 64 → SMap.get {} t.masks (64 * c + k) = {}) ∧
       (∀ k, k < 16 → SMap.get {} t.glints (16 * c + k) = {}) ∧ (∀ k, k < 96 → SMap.get 0 t.laneFlags (96 * c + k) = 0) ∧ (∀ n, n < 512 → t.rowOf c n = {}) ∧
       (∀ n, n < 8 → SMap.get 0 t.mps (8 * c + n) = 0) ∧ (∀ n, n < 64 → SMap.get 0 t.ths (64 * c + n) = 0) ∧ (∀ n, n < 1024 → SMap.get 0 t.tags (1024 * c + n) = 0) ∧
       (∀ n, n < 4096 → SMap.get 0 t.dict (4096 * c + n) = 0 ∧ SMap.get 0 t.ucode (4096 * c + n) = 0) ∧ (∀ n, n < 256 → SMap.get 0 t.routines (256 * c + n) = 0 ∧
       SMap.get 0 t.cht (256 * c + n) = 0) ∧ (∀ n, n < 1024 → SMap.get {} t.ptt (1024 * c + n) = {}) ∧ (∀ i, i < 4 → t.seqOf (4 * c + i) = {}) ∧
       (∀ a, a < 2 ^ 22 → t.readByte (.spd c) a = 0) ∧ (∀ a, a < 2 ^ 21 → t.readByte (.bos c) a = 0) ∧ (t.coreOf c).mapFn = (s.coreOf c).mapFn) ∧
     t.chip.roots = SMap.set 0 s.chip.roots v 0 ∧ t.chip.rings = SMap.set {} s.chip.rings v {} ∧
     (∀ n e, (n, e) ∈ t.chip.ranges → rangeField e 4 5 ≠ v) ∧ t.chip.vfr = SMap.set {} s.chip.vfr v { r with busy := false, step := 5 })) ∧
  (∀ c, ∃ t, exec (.coreFatalFault c) s = .next t ∧ (t.coreOf c).fenced = true ∧ (t.coreOf c).outOfService = true ∧
    (∀ n l, (s.coreOf c).owner = some n → s.launchOf c n = some l → (t.coreOf c).owner = none ∧ Posts s t 0x16 l.fn c 0 1 ∧ ∀ k ∈ t.work.launches, k.id = l.id → c ∉ k.remaining)) ∧
  (let emptied := fun (t : State) => t.cyc = 0 ∧ t.gtime = 0 ∧ t.seqs = [] ∧ t.scalars = [] ∧ t.masks = [] ∧ t.glints = [] ∧ t.laneFlags = [] ∧
     (∀ c, t.coreOf c = {} ∨ t.coreOf c = { outOfService := true }) ∧ t.rows = [] ∧ t.mps = [] ∧ t.ths = [] ∧ t.spd = [] ∧ t.spdPoison = [] ∧
     t.tags = [] ∧ t.bos = [] ∧ t.bosPoison = [] ∧ t.dict = [] ∧ t.ucode = [] ∧ t.routines = [] ∧ t.cht = [] ∧ t.ptt = [] ∧ t.staging = [] ∧ t.sye = [] ∧
     t.syePoison = [] ∧ t.saved = []
   let cleared := fun (t : State) => emptied t ∧ (s.chip.lantern.badCores = [] → t.cores = []) ∧ t.phase = .reads ∧
     { t.work with agenda := [], free := 0, nextId := 0 } = ({} : Work) ∧ (∀ k, t.stackAt k = { good := (s.stackAt k).good }) ∧
     { t.chip with log := [], flash := [], lantern := {}, hbmStacks := [] } = ({ modId := s.chip.modId } : Chip)
   let l := s.chip.lantern
   (l.powered = true →
     (∃ t, exec .moduleReset s = .next t ∧ cleared t ∧ t.hbm = s.hbm ∧ t.hbmPoison = s.hbmPoison ∧ t.host = s.host ∧ t.chip.lantern = l.reboot.mapCores ∧
       (l.staged = true → t.chip.lantern.active = l.inactive)) ∧
     (∃ t, exec .powerInterruption s = .next t ∧ cleared t ∧ (∀ a, a < Config.hbmBytes → t.readByte .hbm a = 0) ∧ t.chip.log = [] ∧ t.chip.lantern = { l with
       powered := false, perst := none, upAt := none, up := false, sensors := [], heat := [], report := [] })) ∧
   (l.powered = false → exec .moduleReset s = performs [] s ∧ exec .powerInterruption s = performs [] s ∧
     ∃ t, exec .powerOn s = .next t ∧ emptied t ∧ t.chip.lantern = { broughtUp s with
       powered := true, up := false, upAt := if l.perst.isSome then some (linkUpAt s 0) else none }) ∧
   exec .perstDeassertion s = performs [modLantern (fun l => { l with
     perst := some s.cyc, up := false, upAt := if l.powered then some (linkUpAt s s.cyc) else none })] s ∧
   (∀ t, t < linkUpAt s t ∧ linkUpAt s t ≤ t + 2000000000))

/-- R70, R69, R76, R121, R143: a bundle that holds one operation does what the operation does alone in that slot; a bundle of NOPs only
hands the counter on: to the next bundle, to the start of a loop with turns left, past a loop whose last turn ends; the first bundle after a
RETT issues as if the frame's latches had been counted from it. -/
def Obligations.BundleIssues : Prop :=
  (∀ (i : Instr) (e : Encoding) (s : State), i.encoding = some e → s.cur.slot < 8 → slotClass s.cur.slot = e.cls →
    (i.s1Only = true → s.cur.slot = 1) →
    let at_ := fun k => if s.cur.slot = k then i else .nop
    exec (.bundleIssue (at_ 0) (at_ 1) (at_ 2) (at_ 3) (at_ 4) (at_ 5) (at_ 6) (at_ 7)) s = exec i s) ∧
  (∀ s : State, exec (.bundleIssue .nop .nop .nop .nop .nop .nop .nop .nop) s = exec .nop s) ∧
  (∀ (i : Instr) (e : Encoding) (s : State), Canonical s → i.encoding = some e → exec i s = exec i (applyActs (armLatches s s.cur.q) s)) ∧
  (∀ s : State, Canonical s → Settled s →
    let y := s.seqOf s.cur.q
    let n := (y.pc + sizeAt s s.cur.q) % 2 ^ 32
    (y.loops = [] → ∃ t, exec .nop s = .next t ∧ t.seqOf s.cur.q = { y with pc := n } ∧ SameStores s t ∧ t.chip = s.chip) ∧
    (∀ l e, y.loops = l ++ [e] → e.pipe = false → e.start ≤ y.pc → y.pc < e.stop →
      (n ≠ e.stop → ∃ t, exec .nop s = .next t ∧ t.seqOf s.cur.q = { y with pc := n }) ∧
      (n = e.stop → e.index + 1 < e.count → ∃ t, exec .nop s = .next t ∧
        t.seqOf s.cur.q = { y with pc := e.start, loops := l ++ [{ e with index := e.index + 1 }] }) ∧
      (n = e.stop → e.count ≤ e.index + 1 → (∀ x, l.getLast? = some x → x.stop ≠ e.stop) → ∃ t, exec .nop s = .next t ∧
        t.seqOf s.cur.q = { y with pc := e.stop, loops := l })))

/-- A step runs the decoded instruction (R16, R70, R73, R131, R133): when the bytes at the counter of the sequencer whose turn it is decode to a
bundle, and no trap is due, the step is exec of that bundle; when they do not, the trap of the fault; a trap that is due comes first; a REP in
progress repeats the bundle it names, before the counter moves on; in the phases of reads, of events and of the end of a cycle, exec of the
step that is due. That a step is one of these, in this order of phases, and what comes to a module that stands still, is the model's choice
(logs 4, 60). -/
def Obligations.StepRunsDecoded : Prop := ∀ s : State,
  (∀ c d, s.phase = .issue c → nextTurn s c = some d →
    let t := { s with phase := .issue (d + 1), cur := ⟨turnSeq s d, 0⟩ }
    let q := turnSeq s d
    (∀ l i, boundaryTrap t q = some (l, i) → step s = exec i (applyActs l t)) ∧
    (boundaryTrap t q = none → ∀ p b n i, (t.seqOf q).rep = some p → fetchBundle t (q / 4) p.addr = some (b, n) → decodeFault b = none →
      decodeBundle b = .ok i → step s = performs (repeatActs t q p (slotsOf i)) t) ∧
    (boundaryTrap t q = none → (t.seqOf q).rep = none →
    (∀ b n i, fetchBundle t (q / 4) (t.seqOf q).pc = some (b, n) → decodeFault b = none → decodeBundle b = .ok i → step s = exec i t) ∧
    (∀ b n k code, fetchBundle t (q / 4) (t.seqOf q).pc = some (b, n) → decodeFault b = some (k, code) →
      step s = exec (.trapEntry q (precise code k (t.seqOf q).pc)) t) ∧
    (fetchBundle t (q / 4) (t.seqOf q).pc = none → step s = exec (.trapEntry q ⟨0x01, none, false, 0, (t.seqOf q).pc⟩) t))) ∧
  (∀ i, s.phase = .reads → stands s = false → readDue s = some i → step s = exec i s) ∧
  (s.phase = .reads → stands s = true ∨ readDue s = none → step s = .next { s with phase := .events }) ∧
  (∀ l i, s.phase = .events → stands s = true → nextInput s = some (l, i) → step s = if lanternInput i then exec i (applyActs l s) else performs l s) ∧
  (∀ c, s.phase = .issue c → nextTurn s c = none → step s = .next { s with phase := .close }) ∧
  (∀ l i, s.phase = .events → stands s = false → due s = some (l, i) → step s = exec i (applyActs l s)) ∧
  (s.phase = .events → stands s = false → due s = none → step s = .next { s with phase := .issue 0 }) ∧
  (∀ i, s.phase = .close → startDue s = some i → step s = exec i s) ∧
  (s.phase = .close → startDue s = none → step s = .next (applyActs (cycleEnd s) s))

/-- R68, R69, R79 to R82, R85, R90: decoding the encoding of a well-formed bundle gives it back, and encoding what a bundle's word decodes to
gives the word back, so that no bit of a bundle is without meaning. -/
def Obligations.DecodeEncode : Prop :=
  (∀ s0 s1 v0 v1 v2 x m0 m1, (Instr.bundleIssue s0 s1 v0 v1 v2 x m0 m1).wf = true →
    decodeBundle (encode (.bundleIssue s0 s1 v0 v1 v2 x m0 m1)) = .ok (.bundleIssue s0 s1 v0 v1 v2 x m0 m1)) ∧
  (∀ b i, decodeBundle b = .ok i → i.wf = true ∧ encode i = b)

/-- R33, R35, R17, R19, R29, R358, R380: after reset time is zero, every sequencer is idle at address 0 with FMT 0x8 and clear flags, every
register, row and byte reads zero, and the cores' slices are 1,000,000 cycles long (the zero bytes of memory are the model's choice, log 1, and
so are IDLE and the zero of what the spec gives no reset value, log 8). -/
def Obligations.ResetValues : Prop :=
  let s := State.reset
  Canonical s ∧ s.cyc = 0 ∧ s.gtime = 0 ∧
  (∀ q, (s.seqOf q).run = .idle ∧ (s.seqOf q).pc = 0 ∧ (s.seqOf q).fmt = 0x8 ∧ (s.seqOf q).tb = 0 ∧ (s.seqOf q).fev = 0 ∧ (s.seqOf q).tcmp = 0 ∧
    (s.seqOf q).fls0 = 0 ∧ (s.seqOf q).fls1 = 0 ∧ (s.seqOf q).fls2 = 0 ∧ (s.seqOf q).fls3 = 0 ∧ (∀ k, s.laneFlag q k = 0) ∧
    (s.seqOf q).hnd = false ∧ (s.seqOf q).loops = [] ∧ (s.seqOf q).rep = none) ∧
  (∀ q r k, s.readScalar q r k = {}) ∧ (∀ q k, s.readMask q 0 k = ⟨BitVec.allOnes 1024, false⟩) ∧ (∀ q r k, r ≠ 0 → s.readMask q r k = {}) ∧
  (∀ n, SMap.get {} s.glints n = {} ∧ SMap.get 0 s.mps n = 0 ∧ SMap.get 0 s.ths n = 0 ∧ SMap.get 0 s.tags n = 0 ∧ SMap.get 0 s.dict n = 0 ∧
    SMap.get 0 s.ucode n = 0 ∧ SMap.get 0 s.routines n = 0 ∧ SMap.get 0 s.cht n = 0 ∧ SMap.get {} s.ptt n = {}) ∧
  (∀ c n, s.rowOf c n = {}) ∧ (∀ h a, s.readByte h a = 0) ∧ (∀ c, (s.coreOf c).owner = none ∧ (s.coreOf c).slice = 1000000) ∧
  s.chip.log = [] ∧ s.chip.fatal = false

/-- The memories and register files keep their one canonical form: every step from any state that has it gives one that has it. -/
def Obligations.CanonicalKept : Prop := ∀ s t : State, Canonical s → Sys2Proof.Machine.step s = .next t → Canonical t

/-- No step refuses, and the only one that faults is that of a module without power or stopped by its thermal trip which expects nothing
(R376, R377; the model's own stop, log 60): no instruction and no data stop the machine. -/
def Obligations.StepGoesOn : Prop := ∀ s : State,
  (∀ r, Sys2Proof.Machine.step s ≠ .refused r) ∧
  (∀ f, Sys2Proof.Machine.step s = .fault f ↔ f = .moduleStopped ∧ s.phase = .events ∧ stands s = true ∧ s.work.agenda = [])

/-- R70, R27, R108, R156: an operation whose one effect is a result either traps, or leaves every memory, register, row, core and module
register as it was until its result lands, and moves its sequencer on. -/
def Obligations.RegisterResultFrame : Prop := ∀ (f : SR) (g : SI) (h : VR) (k : VI) (i : Instr) (s t : State), i ∈ registerForms f g h k →
  Canonical s → Settled s → (s.seqOf s.cur.q).window = [] → exec i s = .next t →
  (∃ slot code, exec i s = traps s slot code) ∨ ResultOnly s t

/-- R156, R25, R91: a lane operation under a poisoned execution mask traps with poison-consumed, and one that names a row outside the
allotment with the allotment fault, which ranks above it. -/
def Obligations.LaneOperationTraps : Prop := ∀ (f : VR) (i : Instr) (s : State), Room s →
  i ∈ [.vaddF32 f, .vaddBf16 f, .vaddF16 f, .vsubF32 f, .vsubBf16 f, .vsubF16 f, .vmulF32 f, .vmulBf16 f, .vmulF16 f, .vfmaF32 f, .vfmaBf16 f, .vfmaF16 f,
    .vfmsF32 f, .vfmsBf16 f, .vfmsF16 f, .vminF32 f, .vminBf16 f, .vminF16 f, .vmaxF32 f, .vmaxBf16 f, .vmaxF16 f, .vclampF32 f, .vclampBf16 f, .vclampF16 f,
    .viaddI32 f, .viaddI16 f, .visubI32 f, .visubI16 f, .vand f, .vor f, .vxor f, .vfxadd f, .vfxsub f] →
  ((∃ r ∈ [f.d, f.a, f.b], inAllotment s s.cur.q r.toNat = false) → exec i s = traps s (atV s).slot 0x05) ∧
  (Allotted s [f.d.toNat, f.a.toNat, f.b.toNat] → ((atV s).mask s f.m.toNat 0).poison = true → exec i s = traps s (atV s).slot 0x07)

/-- R11: VFXADD and VFXSUB compute modulo 2^32, VFXSUB undoes VFXADD on any bit patterns, and WRAP records that the true result left the
FX32 range. -/
def Obligations.FixedPointReversal : Prop :=
  (∀ (f : VR) (s : State), Ready (atV s) f.m [f.d, f.a, f.b] s →
    let a := (atV s).row s f.a.toNat 32 1
    let b := (atV s).row s f.b.toNat 32 2
    let lanes := fun (g : Nat → Nat → Flagged) =>
      laneGives (atV s) s f.d f.m 32 2 (f.nf = 1) fun i => .of (a.lanePoison 32 i || b.lanePoison 32 i) (g (a.lane 32 i) (b.lane 32 i))
    exec (.vfxadd f) s = lanes (fxAdd false) ∧ exec (.vfxsub f) s = lanes (fxAdd true)) ∧
  (∀ h q, h < 2 ^ 32 → q < 2 ^ 32 →
    (fxAdd false h q).bits = (h + q) % 2 ^ 32 ∧ (fxAdd true h q).bits = (h + 2 ^ 32 - q) % 2 ^ 32 ∧
    (fxAdd true (fxAdd false h q).bits q).bits = h ∧
    (∀ sub, let t := if sub then signedOf 32 h - signedOf 32 q else signedOf 32 h + signedOf 32 q
      (fxAdd sub h q).flags = if -2 ^ 31 ≤ t ∧ t < 2 ^ 31 then 0 else flNX ||| flWRAP))

/-- R350: a HALT issued in a handler also ends the handler: the sequencer is IDLE with HND clear, in its frame's header too, and holds no pending
event. That order faults, a delivered fault and a held deadline fault are dropped with the handler is the model's reading (log 61). -/
def Obligations.HaltInHandler : Prop := ∀ (f : SX) (s : State), Canonical s → Settled s → Unpipelined s → (s.seqOf s.cur.q).hnd = true →
  ∃ t, exec (.halt f) s = .next t ∧ (t.seqOf s.cur.q).run = .idle ∧ (t.seqOf s.cur.q).hnd = false ∧ (t.seqOf s.cur.q).events = [] ∧
    (t.seqOf s.cur.q).orderFaults = [] ∧ (t.seqOf s.cur.q).delivered = [] ∧ (t.seqOf s.cur.q).deadline = false ∧
    (frameByte t s.cur.q 0x10).getLsbD 0 = false


/-- R69, R79 to R82, R86 to R89: words written out from the encoding tables decode to the operations they stand for; a word with a reserved
bit set is an illegal encoding, an unassigned opcode is undefined. -/
def Obligations.DecodedWords : Prop :=
  decodeSlot .s 0x18328000FF00 = .ok (.slih ⟨3, 10, 0, 0xFF00⟩) ∧ decodeSlot .s 0x316AEAFFFFFF = .ok (.brc ⟨6, 43, 42, 0xFFFFFF⟩) ∧
  decodeSlot .s 0x400002081000 = .ok (.syswr ⟨0, 0, 2, 0x081, 0⟩) ∧ decodeSlot .v 0x0A02028180E0 = .ok (.vfmaF32 ⟨0, 0, 2, 5, 6, 7, 0⟩) ∧
  decodeSlot .v 0x39100602C000 = .ok (.vcvtBf16F32 ⟨1, 0, 0, 12, 11, 0, 0⟩) ∧ decodeSlot .x 0x1100141400D3 = .ok (.mdrain ⟨20, 40, 3, 0, 1, 3⟩) ∧
  decodeSlot .m 0x04A141600000 = .ok (.ld64 ⟨5, 40, 11, 0⟩) ∧ decodeSlot .m 0x110079515597 = .ok (.cpygs ⟨30, 1, 20, 21, 22, 23⟩) ∧
  decodeSlot .m 0x2A1188000000 = .ok (.jemit ⟨1, 6, 8, 0⟩) ∧ decodeSlot .s 0x000000000001 = .error .illegalEncoding ∧
  decodeSlot .s 0x2B0000000000 = .error .undefinedOpcode
end

