-- ==== Sys2Proof/Laws/Map.lean ====
section
/-! SUPPORT. Sparse maps and byte memories: what a read gives after a write, and that every operation keeps the one canonical form. -/

namespace Sys2Proof.Machine.SMap

section Reads

variable {α : Type} {d : α} {m : SMap α} {a : Nat}

@[simp] theorem get_nil : get d [] a = d := rfl

theorem get_cons {e : Nat × α} : get d (e :: m) a = if a = e.1 then e.2 else get d m a := rfl

end Reads

variable {α : Type} [DecidableEq α] {d : α} {m l : SMap α} {a b lo hi k n : Nat} {v : α}

theorem wfFrom_cons {e : Nat × α} : wfFrom d lo (e :: m) = true ↔ lo ≤ e.1 ∧ e.2 ≠ d ∧ wfFrom d (e.1 + 1) m = true := by
  simp [wfFrom, and_assoc]

theorem wfFrom_mono (h : wfFrom d lo m = true) (hk : k ≤ lo) : wfFrom d k m = true := by
  cases m with
  | nil => rfl
  | cons e m => rw [wfFrom_cons] at h ⊢; exact ⟨hk.trans h.1, h.2⟩

/-- A canonical map reads as d below its keys. -/
theorem get_below (h : wfFrom d lo m = true) (ha : a < lo) : get d m a = d := by
  induction m generalizing lo with
  | nil => rfl
  | cons e m ih =>
    rw [wfFrom_cons] at h
    rw [get_cons, if_neg (by omega)]
    exact ih h.2.2 (by omega)

theorem get_set_other (h : b ≠ a) : get d (set d m a v) b = get d m b := by
  induction m with
  | nil => by_cases hv : v = d <;> simp [set, hv, get, h]
  | cons e m ih =>
    obtain ⟨k, w⟩ := e
    simp only [set]
    split
    · split <;> simp [get, h]
    · split
      · rename_i hk
        subst hk
        split <;> simp [get, h]
      · simp [get, ih]

theorem get_set_same (h : wfFrom d lo m = true) : get d (set d m a v) a = v := by
  induction m generalizing lo with
  | nil => by_cases hv : v = d <;> simp [set, hv, get]
  | cons e m ih =>
    obtain ⟨k, w⟩ := e
    rw [wfFrom_cons] at h
    simp only [set]
    split
    · split
      · rename_i hk hv
        rw [get_cons, if_neg (by simp; omega), hv]
        exact get_below h.2.2 (by simp; omega)
      · simp [get]
    · split
      · rename_i hk
        subst hk
        split
        · rename_i hv; rw [hv]; exact get_below h.2.2 (by simp)
        · simp [get]
      · rename_i hk; rw [get_cons, if_neg hk]; exact ih h.2.2

theorem wfFrom_set (h : wfFrom d lo m = true) (ha : lo ≤ a) : wfFrom d lo (set d m a v) = true := by
  induction m generalizing lo with
  | nil => by_cases hv : v = d <;> simp [set, hv, wfFrom, ha]
  | cons e m ih =>
    obtain ⟨k, w⟩ := e
    have h' := h
    rw [wfFrom_cons] at h
    simp only [set]
    split
    · split
      · exact h'
      · rename_i hk hv
        rw [wfFrom_cons]
        exact ⟨ha, hv, by rw [wfFrom_cons]; exact ⟨hk, h.2⟩⟩
    · split
      · rename_i hk
        split
        · exact wfFrom_mono h.2.2 (by simp; omega)
        · rename_i hv; rw [wfFrom_cons]; exact ⟨ha, hv, by subst hk; exact h.2.2⟩
      · rename_i hk hk'
        rw [wfFrom_cons]
        exact ⟨h.1, h.2.1, ih h.2.2 (by simp; omega)⟩

theorem wf_set (h : wf d m = true) : wf d (set d m a v) = true := wfFrom_set h (Nat.zero_le _)

theorem wfFrom_filter (p : Nat × α → Bool) (h : wfFrom d lo m = true) : wfFrom d lo (m.filter p) = true := by
  induction m generalizing lo with
  | nil => rfl
  | cons e m ih =>
    rw [wfFrom_cons] at h
    by_cases hp : p e = true
    · rw [List.filter_cons_of_pos hp, wfFrom_cons]; exact ⟨h.1, h.2.1, ih h.2.2⟩
    · rw [List.filter_cons_of_neg hp]; exact wfFrom_mono (ih h.2.2) (by omega)

theorem wf_clear (h : wf d m = true) : wf d (clear m a n) = true := wfFrom_filter _ h

theorem wf_putAll {l : List (Nat × α)} (h : wf d m = true) : wf d (putAll d m l) = true := by
  induction l generalizing m with
  | nil => exact h
  | cons e l ih => exact ih (wf_set h)

omit [DecidableEq α] in
theorem get_filter (p : Nat → Bool) : get d (m.filter (fun e => p e.1)) a = if p a then get d m a else d := by
  induction m with
  | nil => simp
  | cons e m ih =>
    by_cases he : p e.1 = true
    · rw [List.filter_cons_of_pos (by simpa using he), get_cons, get_cons, ih]
      by_cases ha : a = e.1
      · subst ha; simp [he]
      · simp [ha]
    · rw [List.filter_cons_of_neg (by simpa using he), ih, get_cons]
      by_cases ha : a = e.1
      · subst ha; simp [he]
      · simp [ha]

omit [DecidableEq α] in
theorem get_clear : get d (clear m a n) b = if a ≤ b ∧ b < a + n then d else get d m b := by
  have h := get_filter (d := d) (m := m) (a := b) (fun e => decide (e < a) || decide (a + n ≤ e))
  rw [show clear m a n = m.filter (fun e => decide (e.1 < a) || decide (a + n ≤ e.1)) from rfl, h]
  by_cases h1 : a ≤ b ∧ b < a + n
  · rw [if_pos h1, if_neg (by simp; omega)]
  · rw [if_neg h1, if_pos (by simp; omega)]

omit [DecidableEq α] in
/-- What a concatenation reads as. -/
theorem get_append : get d (l ++ m) a = if a ∈ l.map Prod.fst then get d l a else get d m a := by
  induction l with
  | nil => simp
  | cons e l ih =>
    rw [List.cons_append, get_cons, get_cons, ih]
    by_cases h : a = e.1
    · simp [h]
    · rw [if_neg h, List.map_cons]
      simp only [List.mem_cons, h, false_or, if_false]

/-- Two canonical maps, the second above the first. -/
theorem wfFrom_append (hl : wfFrom d lo l = true) (hb : ∀ e ∈ l, e.1 < hi) (hm : wfFrom d hi m = true) (h : lo ≤ hi) :
    wfFrom d lo (l ++ m) = true := by
  induction l generalizing lo with
  | nil => exact wfFrom_mono hm h
  | cons e l ih =>
    rw [wfFrom_cons] at hl
    rw [List.cons_append, wfFrom_cons]
    have := hb e (by simp)
    exact ⟨hl.1, hl.2.1, ih hl.2.2 (fun x hx => hb x (by simp [hx])) (by omega)⟩

/-- Raising the lower end by dropping the keys below it. -/
theorem wfFrom_above (h : wfFrom d lo m = true) : wfFrom d hi (m.filter (fun e => hi ≤ e.1)) = true := by
  induction m generalizing lo with
  | nil => rfl
  | cons e m ih =>
    rw [wfFrom_cons] at h
    by_cases hp : hi ≤ e.1
    · rw [List.filter_cons_of_pos (by simpa using hp), wfFrom_cons]
      exact ⟨hp, h.2.1, wfFrom_filter _ h.2.2⟩
    · rw [List.filter_cons_of_neg (by simpa using hp)]; exact ih h.2.2

/-- Every key shifted downward by k. -/
theorem wfFrom_unshift (h : wfFrom d (lo + k) m = true) : wfFrom d lo (m.map (fun e => (e.1 - k, e.2))) = true := by
  induction m generalizing lo with
  | nil => rfl
  | cons e m ih =>
    rw [wfFrom_cons] at h
    rw [List.map_cons, wfFrom_cons]
    refine ⟨by simp; omega, h.2.1, ih (wfFrom_mono h.2.2 (by simp; omega))⟩

end Sys2Proof.Machine.SMap

namespace Sys2Proof.Machine

section Parts

variable {α : Type} [DecidableEq α] {d : α} {m p : SMap α} {c w : Nat}

/-- A core's part of a canonical map is canonical. -/
theorem getPart_wf (h : SMap.wf d m = true) : SMap.wf d (State.getPart m c w) = true := by
  have h1 := SMap.wfFrom_filter (fun e => decide (e.1 < c * w + w)) (SMap.wfFrom_above (hi := c * w) h)
  rw [List.filter_filter] at h1
  rw [SMap.wf, State.getPart]
  refine SMap.wfFrom_unshift (k := c * w) ?_
  rw [Nat.zero_add]
  convert h1 using 4
  exact Bool.and_comm _ _

/-- A canonical map with anything put in place of a core's own part is canonical. -/
theorem putPart_wf (h : SMap.wf d m = true) : SMap.wf d (putPart d m c w p) = true := SMap.wf_putAll (SMap.wf_clear h)

end Parts

namespace Memory

variable {m : Memory} {a b n : Nat} {bs : List Byte}

theorem cells_wf : SMap.wfFrom (0 : Byte) a (cells a bs) = true := by
  induction bs generalizing a with
  | nil => rfl
  | cons x bs ih =>
    rw [cells]
    split
    · exact SMap.wfFrom_mono ih (by omega)
    · rename_i hx; rw [SMap.wfFrom_cons]; exact ⟨Nat.le_refl _, hx, ih⟩

theorem cells_range {e : Host.Cell} (h : e ∈ cells a bs) : a ≤ e.1 ∧ e.1 < a + bs.length := by
  induction bs generalizing a with
  | nil => simp [cells] at h
  | cons x bs ih =>
    rw [cells] at h
    rw [List.length_cons]
    split at h
    · have := ih h; omega
    · rcases List.mem_cons.mp h with rfl | h
      · simp
      · have := ih h; omega

/-- Writing bytes keeps the canonical form. -/
theorem write_wf (h : wf m = true) : wf (write m a bs) = true := by
  have h1 : SMap.wfFrom (0 : Byte) (a + bs.length) (m.filter (fun e => a + bs.length ≤ e.1)) = true := SMap.wfFrom_above h
  rw [wf, write, List.append_assoc]
  refine SMap.wfFrom_append (hi := a) (SMap.wfFrom_filter _ h) ?_ ?_ (Nat.zero_le _)
  · intro e he; simpa using (List.mem_filter.mp he).2
  · exact SMap.wfFrom_append cells_wf (fun e he => (cells_range he).2) h1 (by omega)

theorem get_cells : SMap.get (0 : Byte) (cells a bs) b = if a ≤ b ∧ b < a + bs.length then bs.getD (b - a) 0 else 0 := by
  induction bs generalizing a with
  | nil => simp [cells]
  | cons x bs ih =>
    rw [cells]
    by_cases hb : b = a
    · subst hb
      split
      · rename_i hx
        rw [ih, if_neg (by omega)]
        simp [hx]
      · simp [SMap.get]
    · have hstep : SMap.get (0 : Byte) (cells (a + 1) bs) b = if a ≤ b ∧ b < a + (x :: bs).length then (x :: bs).getD (b - a) 0 else 0 := by
        rw [ih, List.length_cons]
        by_cases h : a + 1 ≤ b ∧ b < a + 1 + bs.length
        · rw [if_pos h, if_pos (by omega), show b - a = b - (a + 1) + 1 by omega, List.getD_cons_succ]
        · rw [if_neg h, if_neg (by omega)]
      split
      · exact hstep
      · rw [SMap.get_cons, if_neg hb]; exact hstep

/-- A read after a write: the bytes written, and everywhere else what was there. -/
theorem read_write : read (write m a bs) b = if a ≤ b ∧ b < a + bs.length then bs.getD (b - a) 0 else read m b := by
  have lower : ∀ l : SMap Byte, b ∈ (l.filter (fun e => decide (e.1 < a))).map Prod.fst → b < a := by
    intro l h
    simp only [List.mem_map, List.mem_filter, decide_eq_true_eq] at h
    obtain ⟨e, ⟨-, he⟩, rfl⟩ := h
    exact he
  have low : SMap.get (0 : Byte) (m.filter (fun e => decide (e.1 < a))) b = if b < a then SMap.get 0 m b else 0 := by
    have := SMap.get_filter (d := (0 : Byte)) (m := m) (a := b) (fun k => decide (k < a))
    simpa using this
  have high : SMap.get (0 : Byte) (m.filter (fun e => decide (a + bs.length ≤ e.1))) b = if a + bs.length ≤ b then SMap.get 0 m b else 0 := by
    have := SMap.get_filter (d := (0 : Byte)) (m := m) (a := b) (fun k => decide (a + bs.length ≤ k))
    simpa using this
  have found : ∀ l : SMap Byte, b ∉ l.map Prod.fst → SMap.get (0 : Byte) l b = 0 := by
    intro l h
    have := SMap.get_append (d := (0 : Byte)) (l := l) (m := []) (a := b)
    rw [if_neg h, List.append_nil] at this
    simpa using this
  rw [read, read, write, List.append_assoc, SMap.get_append, SMap.get_append, get_cells, low, high]
  by_cases h1 : b < a
  · have h0 : ¬(a ≤ b ∧ b < a + bs.length) := by omega
    have h2 : ¬ a + bs.length ≤ b := by omega
    simp only [h0, h1, h2, if_true, if_false, ite_self]
    split
    · rfl
    · rename_i h3
      have h4 := found _ h3
      rw [low, if_pos h1] at h4
      exact h4.symm
  · rw [if_neg (fun h => h1 (lower m h))]
    by_cases h2 : a ≤ b ∧ b < a + bs.length
    · have h0 : ¬ a + bs.length ≤ b := by omega
      simp only [h2, h0, and_self, if_true, if_false]
      split
      · rfl
      · rename_i h3
        have h4 := found _ h3
        rw [get_cells, if_pos h2] at h4
        exact h4.symm
    · have h0 : a + bs.length ≤ b := by omega
      simp only [h2, h0, if_true, if_false]
      split
      · rename_i h3
        obtain ⟨e, he, rfl⟩ := List.mem_map.mp h3
        exact absurd (cells_range he) h2
      · rfl

/-- A read of a byte outside the bytes written gives what was there. -/
theorem read_write_other (h : b < a ∨ a + bs.length ≤ b) : read (write m a bs) b = read m b := by
  rw [read_write, if_neg (by omega)]

theorem readBytes_length : (readBytes m a n).length = n := by
  induction n generalizing a with
  | zero => rfl
  | succ n ih => rw [readBytes, List.length_cons, ih]

/-- Reading back the bytes just written gives them. -/
theorem readBytes_write : readBytes (write m a bs) a bs.length = bs := by
  have h : ∀ k, ∀ i, i + k = bs.length → readBytes (write m a bs) (a + i) k = bs.drop i := by
    intro k
    induction k with
    | zero => intro i hi; simp [readBytes, ← hi]
    | succ k ih =>
      intro i hi
      rw [readBytes, show a + i + 1 = a + (i + 1) by omega, ih (i + 1) (by omega), read_write, if_pos (by omega)]
      have : i < bs.length := by omega
      rw [show a + i - a = i by omega, List.getD_eq_getElem _ _ this, List.getElem_cons_drop]
  simpa using h bs.length 0 (by omega)

end Memory

end Sys2Proof.Machine
end

