-- ==== Sys2Proof/Laws/State.lean ====
section
/-! SUPPORT. What each micro-operation changes of the state, one equation for each, and what the accessors read after it. -/

namespace Sys2Proof.Machine

variable {s : State} {q r c n i k a u m : Nat} {h : Home}

/-! Lists of micro-operations. -/

@[simp] theorem applyActs_nil : applyActs [] s = s := rfl
@[simp] theorem applyActs_cons {x : Act} {l : List Act} : applyActs (x :: l) s = applyActs l (applyAct x s) := rfl

theorem applyActs_append {l k : List Act} : applyActs (l ++ k) s = applyActs k (applyActs l s) := by
  induction l generalizing s with
  | nil => rfl
  | cons x l ih => exact ih

theorem done_eq {l : List Act} : done l s = .next (applyActs l s) := rfl

/-! Each micro-operation. -/

theorem applyAct_scalar {v : SReg} : applyAct (.scalar q r v) s = if r = 0 then s else { s with scalars := SMap.set {} s.scalars (64 * q + r) v } := rfl
theorem applyAct_mask {v : MReg} : applyAct (.mask q r v) s = if r = 0 then s else { s with masks := SMap.set {} s.masks (16 * q + r) v } := rfl
@[simp] theorem applyAct_glint {v : SReg} : applyAct (.glint q r v) s = { s with glints := SMap.set {} s.glints (4 * q + r) v } := rfl
@[simp] theorem applyAct_lanes {v : MaskBits} : applyAct (.lanes q k v) s = { s with laneFlags := SMap.set 0 s.laneFlags (24 * q + k) v } := rfl
@[simp] theorem applyAct_row {w : RowWrite} :
    applyAct (.row c n w) s = { s with rows := SMap.set {} s.rows (512 * c + n) ((s.rowOf c n).apply w) } := rfl
@[simp] theorem applyAct_mp {v : Word} : applyAct (.mp c i v) s = { s with mps := SMap.set 0 s.mps (8 * c + i) v } := rfl
@[simp] theorem applyAct_th {v : BitVec 128} : applyAct (.th c i v) s = { s with ths := SMap.set 0 s.ths (64 * c + i) v } := rfl
theorem applyAct_write {bs : List Byte} {ps : List Bool} : applyAct (.write h a bs ps) s =
    s.setMem h (Memory.write (s.mem h) (h.key a) bs) (poisonUnits (s.marks h) (h.key a) ps (unitCount (h.key a) ps.length)) := rfl
@[simp] theorem applyAct_tag {v : BitVec 16} : applyAct (.tag c k v) s = { s with tags := SMap.set 0 s.tags (1024 * c + k) v } := rfl
@[simp] theorem applyAct_dict {v : BundleWord} : applyAct (.dict c n v) s = { s with dict := SMap.set 0 s.dict (4096 * c + n) v } := rfl
@[simp] theorem applyAct_ucode {v : Word} : applyAct (.ucode c n v) s = { s with ucode := SMap.set 0 s.ucode (4096 * c + n) v } := rfl
@[simp] theorem applyAct_routine {v : Word} : applyAct (.routine c n v) s = { s with routines := SMap.set 0 s.routines (256 * c + n) v } := rfl
@[simp] theorem applyAct_cht {v : BitVec 128} : applyAct (.cht c n v) s = { s with cht := SMap.set 0 s.cht (256 * c + n) v } := rfl
@[simp] theorem applyAct_ptt {v : PttEntry} : applyAct (.ptt c n v) s = { s with ptt := SMap.set {} s.ptt (1024 * c + n) v } := rfl
@[simp] theorem applyAct_stage {v : Staged} : applyAct (.stage k v) s = { s with staging := SMap.set {} s.staging k v } := rfl
@[simp] theorem applyAct_seq {f : Seq → Seq} : applyAct (.seq q f) s = { s with seqs := SMap.set {} s.seqs q (f (s.seqOf q)) } := rfl
@[simp] theorem applyAct_core {f : Core → Core} : applyAct (.core c f) s = { s with cores := SMap.set {} s.cores c (f (s.coreOf c)) } := rfl
@[simp] theorem applyAct_work {f : Work → Work} : applyAct (.work f) s = { s with work := f s.work } := rfl
@[simp] theorem applyAct_chip {f : Chip → Chip} : applyAct (.chip f) s = { s with chip := f s.chip } := rfl
@[simp] theorem applyAct_phase {p : Phase} : applyAct (.phase p) s = { s with phase := p } := rfl
@[simp] theorem applyAct_cursor : applyAct (.cursor q n) s = { s with cur := ⟨q, n⟩ } := rfl
@[simp] theorem applyAct_tick : applyAct .tick s = { s with cyc := s.cyc + 1, gtime := s.gtime + 1 } := rfl
@[simp] theorem applyAct_bump : applyAct bump s = { s with work := { s.work with free := s.work.free + 65536 } } := rfl

/-! setMem changes the memory of one kind of home. -/

section SetMem

variable {p : Memory} {ps : SMap UnitMark}

@[simp] theorem setMem_cyc : (s.setMem h p ps).cyc = s.cyc := by cases h <;> rfl
@[simp] theorem setMem_gtime : (s.setMem h p ps).gtime = s.gtime := by cases h <;> rfl
@[simp] theorem setMem_phase : (s.setMem h p ps).phase = s.phase := by cases h <;> rfl
@[simp] theorem setMem_cur : (s.setMem h p ps).cur = s.cur := by cases h <;> rfl
@[simp] theorem setMem_seqs : (s.setMem h p ps).seqs = s.seqs := by cases h <;> rfl
@[simp] theorem setMem_scalars : (s.setMem h p ps).scalars = s.scalars := by cases h <;> rfl
@[simp] theorem setMem_masks : (s.setMem h p ps).masks = s.masks := by cases h <;> rfl
@[simp] theorem setMem_glints : (s.setMem h p ps).glints = s.glints := by cases h <;> rfl
@[simp] theorem setMem_laneFlags : (s.setMem h p ps).laneFlags = s.laneFlags := by cases h <;> rfl
@[simp] theorem setMem_cores : (s.setMem h p ps).cores = s.cores := by cases h <;> rfl
@[simp] theorem setMem_rows : (s.setMem h p ps).rows = s.rows := by cases h <;> rfl
@[simp] theorem setMem_mps : (s.setMem h p ps).mps = s.mps := by cases h <;> rfl
@[simp] theorem setMem_ths : (s.setMem h p ps).ths = s.ths := by cases h <;> rfl
@[simp] theorem setMem_tags : (s.setMem h p ps).tags = s.tags := by cases h <;> rfl
@[simp] theorem setMem_dict : (s.setMem h p ps).dict = s.dict := by cases h <;> rfl
@[simp] theorem setMem_ucode : (s.setMem h p ps).ucode = s.ucode := by cases h <;> rfl
@[simp] theorem setMem_routines : (s.setMem h p ps).routines = s.routines := by cases h <;> rfl
@[simp] theorem setMem_cht : (s.setMem h p ps).cht = s.cht := by cases h <;> rfl
@[simp] theorem setMem_ptt : (s.setMem h p ps).ptt = s.ptt := by cases h <;> rfl
@[simp] theorem setMem_staging : (s.setMem h p ps).staging = s.staging := by cases h <;> rfl
@[simp] theorem setMem_saved : (s.setMem h p ps).saved = s.saved := by cases h <;> rfl
@[simp] theorem setMem_kernels : (s.setMem h p ps).kernels = s.kernels := by cases h <;> rfl
@[simp] theorem setMem_work : (s.setMem h p ps).work = s.work := by cases h <;> rfl
@[simp] theorem setMem_chip : (s.setMem h p ps).chip = s.chip := by cases h <;> rfl
@[simp] theorem setMem_mem : (s.setMem h p ps).mem h = p := by cases h <;> rfl

theorem setMem_mem_other {g : Home} (hk : g.kind ≠ h.kind) : (s.setMem h p ps).mem g = s.mem g := by
  cases h <;> cases g <;> first | rfl | exact absurd rfl hk

theorem mem_same_kind {g : Home} (hk : g.kind = h.kind) : (s.setMem h p ps).mem g = p := by
  cases h <;> cases g <;> first | rfl | exact absurd hk (by simp [Home.kind])

end SetMem

/-! What the accessors read after a change. -/

theorem seqOf_seq_same {f : Seq → Seq} (hs : SMap.wf {} s.seqs = true) : (applyAct (.seq q f) s).seqOf q = f (s.seqOf q) :=
  SMap.get_set_same hs

theorem seqOf_seq_other {f : Seq → Seq} (hr : r ≠ q) : (applyAct (.seq q f) s).seqOf r = s.seqOf r := SMap.get_set_other hr

theorem coreOf_core_same {f : Core → Core} (hs : SMap.wf {} s.cores = true) : (applyAct (.core c f) s).coreOf c = f (s.coreOf c) :=
  SMap.get_set_same hs

theorem coreOf_core_other {f : Core → Core} (hr : r ≠ c) : (applyAct (.core c f) s).coreOf r = s.coreOf r := SMap.get_set_other hr

theorem rowOf_row_same {w : RowWrite} (hs : SMap.wf {} s.rows = true) : (applyAct (.row c n w) s).rowOf c n = (s.rowOf c n).apply w :=
  SMap.get_set_same hs

theorem rowOf_row_other {w : RowWrite} (hr : 512 * r + m ≠ 512 * c + n) : (applyAct (.row c n w) s).rowOf r m = s.rowOf r m :=
  SMap.get_set_other hr

/-- A byte read after bytes are written to a home of the same kind, by their keys. -/
theorem readByte_write {bs : List Byte} {ps : List Bool} {g : Home} {b : Nat} (hk : g.kind = h.kind) :
    (applyAct (.write h a bs ps) s).readByte g b =
      if h.key a ≤ g.key b ∧ g.key b < h.key a + bs.length then bs.getD (g.key b - h.key a) 0 else s.readByte g b := by
  rw [State.readByte, applyAct_write, mem_same_kind hk, Memory.read_write, State.readByte]
  congr 2
  cases h <;> cases g <;> first | rfl | exact absurd hk (by simp [Home.kind])

/-- A byte of a home of another kind is untouched by a write. -/
theorem readByte_write_other {bs : List Byte} {ps : List Bool} {g : Home} {b : Nat} (hk : g.kind ≠ h.kind) :
    (applyAct (.write h a bs ps) s).readByte g b = s.readByte g b := by
  rw [State.readByte, applyAct_write, setMem_mem_other hk, State.readByte]

/-- s0 reads as zero, m0 as all ones (R19). -/
@[simp] theorem readScalar_zero : s.readScalar q 0 k = {} := rfl
@[simp] theorem readMask_zero : s.readMask q 0 k = ⟨BitVec.allOnes 1024, false⟩ := rfl

end Sys2Proof.Machine
end

