-- ==== Sys2Proof/Laws/Canonical.lean ====
section
/-! SUPPORT. Every micro-operation keeps the canonical form of every memory and register file. -/

namespace Sys2Proof.Machine

variable {s : State}

/-- Marking units as bytes are written keeps the canonical form. -/
theorem poisonUnits_wf {p : SMap UnitMark} {a : Nat} {ps : List Bool} (h : SMap.wf .clear p = true) (n : Nat) :
    SMap.wf .clear (poisonUnits p a ps n) = true := by
  induction n with
  | zero => exact h
  | succ n ih =>
    rw [poisonUnits]
    split
    · exact SMap.wf_set ih
    · split
      · exact SMap.wf_set ih
      · exact ih

/-- Reset has the canonical form. -/
theorem reset_canonical : Canonical State.reset := by constructor <;> rfl

theorem mem_wf (h : Canonical s) (g : Home) : Memory.wf (s.mem g) = true := by
  cases g <;> simp only [State.mem, h.spd, h.bos, h.sye, h.hbm, h.host]

theorem marks_wf (h : Canonical s) (g : Home) : SMap.wf .clear (s.marks g) = true := by
  cases g with
  | host => rfl
  | _ => simp only [State.marks, h.spdPoison, h.bosPoison, h.syePoison, h.hbmPoison]

theorem setMem_canonical (h : Canonical s) {g : Home} {m : Memory} {p : SMap UnitMark} (hm : Memory.wf m = true) (hp : SMap.wf .clear p = true) :
    Canonical (s.setMem g m p) := by
  cases g
  · exact { h with spd := hm, spdPoison := hp }
  · exact { h with bos := hm, bosPoison := hp }
  · exact { h with sye := hm, syePoison := hp }
  · exact { h with hbm := hm, hbmPoison := hp }
  · exact { h with host := hm }

theorem foldl_set_wf {α β : Type} [DecidableEq α] {d : α} (l : List β) (k : β → Nat) (f : β → α) {m : SMap α} (h : SMap.wf d m = true) :
    SMap.wf d (l.foldl (fun m i => SMap.set d m (k i) (f i)) m) = true := by
  induction l generalizing m with
  | nil => exact h
  | cons x l ih => exact ih (SMap.wf_set h)

theorem putCore_canonical (h : Canonical s) {c : Nat} {v : SavedCore} : Canonical (s.putCore c v) where
  seqs := foldl_set_wf _ _ _ h.seqs
  scalars := putPart_wf h.scalars
  masks := putPart_wf h.masks
  glints := putPart_wf h.glints
  laneFlags := putPart_wf h.laneFlags
  cores := SMap.wf_set h.cores
  rows := putPart_wf h.rows
  mps := putPart_wf h.mps
  ths := putPart_wf h.ths
  spd := putPart_wf h.spd
  spdPoison := putPart_wf h.spdPoison
  tags := putPart_wf h.tags
  bos := putPart_wf h.bos
  bosPoison := putPart_wf h.bosPoison
  dict := putPart_wf h.dict
  ucode := putPart_wf h.ucode
  routines := putPart_wf h.routines
  cht := putPart_wf h.cht
  ptt := putPart_wf h.ptt
  staging := putPart_wf h.staging
  sye := h.sye
  syePoison := h.syePoison
  hbm := h.hbm
  hbmPoison := h.hbmPoison
  host := h.host

/-- Every micro-operation keeps the canonical form. -/
theorem applyAct_canonical (h : Canonical s) (x : Act) : Canonical (applyAct x s) := by
  cases x with
  | scalar q r v =>
    rw [applyAct_scalar]
    split
    · exact h
    · exact { h with scalars := SMap.wf_set h.scalars }
  | mask q r v =>
    rw [applyAct_mask]
    split
    · exact h
    · exact { h with masks := SMap.wf_set h.masks }
  | glint q r v => exact { h with glints := SMap.wf_set h.glints }
  | lanes q k v => exact { h with laneFlags := SMap.wf_set h.laneFlags }
  | row c n w => exact { h with rows := SMap.wf_set h.rows }
  | flipRow c n f => exact { h with rows := SMap.wf_set h.rows }
  | mp c i v => exact { h with mps := SMap.wf_set h.mps }
  | th c i v => exact { h with ths := SMap.wf_set h.ths }
  | write g a bs ps => exact setMem_canonical h (Memory.write_wf (mem_wf h g)) (poisonUnits_wf (marks_wf h g) _)
  | mark g u p => exact setMem_canonical h (mem_wf h g) (SMap.wf_set (marks_wf h g))
  | wipe g a n => exact setMem_canonical h (SMap.wf_clear (mem_wf h g)) (SMap.wf_clear (marks_wf h g))
  | record c off f => exact setMem_canonical (g := .spd c) h (Memory.write_wf (mem_wf h (.spd c))) (marks_wf h (.spd c))
  | tag c b v => exact { h with tags := SMap.wf_set h.tags }
  | dict c n v => exact { h with dict := SMap.wf_set h.dict }
  | ucode c n v => exact { h with ucode := SMap.wf_set h.ucode }
  | routine c n v => exact { h with routines := SMap.wf_set h.routines }
  | cht c n v => exact { h with cht := SMap.wf_set h.cht }
  | ptt c n v => exact { h with ptt := SMap.wf_set h.ptt }
  | stage k v => exact { h with staging := SMap.wf_set h.staging }
  | seq q f => exact { h with seqs := SMap.wf_set h.seqs }
  | core c f => exact { h with cores := SMap.wf_set h.cores }
  | work f => exact { h with }
  | chip f => exact { h with }
  | clearSeq q =>
    exact { h with
      scalars := SMap.wf_clear h.scalars, masks := SMap.wf_clear h.masks, glints := SMap.wf_clear h.glints
      laneFlags := SMap.wf_clear h.laneFlags }
  | clearCore c =>
    exact { h with
      rows := SMap.wf_clear h.rows, mps := SMap.wf_clear h.mps, ths := SMap.wf_clear h.ths, spd := SMap.wf_clear h.spd
      spdPoison := SMap.wf_clear h.spdPoison, tags := SMap.wf_clear h.tags, bos := SMap.wf_clear h.bos
      bosPoison := SMap.wf_clear h.bosPoison, dict := SMap.wf_clear h.dict, ucode := SMap.wf_clear h.ucode
      routines := SMap.wf_clear h.routines, cht := SMap.wf_clear h.cht, ptt := SMap.wf_clear h.ptt, staging := SMap.wf_clear h.staging }
  | save c k => exact { h with }
  | restore c k =>
    rw [applyAct]
    split
    · exact { putCore_canonical h with }
    · exact h
  | forget k => exact { h with }
  | stow k v => exact { h with }
  | unload =>
    exact { reset_canonical with
      hbm := h.hbm, hbmPoison := h.hbmPoison, host := h.host, sye := rfl, seqs := rfl, cores := rfl }
  | phase p => exact { h with }
  | cursor q n => exact { h with }
  | tick => exact { h with }
  | gtime n => exact { h with }

/-- A list of micro-operations keeps the canonical form. -/
theorem applyActs_canonical (h : Canonical s) (l : List Act) : Canonical (applyActs l s) := by
  induction l generalizing s with
  | nil => exact h
  | cons x l ih => exact ih (applyAct_canonical h x)

end Sys2Proof.Machine
end

