-- ==== Sys2Proof/Laws/Exec.lean ====
section
/-! SUPPORT. Every meaning answers a next state, reached by micro-operations. -/

namespace Sys2Proof.Machine

/-- Every instruction is a list of micro-operations: exec never faults and never refuses. -/
theorem exec_next (i : Instr) (s : State) : ∃ l, exec i s = .next (applyActs l s) := by
  cases i <;> exact ⟨_, rfl⟩

end Sys2Proof.Machine
end

