-- ==== Sys2Proof/Laws/Slot.lean ====
section
/-! SUPPORT. A slot operation that stands alone: when it issues, and the state it leaves. -/

namespace Sys2Proof.Machine

variable {c : SlotClass} {op n k : Nat} {o : Op} {s : State}

theorem slotFor_lt : slotFor c op n < 8 := by
  unfold slotFor
  split
  · decide
  · split
    · rename_i h; simp at h; exact h.1
    · cases c <;> decide

theorem loneSlot_getD : (loneSlot c op o n).getD k {} =
    if k < 8 then (if k = n then { enc := some ⟨c, BitVec.ofNat 8 op, 0, 0, 0, true⟩, op := o, last := o } else {}) else {} := by
  unfold loneSlot
  rw [List.getD_eq_getElem?_getD, List.getElem?_map]
  by_cases hk : k < 8
  · rw [List.getElem?_range hk, if_pos hk]; rfl
  · rw [List.getElem?_eq_none (by simpa using hk), if_neg hk]; rfl

/-- The operation of slot k of an operation alone in slot n. -/
theorem loneSlot_op (hn : n < 8) : ((loneSlot c op o n).getD k {}).op = if k = n then o else {} := by
  rw [loneSlot_getD]
  split
  · split <;> rfl
  · rw [if_neg (by omega)]

theorem loneSlot_last (hn : n < 8) : ((loneSlot c op o n).getD k {}).last = if k = n then o else {} := by
  rw [loneSlot_getD]
  split
  · split <;> rfl
  · rw [if_neg (by omega)]

theorem slotCtx_lone {q addr size : Nat} (hn : n < 8) :
    slotCtx q addr size (loneSlot c op o n) n = { q := q, slot := n, addr := addr, size := size } := by
  unfold slotCtx
  congr 1
  split
  · rename_i h; subst h; rfl
  · rfl

theorem targets_none (k : Nat) : ({} : Rep).targets k = false := by simp [Rep.targets]

theorem conflictSlot_lone (hn : n < 8) : conflictSlot {} (loneSlot c op o n) = none := by
  rw [conflictSlot, List.find?_eq_none]
  intro a _
  simp only [repeatsConflict, targets_none, slotsConflict, loneSlot_op hn, Bool.false_and, Bool.false_or, List.any_eq_true, Bool.and_eq_true,
    Bool.or_eq_true, decide_eq_true_eq, not_exists, not_and]
  intro b _ hab
  by_cases ha : a = n
  · rw [if_neg (by omega : ¬ b = n)]
    simp
  · rw [if_neg ha]
    simp

theorem allotmentSlot_lone {q addr size : Nat} (hn : n < 8)
    (h : ∀ v ∈ o.rows { q := q, slot := n, addr := addr, size := size } s, inAllotment s q v = true) :
    allotmentSlot s q addr size {} (loneSlot c op o n) = none := by
  rw [allotmentSlot, List.find?_eq_none]
  intro a _
  simp only [targets_none, Bool.false_and, Bool.false_or, loneSlot_op hn, loneSlot_last hn]
  by_cases ha : a = n
  · subst ha
    rw [slotCtx_lone hn]
    simp only [if_true]
    intro hx
    rw [List.any_eq_true] at hx
    obtain ⟨v, hv, hb⟩ := hx
    rw [List.mem_append] at hv
    have := h v (by rcases hv with hv | hv <;> exact hv)
    simp [this] at hb
  · simp [ha]

/-- The results that slots up to and with slot n count (R18). -/
theorem sum_nres_lone (hn : n < 8) : (((loneSlot c op o n).take (n + 1)).map (fun e => e.op.nres)).sum = o.nres := by
  unfold loneSlot
  interval_cases n <;> simp [List.range_succ]

theorem limitSlot_lone {q : Nat} (hn : n < 8) (h : o.nres = 0 ∨ inFlightCount s q + o.nres ≤ Config.inFlightLimit) :
    limitSlot s q (loneSlot c op o n) = none := by
  rw [limitSlot, List.find?_eq_none]
  intro a _
  rw [loneSlot_op hn]
  by_cases ha : a = n
  · subst ha
    rw [sum_nres_lone hn]
    simp
    omega
  · simp [ha]

/-- No precise cause in an operation alone (R91 item 5). -/
theorem slotCause_lone {q addr size : Nat} (hn : n < 8)
    (hc : o.cause { q := q, slot := n, addr := addr, size := size } s = none)
    (hp : ((passOf (s.seqOf q)).isSome && looppIllegal (some ⟨c, BitVec.ofNat 8 op, 0, 0, 0, true⟩)) = false)
    (ht : targetBad s (q / 4) (o.next { q := q, slot := n, addr := addr, size := size } s) = false)
    (he : escapes (s.seqOf q) (o.next { q := q, slot := n, addr := addr, size := size } s) = false)
    (k : Nat) (hk : k < 8) : slotCause s q addr size none (loneSlot c op o n) k = none := by
  rw [slotCause]
  simp only [loneSlot_getD, hk, if_true]
  by_cases ha : k = n
  · subst ha
    simp only [if_true, slotCtx_lone hn, hc, hp, ht, he]
    rfl
  · simp only [ha, if_false]
    have : looppIllegal ({} : Issue).enc = false := rfl
    simp [this, minCause, lowestCause, targetBad, Next.target, escapes]

theorem issueFault_lone {q addr size : Nat} (hn : n < 8)
    (hr : ∀ v ∈ o.rows { q := q, slot := n, addr := addr, size := size } s, inAllotment s q v = true)
    (hl : o.nres = 0 ∨ inFlightCount s q + o.nres ≤ Config.inFlightLimit)
    (hc : ∀ k, k < 8 → slotCause s q addr size none (loneSlot c op o n) k = none) :
    issueFault s q addr size {} (loneSlot c op o n) = none := by
  have h1 : repRefused {} (fun n_1 => ((loneSlot c op o n).getD n_1 {}).enc) = false := by
    rw [repRefused, List.any_eq_false]; intro k _; simp [targets_none]
  rw [issueFault, h1, conflictSlot_lone hn, allotmentSlot_lone hn hr, limitSlot_lone hn hl]
  simp only [Bool.false_eq_true, if_false]
  rw [List.findSome?_eq_none_iff]
  intro k hk
  rw [hc k (by simpa using hk)]
  rfl

/-- Where no row of the core holds a flipped bit, the reads of a bundle correct none (R359). -/
theorem rowFlips_none {q addr size : Nat} {l : List Issue} (h : ∀ n, (s.rowOf (q / 4) n).flip = 0) : rowFlips s q addr size l = [] := by
  simp [rowFlips, rowChecks, h]

theorem slotActs_lone {q addr size : Nat} (hn : n < 8) (hf : ∀ n, (s.rowOf (q / 4) n).flip = 0) :
    slotActs s q addr size (loneSlot c op o n) = o.acts { q := q, slot := n, addr := addr, size := size } s := by
  have hx := slotCtx_lone (c := c) (op := op) (o := o) (q := q) (addr := addr) (size := size) hn
  unfold slotActs
  rw [rowFlips_none hf]
  simp only [loneSlot_op hn]
  rw [← hx]
  by_cases hl : o.isLoad
  · interval_cases n <;> simp [hl, leavesOwn] <;> rfl
  · interval_cases n <;> simp [hl, leavesOwn] <;> rfl

theorem nextOf_lone {q addr size : Nat} (hn : n < 8)
    (h : n = 1 ∨ n = 6 ∨ n = 7 ∨ o.next { q := q, slot := n, addr := addr, size := size } s = .seq) :
    nextOf s q addr size (loneSlot c op o n) = o.next { q := q, slot := n, addr := addr, size := size } s := by
  have hx := slotCtx_lone (c := c) (op := op) (o := o) (q := q) (addr := addr) (size := size) hn
  unfold nextOf
  simp only [loneSlot_op hn, List.map_cons, List.map_nil, List.find?_cons, List.find?_nil]
  by_cases hs : o.next { q := q, slot := n, addr := addr, size := size } s = .seq
  · rw [hs]
    rcases (show n = 1 ∨ n = 6 ∨ n = 7 ∨ (n ≠ 1 ∧ n ≠ 6 ∧ n ≠ 7) by omega) with rfl | rfl | rfl | ⟨h1, h6, h7⟩
    · simp [hx, hs]
    · simp [hx, hs]
    · simp [hx, hs]
    · simp [Ne.symm h1, Ne.symm h6, Ne.symm h7]
  · rcases h with rfl | rfl | rfl | h
    · simp [hx, hs]
    · simp [hx, hs]
    · simp [hx, hs]
    · exact absurd h hs

/-- A slot operation that stands alone and meets no fault takes its effect, and the sequencer moves on to the bundle that follows. -/
theorem runSlot_next (hs : Settled s) (hr : Allotted s (o.rows (standing c op s) s)) (hc : o.cause (standing c op s) s = none)
    (hp : ((passOf (s.seqOf s.cur.q)).isSome && looppIllegal (some ⟨c, BitVec.ofNat 8 op, 0, 0, 0, true⟩)) = false)
    (ht : targetBad s (s.cur.q / 4) (o.next (standing c op s) s) = false)
    (he : escapes (s.seqOf s.cur.q) (o.next (standing c op s) s) = false)
    (hl : o.nres = 0 ∨ inFlightCount s s.cur.q + o.nres ≤ Config.inFlightLimit)
    (hn : slotFor c op s.cur.slot = 1 ∨ slotFor c op s.cur.slot = 6 ∨ slotFor c op s.cur.slot = 7 ∨ o.next (standing c op s) s = .seq) :
    runSlot c op o s = .next (issued (standing c op s) (o.next (standing c op s) s) (o.acts (standing c op s) s) s) := by
  have hlt : slotFor c op s.cur.slot < 8 := slotFor_lt
  have ha : armLatches s s.cur.q = [] := by
    rw [armLatches]
    have : (s.seqOf s.cur.q).rearm = false := hs.1
    rw [this]; rfl
  have hf := issueFault_lone (c := c) (op := op) (o := o) (s := s) (q := s.cur.q) (addr := (s.seqOf s.cur.q).pc) (size := sizeAt s s.cur.q) hlt hr hl
    (fun k hk => slotCause_lone hlt hc hp ht he k hk)
  rw [runSlot, done_eq]
  congr 1
  rw [issueActs, ha]
  simp only [applyActs_nil, hf, List.nil_append, slotActs_lone hlt hs.2, nextOf_lone hlt hn]
  have hz : startRep s.cur.q (s.seqOf s.cur.q).pc {} = [] := rfl
  rw [hz, List.append_nil]
  rfl

/-- An operation that names no bundle to follow goes on to the next of the stream. -/
theorem runSlot_goesOn (hs : Settled s) (hr : Allotted s (o.rows (standing c op s) s)) (hc : o.cause (standing c op s) s = none)
    (hp : ((passOf (s.seqOf s.cur.q)).isSome && looppIllegal (some ⟨c, BitVec.ofNat 8 op, 0, 0, 0, true⟩)) = false)
    (hl : o.nres = 0 ∨ inFlightCount s s.cur.q + o.nres ≤ Config.inFlightLimit)
    (hn : o.next (standing c op s) s = .seq) :
    runSlot c op o s = goesOn (standing c op s) (o.acts (standing c op s) s) s := by
  have h := runSlot_next hs hr hc hp (by rw [hn]; rfl) (by rw [hn]; rfl) hl (Or.inr (Or.inr (Or.inr hn)))
  rw [h, hn, goesOn]

end Sys2Proof.Machine
end

