-- ==== Sys2Proof/Laws/Alone.lean ====
section
/-! SUPPORT. The outcome of an operation that stands alone, by the shape of its operation: one lemma for each shared shape. -/

namespace Sys2Proof.Machine

variable {s : State} {op : Nat}

/-- An operation of at most one result that meets no precise cause and names no bundle to follow. -/
theorem runSlot_alone {c : SlotClass} {o : Op} (x : Ctx) (hx : standing c op s = x) (h : Room s) (hn : o.nres ≤ 1)
    (hr : Allotted s (o.rows x s)) (hc : o.cause x s = none)
    (hp : looppIllegal (some ⟨c, BitVec.ofNat 8 op, 0, 0, 0, true⟩) = false) (hnx : o.next x s = .seq) :
    runSlot c op o s = goesOn x (o.acts x s) s := by
  subst hx
  exact runSlot_goesOn h.1 hr hc (by rw [hp, Bool.and_false]) (by have := h.2; omega) hnx

theorem maskCause_none {m : Nat} {x : Ctx} (h : (x.mask s m 0).poison = false) : maskCause m x s = none := by
  simp [maskCause, firstCause, h]

theorem lane_lt {r : Row} {lw i : Nat} : r.lane lw i < 2 ^ lw := BitVec.isLt _

theorem enabledLanes_congr {m : MaskBits} {n : Nat} {g h : Nat → LaneOut} (hg : ∀ i, i < n → g i = h i) :
    enabledLanes m n n g = enabledLanes m n n h :=
  List.map_congr_left (fun i hi => by rw [hg i (by simpa using hi)])

/-- A lane operation of fixed width gives its lanes. -/
theorem laneOp_alone {f : VR} {lw bound : Nat} {u : VUse} {nf : Bool} {g : VIn → Nat → LaneOut} {h : Nat → LaneOut} (hs : Room s)
    (hm : ((atV s).mask s f.m.toNat 0).poison = false) (hr : Allotted s (vrRows f u true))
    (hg : ∀ i, i < laneCount lw → g (vrRead f u (atV s) s lw) i = h i) (hx : standing .v op s = atV s := by rfl) :
    runSlot .v op (laneOp f lw bound u nf g) s = laneGives (atV s) s f.d f.m lw bound nf h := by
  rw [runSlot_alone (o := laneOp f lw bound u nf g) (atV s) hx hs (le_refl _) hr (maskCause_none hm) rfl rfl]
  have e : enabledLanes (vrRead f u (atV s) s lw).m.val (laneCount lw) (laneCount lw) (g (vrRead f u (atV s) s lw)) =
      enabledLanes ((atV s).mask s f.m.toNat 0).val (laneCount lw) (laneCount lw) h := enabledLanes_congr hg
  simp only [laneOp, e]
  rfl

/-- The same for an operation of the X class. -/
theorem laneOp_aloneX {f : VR} {lw bound : Nat} {u : VUse} {nf : Bool} {g : VIn → Nat → LaneOut} {h : Nat → LaneOut} (hs : Room s)
    (hm : ((atX s).mask s f.m.toNat 0).poison = false) (hr : Allotted s (vrRows f u true))
    (hg : ∀ i, i < laneCount lw → g (vrRead f u (atX s) s lw) i = h i)
    (hp : looppIllegal (some ⟨.x, BitVec.ofNat 8 op, 0, 0, 0, true⟩) = false) (hx : standing .x op s = atX s := by rfl) :
    runSlot .x op (laneOp f lw bound u nf g) s = laneGives (atX s) s f.d f.m lw bound nf h := by
  rw [runSlot_alone (o := laneOp f lw bound u nf g) (atX s) hx hs (le_refl _) hr (maskCause_none hm) hp rfl]
  have e : enabledLanes (vrRead f u (atX s) s lw).m.val (laneCount lw) (laneCount lw) (g (vrRead f u (atX s) s lw)) =
      enabledLanes ((atX s).mask s f.m.toNat 0).val (laneCount lw) (laneCount lw) h := enabledLanes_congr hg
  simp only [laneOp, e]
  rfl

/-- A lane operation in the shape of FMT.ACT, where its entry defines that shape. -/
theorem actOp_alone {f : VR} {bound lw : Nat} {u : VUse} {xa : Bool} {g : Nat → VIn → Nat → LaneOut} {h : Nat → LaneOut} (hs : Room s)
    (hm : ((atV s).mask s f.m.toNat 0).poison = false) (hr : Allotted s (vrRows f u true))
    (ha : xa = true ∨ fmtAct (s.fmt s.cur.q) ≠ 2) (hl : actWidth (fmtAct (s.fmt s.cur.q)) = lw)
    (hg : ∀ i, i < laneCount lw → g lw (vrRead f u (atV s) s lw) i = h i) (hx : standing .v op s = atV s := by rfl) :
    runSlot .v op (actOp f bound u xa g) s = laneGives (atV s) s f.d f.m lw bound true h := by
  subst hl
  have hc : (actOp f bound u xa g).cause (atV s) s = none := by
    have : (decide (fmtAct (s.fmt (atV s).q) = 2) && !xa) = false := by
      rcases ha with rfl | ha
      · simp
      · simp [show ¬ fmtAct (s.fmt (atV s).q) = 2 from ha]
    simp only [actOp, lowestCause, hm, this, List.foldl_cons, List.foldl_nil, Bool.false_eq_true, if_false]
  rw [runSlot_alone (o := actOp f bound u xa g) (atV s) hx hs (le_refl _) hr hc rfl rfl]
  exact congrArg (fun o => goesOn (atV s) [result (atV s) s (.rows f.d.toNat) (.rows [writeLanes _ o]) bound {}] s)
    (enabledLanes_congr (m := ((atV s).mask s f.m.toNat 0).val) hg)

/-- A move in the shape of FMT.ACT. -/
theorem moveOp_alone {f : VR} {bound lw : Nat} {u : VUse} {src : Ctx → State → Word × MaskBits × Bool}
    {g : Nat → VIn → Word → MaskBits → Nat → LaneOut} {h : Nat → LaneOut} (hs : Room s)
    (hm : ((atV s).mask s f.m.toNat 0).poison = false) (hr : Allotted s (vrRows f u true)) (hl : actWidth (fmtAct (s.fmt s.cur.q)) = lw)
    (hg : ∀ i, i < laneCount lw →
      (g lw (vrRead f u (atV s) s lw) (src (atV s) s).1 (src (atV s) s).2.1 i).taint (src (atV s) s).2.2 = h i)
    (hx : standing .v op s = atV s := by rfl) :
    runSlot .v op (moveOp f bound u src g) s = laneGives (atV s) s f.d f.m lw bound true h := by
  subst hl
  rw [runSlot_alone (o := moveOp f bound u src g) (atV s) hx hs (le_refl _) hr (maskCause_none hm) rfl rfl]
  exact congrArg (fun o => goesOn (atV s) [result (atV s) s (.rows f.d.toNat) (.rows [writeLanes _ o]) bound {}] s)
    (enabledLanes_congr (m := ((atV s).mask s f.m.toNat 0).val) hg)

end Sys2Proof.Machine
end

