-- ==== Sys2Proof/Laws/Lanes.lean ====
section
/-! SUPPORT. What writing lanes to a row gives: the lanes written hold their values, every other lane keeps its own (R23, R155). -/

namespace Sys2Proof.Machine

/-- Bit j of digit i of a packed number. -/
theorem packDigits_testBit {w i j : Nat} {l : List Nat} (hj : j < w) : (packDigits w l).testBit (i * w + j) = (l.getD i 0).testBit j := by
  induction l generalizing i with
  | nil => simp [packDigits]
  | cons d l ih =>
    have h : packDigits w (d :: l) = 2 ^ w * packDigits w l + d % 2 ^ w := by
      rw [packDigits, List.foldr_cons, ← packDigits, Nat.add_comm]
    rw [h, Nat.testBit_two_pow_mul_add _ (Nat.mod_lt _ (Nat.two_pow_pos w))]
    cases i with
    | zero => simp [hj, Nat.testBit_mod_two_pow]
    | succ i =>
      have h1 : ¬ (i + 1) * w + j < w := by rw [Nat.add_mul]; omega
      have h2 : (i + 1) * w + j - w = i * w + j := by rw [Nat.add_mul]; omega
      rw [if_neg h1, h2, ih, List.getD_cons_succ]

/-- Bit j of lane i of a row. -/
theorem lane_testBit {r : Row} {lw i j : Nat} : (r.lane lw i).testBit j = (decide (j < lw) && r.data.getLsbD (i * lw + j)) := by
  rw [Row.lane, BitVec.testBit_toNat, BitVec.getLsbD_extractLsb']

/-- The lanes that outputs give: an output's value, or what was there. -/
theorem writeLanes_lane {r : Row} {lw i : Nat} {outs : List (Option LaneOut)} (hl : lw ∣ 16384) (hi : i < laneCount lw) :
    (r.apply (writeLanes lw outs)).lane lw i = match outs.getD i none with | some o => o.bits % 2 ^ lw | none => r.lane lw i := by
  apply Nat.eq_of_testBit_eq
  intro j
  rw [lane_testBit]
  by_cases hj : j < lw
  · have hin : i * lw + j < 16384 := by
      obtain ⟨k, hk⟩ := hl
      have h0 : 0 < lw := by omega
      have h1 : i < k := by rw [laneCount, hk, Nat.mul_div_cancel_left _ h0] at hi; exact hi
      calc i * lw + j < i * lw + lw := by omega
        _ = (i + 1) * lw := by rw [Nat.add_mul, Nat.one_mul]
        _ ≤ k * lw := Nat.mul_le_mul_right _ h1
        _ = 16384 := by rw [hk, Nat.mul_comm]
    have hd : (writeLanes lw outs).data.getLsbD (i * lw + j) = ((outs.map (fun (o : Option LaneOut) => match o with | some x => x.bits | none => 0)).getD i 0).testBit j := by
      rw [writeLanes, BitVec.getLsbD_ofNat, packDigits_testBit hj]
      simp [hin] <;> rfl
    have hm : (writeLanes lw outs).dataMask.getLsbD (i * lw + j) = ((outs.map (fun (o : Option LaneOut) => if o.isSome then 2 ^ lw - 1 else 0)).getD i 0).testBit j := by
      rw [writeLanes, BitVec.getLsbD_ofNat, packDigits_testBit hj]; simp [hin]
    rw [Row.apply]
    simp only [BitVec.getLsbD_or, BitVec.getLsbD_and, BitVec.getLsbD_not, hd, hm, hj, hin, decide_true, Bool.true_and]
    rw [List.getD_eq_getElem?_getD, List.getD_eq_getElem?_getD, List.getD_eq_getElem?_getD, List.getElem?_map, List.getElem?_map]
    rcases h : outs[i]? with _ | (_ | o)
    · simp [lane_testBit, hj]
    · simp [lane_testBit, hj]
    · simp [Nat.testBit_two_pow_sub_one, hj, Nat.testBit_mod_two_pow]
  · rw [decide_eq_false hj, Bool.false_and]
    split
    · simp [Nat.testBit_mod_two_pow, hj]
    · rw [lane_testBit, decide_eq_false hj, Bool.false_and]

/-- The outputs of enabled lanes are what LanesGive asks of the write they make. -/
theorem enabledLanes_give {lw : Nat} {en : MaskBits} {g : Nat → LaneOut} (hl : lw ∣ 16384) :
    LanesGive lw en g (writeLanes lw (enabledLanes en (laneCount lw) (laneCount lw) g)) := by
  intro r i hi
  rw [writeLanes_lane hl hi, enabledLanes, List.getD_eq_getElem?_getD, List.getElem?_map, List.getElem?_range hi]
  simp only [Option.map_some, Option.getD_some, decide_eq_true hi, Bool.true_and]
  by_cases h : en.getLsbD i
  · simp [h]
  · simp [h]

end Sys2Proof.Machine
end

