-- ==== Sys2Proof/Tests/Slice0.lean ====
section
/-! SUPPORT. Tests: well-formedness, words of the encoding tables, worked examples of the manual, and for every statement with
hypotheses a concrete state and operands that meet them. -/

namespace Sys2Proof.Tests

set_option Elab.async false

open Sys2Proof Sys2Proof.Machine

/-! ## Well-formedness: each check refuses something -/

/-- SCMP's condition codes end at 9 (R84, R90). -/
theorem test_wf_condition : (Instr.scmp ⟨9, 0, 1, 2, 3, 0⟩).wf = true ∧ (Instr.scmp ⟨10, 0, 1, 2, 3, 0⟩).wf = false := by decide +kernel

/-- NF and the register c are reserved in SADD (R85). -/
theorem test_wf_reserved : (Instr.sadd ⟨0, 0, 1, 2, 3, 0⟩).wf = true ∧ (Instr.sadd ⟨0, 1, 1, 2, 3, 0⟩).wf = false ∧
    (Instr.sadd ⟨0, 0, 1, 2, 3, 5⟩).wf = false := by decide +kernel

/-- The fixed sub code of SEXT.S (R113): SEXT.U's is another. -/
theorem test_wf_fixed : (Instr.sextS ⟨1, 0, 1, 2, 3, 4⟩).wf = true ∧ (Instr.sextS ⟨0, 0, 1, 2, 3, 4⟩).wf = false := by decide +kernel

/-- A slot executes only opcodes of its own class (R69). -/
theorem test_wf_class : (Instr.sadd ⟨0, 0, 1, 2, 3, 0⟩).wfSlot .s = true ∧ (Instr.sadd ⟨0, 0, 1, 2, 3, 0⟩).wfSlot .v = false := by decide +kernel

/-- Opcodes 0x30 to 0x47 stand in S1 only (R69). -/
theorem test_wf_s1 : (Instr.bundleIssue .nop (.br ⟨0, 0, 0, 3⟩) .nop .nop .nop .nop .nop .nop).wf = true ∧
    (Instr.bundleIssue (.br ⟨0, 0, 0, 3⟩) .nop .nop .nop .nop .nop .nop .nop).wf = false := by decide +kernel

/-- A PROBE shares its bundle with no branch and no second PROBE (R89). -/
theorem test_wf_probe :
    (Instr.bundleIssue .nop .nop .nop .nop .nop .nop (.probe ⟨0, 1, 2, 3⟩) .nop).wf = true ∧
    (Instr.bundleIssue .nop (.br ⟨0, 0, 0, 3⟩) .nop .nop .nop .nop (.probe ⟨0, 1, 2, 3⟩) .nop).wf = false ∧
    (Instr.bundleIssue .nop .nop .nop .nop .nop .nop (.probe ⟨0, 1, 2, 3⟩) (.probe ⟨0, 4, 2, 3⟩)).wf = false := by decide +kernel

/-! ## Decoding: words written out in the manual's programs and entries -/

/-- 01, 04, 06: the kernels' scalar words. -/
theorem test_decode_scalar :
    decodeSlot .s 0x18328000FF00 = .ok (.slih ⟨3, 10, 0, 0xFF00⟩) ∧ decodeSlot .s 0x1700C000C448 = .ok (.sli ⟨0, 3, 0, 0xC448⟩) ∧
    decodeSlot .s 0x0600000420C0 = .ok (.sdiv ⟨0, 0, 1, 2, 3, 0⟩) := ⟨rfl, rfl, rfl⟩

theorem test_decode_control :
    decodeSlot .s 0x30000000001A = .ok (.br ⟨0, 0, 0, 26⟩) ∧ decodeSlot .s 0x316AEAFFFFFF = .ok (.brc ⟨6, 43, 42, 0xFFFFFF⟩) ∧
    decodeSlot .s 0x3500000C0003 = .ok (.loop ⟨0, 0, 3, 3⟩) ∧ decodeSlot .s 0x36114028000D = .ok (.loopp ⟨1, 5, 10, 13⟩) ∧
    decodeSlot .s 0x381000101040 = .ok (.rep ⟨1, 0, 4, 1, 1, 0⟩) ∧ decodeSlot .s 0x3B0A00000002 = .ok (.chk ⟨0, 40, 0, 2⟩) :=
  ⟨rfl, rfl, rfl, rfl, rfl, rfl⟩

theorem test_decode_system :
    decodeSlot .s 0x410003000000 = .ok (.setfmt ⟨0, 0, 3, 0, 0⟩) ∧ decodeSlot .s 0x3F0540081000 = .ok (.sysrd ⟨0, 21, 0, 0x081, 0⟩) ∧
    decodeSlot .s 0x400002081000 = .ok (.syswr ⟨0, 0, 2, 0x081, 0⟩) ∧ decodeSlot .s 0x450017080000 = .ok (.glchk ⟨0, 0, 23, 0x080, 0⟩) ∧
    decodeSlot .s 0x430140000000 = .ok (.twait ⟨0, 5, 0, 0⟩) ∧ decodeSlot .s 0x440000300000 = .ok (.trealign ⟨0, 0, 12, 0⟩) :=
  ⟨rfl, rfl, rfl, rfl, rfl, rfl⟩

theorem test_decode_vector :
    decodeSlot .v 0x0A02028180E0 = .ok (.vfmaF32 ⟨0, 0, 2, 5, 6, 7, 0⟩) ∧ decodeSlot .v 0x1C00010100A2 = .ok (.vcmpF32 ⟨0, 0, 0, 2, 4, 5, 2⟩) ∧
    decodeSlot .v 0x3510008040C0 = .ok (.vfxadd ⟨1, 0, 0, 1, 1, 6, 0⟩) ∧ decodeSlot .v 0x39100602C000 = .ok (.vcvtBf16F32 ⟨1, 0, 0, 12, 11, 0, 0⟩) ∧
    decodeSlot .v 0x3C0004800004 = .ok (.vli ⟨0, 9, 4⟩) ∧ decodeSlot .v 0x43000F010001 = .ok (.vsumxF32 ⟨0, 0, 0, 30, 4, 0, 1⟩) ∧
    decodeSlot .v 0x4A0014000000 = .ok (.vstateClr ⟨0, 0, 0, 40, 0, 0, 0⟩) ∧ decodeSlot .v 0x4800158AC5C0 = .ok (.vstatm ⟨0, 0, 0, 43, 43, 46, 0⟩) ∧
    decodeSlot .v 0x53100380C000 = .ok (.mfirst ⟨1, 0, 0, 7, 3, 0, 0⟩) ∧ decodeSlot .v 0x3D00190AC001 = .ok (.vbcastLane ⟨0, 0, 0, 50, 43, 0, 1⟩) :=
  ⟨rfl, rfl, rfl, rfl, rfl, rfl, rfl, rfl, rfl, rfl⟩

theorem test_decode_matrix :
    decodeSlot .x 0x0A000A0100E0 = .ok (.xqbx ⟨0, 0, 0, 20, 4, 7, 0⟩) ∧ decodeSlot .x 0x010004820000 = .ok (.xexp2 ⟨0, 0, 0, 9, 8, 0, 0⟩) ∧
    decodeSlot .x 0x100008010000 = .ok (.mcall ⟨8, 1⟩) ∧ decodeSlot .x 0x1500021401C0 = .ok (.mzero ⟨2, 40, 7⟩) ∧
    decodeSlot .x 0x1100141400D3 = .ok (.mdrain ⟨20, 40, 3, 0, 1, 3⟩) ∧ decodeSlot .x 0x14000A040003 = .ok (.mdrainN ⟨10, 8, 0, 0, 0, 3⟩) ∧
    decodeSlot .x 0x1900018100A0 = .ok (.thset ⟨0, 0, 0, 3, 4, 5, 0⟩) := ⟨rfl, rfl, rfl, rfl, rfl, rfl, rfl⟩

theorem test_decode_memory :
    decodeSlot .m 0x04A141600000 = .ok (.ld64 ⟨5, 40, 11, 0⟩) ∧ decodeSlot .m 0x0A015A803000 = .ok (.vst ⟨0, 43, 20, 0x3000⟩) ∧
    decodeSlot .m 0x110079515597 = .ok (.cpygs ⟨30, 1, 20, 21, 22, 23⟩) ∧ decodeSlot .m 0x19000078F000 = .ok (.bararv ⟨0, 0, 0, 30, 15, 0, 0⟩) ∧
    decodeSlot .m 0x160000000002 = .ok (.drainr ⟨0, 0, 0, 0, 0, 0, 2⟩) ∧ decodeSlot .m 0x270051400000 = .ok (.chsend ⟨0, 5, 40⟩) ∧
    decodeSlot .m 0x2A1188000000 = .ok (.jemit ⟨1, 6, 8, 0⟩) ∧ decodeSlot .m 0x2D0540000000 = .ok (.jtrunc ⟨0, 21, 0, 0⟩) :=
  ⟨rfl, rfl, rfl, rfl, rfl, rfl, rfl, rfl⟩

/-- Reserved bits, unassigned opcodes, and a branch in S0 (R85, R90). -/
theorem test_decode_refused :
    decodeSlot .s 0x000000000001 = .error .illegalEncoding ∧ decodeSlot .s 0x2B0000000000 = .error .undefinedOpcode ∧
    decodeSlot .s 0x0100001420C0 = .ok (.sadd ⟨0, 0, 5, 2, 3, 0⟩) ∧ decodeSlot .s 0x0101001420C0 = .error .illegalEncoding ∧
    decodeBundle (0x30000000001A#48 ++ 0#336) = .error (0, .illegalSlot) := ⟨rfl, rfl, rfl, rfl, rfl⟩

/-- The bundle of NOPs (R69). -/
theorem test_decode_nops : decodeTableWord 0 0 = some (.bundleIssue .nop .nop .nop .nop .nop .nop .nop .nop) := by decide +kernel

/-! ## Small states -/

/-- Core 0 runs a bundle of NOPs at its sequencer 0, with every row in its allotment. -/
def base : State := State.reset.withFetchWord 0 0

/-- The same with scalars of sequencer 0 set, registers rising. -/
def regs (l : List (Nat × Word)) : State := { base with scalars := l.map (fun e => (e.1, ⟨e.2, false⟩)) }

/-- The same with its sequencer changed. -/
def seqd (s : State) (f : Seq → Seq) : State := { s with seqs := SMap.set {} s.seqs 0 (f (s.seqOf 0)) }

/-- The same with its core changed. -/
def cored (s : State) (f : Core → Core) : State := { s with cores := SMap.set {} s.cores 0 (f (s.coreOf 0)) }

/-- The same with work in progress. -/
def working (s : State) (f : Work → Work) : State := { s with work := f s.work }

/-- The same with its module's registers changed. -/
def chipped (s : State) (f : Chip → Chip) : State := { s with chip := f s.chip }

theorem base_canonical : Canonical base := by constructor <;> decide

/-- A state whose rows hold no flipped bit issues plainly. -/
theorem plain {s : State} (g : (s.seqOf s.cur.q).rearm = false) (h : ∀ e ∈ s.rows, e.2.flip = 0) : Settled s := by
  refine ⟨g, fun n => ?_⟩
  rw [State.rowOf]
  generalize 512 * (s.cur.q / 4) + n = k
  revert h
  induction s.rows with
  | nil => exact fun _ => rfl
  | cons e l ih =>
    intro h
    rw [SMap.get]
    split
    · exact h _ List.mem_cons_self
    · exact ih (fun x hx => h x (List.mem_cons_of_mem _ hx))

/-- A state that holds no row issues plainly. -/
theorem bare {s : State} (g : (s.seqOf s.cur.q).rearm = false) (h : s.rows = []) : Settled s := plain g (by rw [h]; exact fun _ hx => nomatch hx)

theorem base_room : Room base := ⟨bare rfl rfl, by decide⟩

theorem base_allotted : Allotted base [0, 1, 511] := by unfold Allotted; decide

theorem base_ready : Ready (atV base) 0 [0, 1, 511] base := ⟨base_room, by decide, base_allotted⟩

theorem base_readyX : Ready (atX base) 0 [0, 1, 511] base := ⟨base_room, by decide, base_allotted⟩

/-- A step runs the placed bundle first (log 3). -/
theorem test_fetch_first : (match step base with | .next t => (t.seqOf 0).pc | _ => 0) = 50 := by decide +kernel

/-! ## Worked values -/

/-- The scalar result in flight after a step, if the step goes on. -/
def wordOf (o : Host.Outcome State Fault Refusal) : Option (Word × Bool × Nat) :=
  match o with
  | .next t => match t.work.flights.getLast? with
    | some f => match f.val with | .word v p => some (v, p, f.due - f.issue) | _ => none
    | none => none
  | _ => none

/-- 06 R111: sums wrap. -/
theorem test_sadd_wraps : wordOf (exec (.sadd ⟨0, 0, 3, 1, 2, 0⟩) (regs [(1, -1), (2, 2)])) = some (1, false, 1) := by decide +kernel

/-- 06 R112: the smallest number divided by -1. -/
theorem test_sdiv_least : wordOf (exec (.sdiv ⟨0, 0, 3, 1, 2, 0⟩) (regs [(1, 0x8000000000000000), (2, -1)])) = some (0x8000000000000000, false, 1) := by decide +kernel

/-- 06 R112: -7 rem 2 is -1. -/
theorem test_srem_sign : wordOf (exec (.srem ⟨0, 0, 3, 1, 2, 0⟩) (regs [(1, -7), (2, 2)])) = some (-1, false, 1) := by decide +kernel

/-- 01, line 1 of kernel revstream: SLIH builds the own-scratchpad base from s0. -/
theorem test_slih_base : wordOf (exec (.slih ⟨3, 10, 0, 0xFF00⟩) base) = some (0xFF00000000000000, false, 1) := by decide +kernel

/-- 06 R113: a sign-extended field. -/
theorem test_sext_field : wordOf (exec (.sextS ⟨1, 0, 3, 1, 4, 7⟩) (regs [(1, 0x0F80)])) = some (-8, false, 1) := by decide +kernel

/-- 06 R119: a taken branch counts words of two bytes from its own bundle. -/
theorem test_br_target : (match exec (.br ⟨0, 0, 0, 24⟩) base with | .next t => (t.seqOf 0).pc | _ => 0) = 48 := by decide +kernel

/-- 06 R120: LOOP pushes an entry that begins after its bundle. -/
theorem test_loop_entry : (match exec (.loop ⟨0, 0, 3, 30⟩) base with
    | .next t => (t.seqOf 0).loops.map (fun e => (e.start, e.stop, e.count)) | _ => []) = [(50, 60, 3)] := by decide +kernel


/-! ## Witnesses: the hypotheses of the statements are met -/

theorem room_regs : Room (regs [(1, -7), (2, 2), (3, 1), (4, 0)]) := ⟨bare rfl rfl, by decide +kernel⟩

theorem witness_ScalarIntegerResults : Room base ∧
    (let s := regs [(1, -7), (2, 2), (3, 1), (4, 0)]
     Room s ∧ ((atS s).scalar s 3 2).val ≠ 0 ∧ ((atS s).scalar s 4 2).val = 0 ∧
     (let f : SR := ⟨9, 0, 5, 1, 3, 60⟩; f.sub = 9 ∧ f.b.toNat + (f.c.toNat + 1) ≤ 64)) :=
  ⟨base_room, room_regs, by decide +kernel, by decide +kernel, by decide⟩

theorem witness_ScalarImmediateResults : Room base ∧ (let f : SI := ⟨3, 1, 2, 0xFFFF⟩; f.sub.toNat < 4 ∧ f.imm24.toNat < 2 ^ 16) :=
  ⟨base_room, by decide⟩

theorem witness_ScalarDivisionResults :
    (let s := regs [(1, -7), (2, 2), (3, 1), (4, 0)]; Room s ∧ ((atS s).scalar s 2 1).val ≠ 0 ∧ ((atS s).scalar s 4 1).val = 0) :=
  ⟨room_regs, by decide +kernel, by decide +kernel⟩

theorem witness_ScalarFloatResults : Room base := base_room

theorem witness_VectorFloatResults : Ready (atV base) 0 [0, 1, 511] base ∧ Ready (atV base) 0 [0, 1] base :=
  ⟨base_ready, base_room, by decide +kernel, fun n hn => base_allotted n (by simp at hn ⊢; omega)⟩

theorem witness_VectorCompareResults : Ready (atV base) 0 [0, 511] base :=
  ⟨base_room, by decide +kernel, fun n hn => base_allotted n (by simp at hn ⊢; omega)⟩

theorem witness_VectorIntegerResults : Ready (atV base) 0 [0, 1, 511] base := base_ready

/-- FMT with ACT 2, and with ACT 1. -/
def act (k : Word) : State := seqd base (fun y => { y with fmt := 8 + k })

theorem act_ready (k : Word) (hk : k = 0 ∨ k = 1 ∨ k = 2) : Ready (atV (act k)) 0 [0, 1, 511] (act k) := by
  rcases hk with rfl | rfl | rfl <;> exact ⟨⟨bare rfl rfl, by decide +kernel⟩, by decide +kernel, by unfold Allotted; decide +kernel⟩

theorem witness_VectorBitResults :
    (∀ k : Word, k = 0 ∨ k = 1 ∨ k = 2 → Ready (atV (act k)) 0 [0, 1, 511] (act k)) ∧ fmtAct ((act 2).fmt (act 2).cur.q) = 2 ∧
    fmtAct ((act 1).fmt (act 1).cur.q) ≠ 2 :=
  ⟨act_ready, by decide +kernel, by decide +kernel⟩

theorem witness_VectorConversionResults : Ready (atV base) 0 [509, 1] base ∧ Allotted base [509 + 1, 509 + 2] :=
  ⟨⟨base_room, by decide +kernel, by unfold Allotted; decide +kernel⟩, by unfold Allotted; decide +kernel⟩

theorem witness_VectorMoveResults : Ready (atV base) 0 [511] base ∧ Allotted base [0, 511] ∧ Room base ∧ fmtAct ((act 2).fmt (act 2).cur.q) = 2 :=
  ⟨⟨base_room, by decide +kernel, by unfold Allotted; decide +kernel⟩, by unfold Allotted; decide +kernel, base_room, by decide +kernel⟩

/-- Row 1 with a poisoned word 3, row 2 with a signalling NaN in word 5. -/
def rowed : State := { base with rows := [(1, ⟨1, 8, 0, 0⟩), (2, ⟨0x7F800001 <<< 160, 0, 0, 0⟩)] }

theorem rowed_ready (r : BitVec 9) (h : r = 1 ∨ r = 2) : Ready (atV rowed) 0 [0, r] rowed := by
  have hs : Settled rowed := plain rfl (by unfold rowed; intro e he; simp at he; rcases he with rfl | rfl <;> rfl)
  rcases h with rfl | rfl <;> exact ⟨⟨hs, by decide +kernel⟩, by decide +kernel, by unfold Allotted; decide +kernel⟩

theorem witness_SumResults : Ready (atV rowed) 0 [0, 1] rowed ∧ Ready (atV rowed) 0 [0, 2] rowed ∧
    (Enabled ((atV rowed).mask rowed 0 0).val 512 3 ∧ ((atV rowed).row rowed 1 32 1).lanePoison 32 3 = true) ∧
    (∀ i, i < 512 → ((atV rowed).row rowed 2 32 1).lanePoison 32 i = false) ∧
    (∃ node : Nat → Nat → Option Flagged, ∀ k j, k < 9 → node (k + 1) j = sumNode .rne (node k (2 * j)) (node k (2 * j + 1))) :=
  ⟨rowed_ready 1 (.inl rfl), rowed_ready 2 (.inr rfl), by unfold Enabled; decide +kernel, by decide +kernel,
    fun k j => Nat.rec (motive := fun _ => Nat → Option Flagged) (fun _ => none) (fun _ f j => sumNode .rne (f (2 * j)) (f (2 * j + 1))) k j,
    fun _ _ _ => rfl⟩

theorem witness_ExtremeLaneResults : Ready (atV rowed) 0 [0, 2] rowed ∧
    Enabled ((atV rowed).mask rowed 0 0).val 512 5 ∧ (fp32.value (((atV rowed).row rowed 2 32 1).lane 32 5)).isNaN = true ∧
    (∀ j, j < 5 → (fp32.value (((atV rowed).row rowed 2 32 1).lane 32 j)).isNaN = false) ∧
    (∀ i, ¬ Enabled ((atV base).mask base 1 0).val 512 i) := by
  refine ⟨rowed_ready 2 (.inr rfl), by unfold Enabled; decide +kernel, by decide +kernel, by decide +kernel, fun i h => ?_⟩
  have : ((atV base).mask base 1 0).val = 0 := by decide +kernel
  rw [Enabled, this] at h
  simp at h

theorem witness_StatisticsResults : Ready (atV base) 0 [0] base ∧ Allotted base [0 + 1, 0 + 2, 509, 509 + 1, 509 + 2] :=
  ⟨⟨base_room, by decide +kernel, by unfold Allotted; decide +kernel⟩, by unfold Allotted; decide +kernel⟩

theorem witness_ExactLaneResults : Ready (atV base) 0 [0, 1] base ∧ Allotted base [511] :=
  ⟨⟨base_room, by decide +kernel, by unfold Allotted; decide +kernel⟩, by unfold Allotted; decide +kernel⟩

theorem witness_MaskResults : Ready (atV base) 0 [] base ∧
    (let m := ((atV base).mask base 0 0).val; m.getLsbD 0 = true ∧ m.getLsbD 1023 = true) ∧
    (∀ i, i < 512 → ((atV base).mask base 1 1).val.getLsbD i = false) :=
  ⟨⟨base_room, by decide +kernel, fun _ h => by cases h⟩, by decide +kernel, by decide +kernel⟩

theorem witness_GlintAndGeneratorResults : Ready (atV base) 0 [] base ∧ Allotted base [511] :=
  ⟨⟨base_room, by decide +kernel, fun _ h => by cases h⟩, by unfold Allotted; decide +kernel⟩

/-- Scalars that name scale records: the first, and the last below the system area; FMT.BXM 7. -/
def recorded : State := seqd (regs [(1, 0xFF00000000000000), (2, 0xFF000000003DFFE0)]) (fun y => { y with fmt := 8 + 7 * 2 ^ 14 })

/-- The same with an earlier store of the own scratchpad still to perform. -/
def recordHeld : State := working recorded (fun w => { w with accesses :=
  [{ id := 0, q := 0, slot := 6, addr := 0, kind := .store, va := 0xFF00000000000000, size := 1, issue := 0, at_ := 0 }] })

theorem witness_QuantiserResults : (∀ s ∈ [recorded, recordHeld], Room s ∧ Ready (atX s) 0 [0, 1] s ∧ Ready (atV s) 0 [1] s ∧
    NamesRecord ((atX s).scalar s 1 2) ∧ NamesRecord ((atX s).scalar s 2 2) ∧ fmtBx (s.fmt s.cur.q) ≠ 1 ∧
    isFinite32 (((atV s).row s 1 32 1).lane 32 0) = true) ∧ ownFree recorded recorded.cur.q = true ∧ ownFree recordHeld recordHeld.cur.q = false := by
  refine ⟨fun s hs => ?_, by decide +kernel, by decide +kernel⟩
  simp only [List.mem_cons, List.mem_nil_iff, or_false] at hs
  rcases hs with rfl | rfl
  · have h : Room recorded := ⟨bare rfl rfl, by decide +kernel⟩
    exact ⟨h, ⟨h, by decide +kernel, by unfold Allotted; decide +kernel⟩, ⟨h, by decide +kernel, by unfold Allotted; decide +kernel⟩,
      by unfold NamesRecord; decide +kernel, by unfold NamesRecord; decide +kernel, by decide +kernel, by decide +kernel⟩
  · have h : Room recordHeld := ⟨bare rfl rfl, by decide +kernel⟩
    exact ⟨h, ⟨h, by decide +kernel, by unfold Allotted; decide +kernel⟩, ⟨h, by decide +kernel, by unfold Allotted; decide +kernel⟩,
      by unfold NamesRecord; decide +kernel, by unfold NamesRecord; decide +kernel, by decide +kernel, by decide +kernel⟩

theorem witness_SpecialFunctionResults : Ready (atX base) 0 [0, 1] base :=
  ⟨base_room, by decide +kernel, fun n hn => base_allotted n (by simp at hn ⊢; omega)⟩

/-- A core with BF16 operands, routine 1 valid with a duration of one cycle and no descriptor, and drain targets in its scratchpad (mp3)
and the sync window (mp5); mp4 and mp6 name triple row 509. -/
def engine : State :=
  { seqd (regs [(1, 0xFF00000000000000), (2, 0xFF000000003DF000), (3, 0), (4, 64)]) (fun y => { y with fmt := 8 + 64 + 1024 }) with
    routines := [(1, 0x1000)]
    mps := [(3, 0x3000000000000), (4, 509), (5, 0x1000000000000), (6, 509)] }

theorem engine_settled : Settled engine := bare rfl rfl

theorem witness_EngineCommandsAccepted :
    Settled engine ∧ Unpipelined engine ∧ Room engine ∧ (engine.routineOf 0 1).getLsbD 12 = true ∧ mcallDescs ⟨1, 1⟩ (atX engine) engine = [] ∧
    Accepts engine 1 1 ∧ Accepts engine 0xFFFF 12 ∧
    Allotted engine [0, 7, 509, 510, 511] ∧ fmtAct (engine.fmt engine.cur.q) = 0 ∧
    (∀ r, r < 8 → classify engine 0 (drainRowAddr (engine.mpOf 0 3) r) 2048 64 .engine = none) ∧
    (((engine.mpOf 0 5).extractLsb' 48 2).toNat = 1 ∧ ∀ r, r < 8 → classify engine 0 (drainRowAddr (engine.mpOf 0 5) r) 2048 64 .engine = none) ∧
    (let b := ((atX engine).scalar engine 3 1).val; (b.extractLsb' 8 12).toNat + 1 ≤ 4096 ∧ b.toNat < 2 ^ 24 ∧ (b.extractLsb' 0 24).toNat % 64 = 0) ∧
    (let a := ((atX engine).scalar engine 2 0).val.toNat; classify engine 0 a 8 8 .engine = none ∧ classify engine 0 a 512 64 .engine = none ∧ windowOf a = 4) ∧
    (let a := ((atX engine).scalar engine 4 0).val.toNat; a % 64 = 0 ∧ windowOf a = 1 ∧ windowOf (a + 2047) = 1) :=
  ⟨engine_settled, rfl, ⟨engine_settled, by decide +kernel⟩, by decide +kernel, by decide +kernel, by unfold Accepts; decide +kernel, by unfold Accepts; decide +kernel,
    by unfold Allotted; decide +kernel, by decide +kernel, by decide +kernel, by decide +kernel, by decide +kernel, by decide +kernel, by decide +kernel⟩

/-- Scalars that are branch targets: the last word of the stream in s1, one in s63. -/
def targets : State := regs [(1, 48), (2, 5), (63, 0)]

theorem targets_settled : Settled targets := bare rfl rfl

/-- A core whose stream has room for branches both ways, inside a loop. -/
def looping (e : LoopEntry) (s : State) : State := seqd s (fun y => { y with loops := [e] })

theorem witness_BranchResults :
    Settled targets ∧ InStream targets ((targets.seqOf 0).pc + 2 * (24 : Int)) ∧ InLoop targets 48 ∧
    InLoop (looping ⟨0, 50, 0, 2, false, 0, 0⟩ base) 50 ∧
    icond 64 1 ((atS1 targets).scalar targets 1 0).val.toNat ((atS1 targets).scalar targets 2 1).val.toNat = true ∧
    icond 64 0 ((atS1 targets).scalar targets 1 0).val.toNat ((atS1 targets).scalar targets 2 1).val.toNat = false ∧
    ((atS1 targets).scalar targets 1 0).poison = false ∧ Room targets ∧ Unpipelined targets ∧
    InStream targets ((atS1 targets).scalar targets 63 0).val.toNat ∧
    (let s := { base with scalars := [(1, ⟨0, true⟩)], masks := [(1, ⟨0, true⟩)] }
     ((atS1 s).scalar s 1 0).poison = true ∧ ((atS1 s).mask s 1 0).poison = true ∧ ((atS1 s).scalar s 2 0).poison = false) ∧
    Allotted base [511] :=
  ⟨targets_settled, by unfold InStream; decide +kernel, (fun e h => by cases h), (fun e h => by cases h; decide), by decide +kernel, by decide +kernel,
    by decide +kernel, ⟨targets_settled, by decide +kernel⟩, rfl, by unfold InStream; decide +kernel, by decide +kernel, by unfold Allotted; decide +kernel⟩

/-- A full loop stack. -/
def nested : State := seqd targets (fun y => { y with loops := List.replicate 6 ⟨0, 50, 0, 2, false, 0, 0⟩ })

theorem witness_LoopResults :
    Settled targets ∧ Unpipelined targets ∧ (1 : BitVec 18).toInt > 0 ∧ (targets.seqOf 0).loops.length < 6 ∧
    ((atS1 targets).scalar targets 1 0).val ≠ 0 ∧ ((atS1 targets).scalar targets 1 0).poison = false ∧ ((atS1 targets).scalar targets 63 0).val = 0 ∧
    ((targets.seqOf 0).reent = false ∧ ((seqd targets (fun y => { y with reent := true })).seqOf 0).reent = true) ∧
    (Settled nested ∧ Unpipelined nested ∧ 6 ≤ (nested.seqOf 0).loops.length ∧ (nested.seqOf 0).reent = false) ∧
    (let s := looping ⟨0, 50, 0, 2, false, 0, 0⟩ targets; Settled s ∧ Unpipelined s ∧ 1 ≤ (s.seqOf 0).loops.length ∧ (s.seqOf 0).loops.length < 2 ∧
      InStream s 48) :=
  ⟨targets_settled, rfl, by decide, by decide +kernel, by decide +kernel, by decide +kernel, by decide +kernel, ⟨rfl, rfl⟩,
    ⟨bare rfl rfl, by unfold Unpipelined; decide +kernel, by decide +kernel, rfl⟩,
    bare rfl rfl, rfl, by decide +kernel, by decide +kernel, by unfold InStream; decide +kernel⟩

/-- A REP of two repetitions of V0 whose destination rises by one row, with the last rows of the file as its operands. -/
theorem witness_LoopResults_rep : (let g : RP := ⟨1, 0, 2, 1, 0, 0⟩
    g.mask = 1 ∧ g.sd ≠ 0 ∧ g.imm12 ≠ 0xFFF ∧ 0 < g.imm12.toNat ∧ Room base ∧ (atV base).slot = 2 ∧ ((atV base).mask base 0 0).poison = false ∧
    ∀ k r st, k < g.imm12.toNat → (r, st) ∈ [((510 : BitVec 9), g.sd), (511, g.sa), (0, g.sb)] →
      ∃ row : Nat, (row : Int) = r.toNat + k * st.toInt ∧ row < 512 ∧ inAllotment base base.cur.q row = true) := by
  refine ⟨rfl, by decide, by decide, by decide, base_room, rfl, by decide +kernel, fun k r st hk hm => ?_⟩
  have hk : k = 0 ∨ k = 1 := by simp at hk; omega
  simp only [List.mem_cons, Prod.mk.injEq, List.mem_nil_iff, or_false] at hm
  rcases hk with rfl | rfl <;> rcases hm with ⟨rfl, rfl⟩ | ⟨rfl, rfl⟩ | ⟨rfl, rfl⟩
  · exact ⟨510, by decide, by decide, by decide +kernel⟩
  · exact ⟨511, by decide, by decide, by decide +kernel⟩
  · exact ⟨0, by decide, by decide, by decide +kernel⟩
  · exact ⟨511, by decide, by decide, by decide +kernel⟩
  · exact ⟨511, by decide, by decide, by decide +kernel⟩
  · exact ⟨0, by decide, by decide, by decide +kernel⟩

/-- A core of width 4. -/
def wide : State := cored base (fun y => { y with width := 4 })

/-- The same with its queue 0 as owner, alone; stopping for a Quiesce of its function. -/
def owned : State := cored base (fun y => { y with width := 4, owner := some 0, queues := List.replicate 8 {} })
def quieting : State := chipped owned (fun h => { h with quiesces := [⟨0, 0, 0, 0, 0x3000, 0, false, 0, false, false⟩] })

theorem witness_SequencerControlResults :
    Settled wide ∧ Unpipelined wide ∧ 3 < (wide.coreOf 0).width ∧ (wide.seqOf 3).run = .idle ∧ (wide.seqOf 0).hnd = false ∧
    ({ wide with seqs := SMap.set {} wide.seqs 3 { run := .parked } }.seqOf 3).run ≠ .idle ∧ (wide.seqOf 0).loops.getLast? = none ∧
    (let s := looping ⟨0, 50, 0, 2, false, 0, 0⟩ base
     Unpipelined s ∧ ∀ e, (s.seqOf s.cur.q).loops.getLast? = some e → e.pipe = false ∧ (s.seqOf s.cur.q).pc + sizeAt s s.cur.q = e.stop) ∧
    (quiescing quieting 0 = true ∧ quiescing owned 0 = false ∧ leadOf owned 0 = some 0 ∧ (owned.coreOf 0).owner = some 0 ∧
      rivalReady (owned.coreOf 0) (some 0) = false ∧ owned.chip.meas ≤ owned.chip.cap) ∧
    (let s := seqd base (fun y => { y with sync := some ⟨0x32, some 1, false, 5, 0⟩ })
     (s.seqOf 0).sync = some ⟨0x32, some 1, false, 5, 0⟩ ∧ (s.seqOf 0).run = .run ∧ asyncTrap s 0 = none) :=
  ⟨bare rfl rfl, rfl, by decide +kernel, by decide +kernel, rfl, by decide +kernel, rfl,
    ⟨rfl, fun e h => by cases h; exact ⟨rfl, by decide +kernel⟩⟩, by decide +kernel, by decide +kernel⟩

/-- A sequencer in a handler. -/
def handling : State := seqd base (fun y => { y with hnd := true })

theorem witness_SystemResults :
    Settled handling ∧ (handling.seqOf 0).hnd = true ∧ InStream handling (frameEpc handling 0) ∧ (base.seqOf 0).hnd = false ∧ Room base ∧
    framePoisoned handling 0 = false ∧ framePoisoned (applyAct (.mark (.spd 0) (0x3E0000 / 8) .error) handling) 0 = true ∧
    sysAssigned 0x083 = true ∧ laneIndex 0x083 = none ∧ laneIndex 0x11D = some 23 ∧ laneIndex 0x100 = some 0 ∧ laneIndex 0x104 = some 4 ∧
    fmtRefused 8 = false ∧ ((atS1 base).scalar base 1 0).poison = false ∧
    (base.readGlint 0 3 ((atS1 base).ck 59)).poison = false ∧ (base.readGlint 0 3 ((atS1 base).ck 59)).val = ((atS1 base).scalar base 1 0).val ∧
    ((atS1 base).scalar base 1 0).val.toNat ≤ base.gtime ∧ base.gtime < ((atS1 targets).scalar targets 1 0).val.toNat ∧
    ((atS1 base).mask base 15 0).poison = false :=
  ⟨bare rfl rfl, rfl, by unfold InStream; decide +kernel, rfl, base_room, by decide +kernel, by decide +kernel, by decide, by decide, by decide, by decide, by decide, by decide, by decide +kernel,
    by decide +kernel, by decide +kernel, by decide +kernel, by decide +kernel, by decide +kernel⟩

/-- Addresses in every window: the first and the last own bytes, the sync window, device memory, a VLDT source with tag 7. -/
def placed : State := { regs [(1, 0xFF00000000000000), (2, 0xFF000000003DFFFF), (3, 0xFD00000000000000), (4, 0x1000), (5, 4092), (6, 0xFF00070000000000)] with
  tags := [(0, 7)] }

theorem placed_settled : Settled placed := bare rfl rfl

theorem witness_MemoryAccessesIssue :
    Settled placed ∧ Room placed ∧ ((atM placed).scalar placed 1 0).poison = false ∧
    Passes placed 0xFF000000003DFFFF 1 1 .load ∧ Passes placed 0xFF00000000000000 2 2 .load ∧ Passes placed 0xFD00000000000000 4 4 .load ∧
    Passes placed 0x1000 8 8 .load ∧ Passes placed 0xFF00000000000000 2048 64 .load ∧ Passes placed 0xFF00000000000000 2048 2048 .load ∧
    Passes placed 0xFF000000003DFFFF 1 1 .store ∧ Passes placed 0x1000 8 8 .store ∧ Passes placed 0xFF00000000000000 2048 64 .store ∧
    Allotted placed [511] ∧ vldtAddr ⟨0, 511, 6, 0⟩ (atM placed) placed = 0xFF00000000000000 ∧
    SMap.get 0 placed.tags 0 = ((atM placed).scalar placed 6 0).val.extractLsb' 40 16 ∧
    (let a := ((atM placed).scalar placed 5 0).val.toNat; a ≤ 4092 ∧ a % 4 = 0) ∧ holdClear placed (placed.seqOf 0).hold = true ∧
    (let s := working placed (fun w => { w with flights := [{ id := 3, q := 0, dest := .scalar 63, val := .word 1 false, issue := 0, due := 1, slot := 0, addr := 0 }] })
     holdClear s { results := [3] } = false) ∧
    (∀ e ∈ elements ⟨0, 1, 1, 2, 0⟩ (atM placed) placed, e.2.2 = false ∧ classify placed 0 e.2.1 4 4 .store = none ∧ classify placed 0 e.2.1 4 4 .load = none) :=
  ⟨placed_settled, ⟨placed_settled, by decide +kernel⟩, by decide +kernel, by unfold Passes; decide +kernel, by unfold Passes; decide +kernel, by unfold Passes; decide +kernel,
    by unfold Passes; decide +kernel, by unfold Passes; decide +kernel, by unfold Passes; decide +kernel, by unfold Passes; decide +kernel,
    by unfold Passes; decide +kernel, by unfold Passes; decide +kernel, by unfold Allotted; decide +kernel, by decide +kernel, by decide +kernel,
    by decide +kernel, by decide +kernel, by decide +kernel, by decide +kernel⟩

theorem witness_OwnScratchpadAccesses :
    Room placed ∧ PerformsAtIssue placed ∧ ((atM placed).scalar placed 1 0).poison = false ∧ windowOf 0xFF00000000000000 = 4 ∧
    Passes placed 0xFF00000000000000 8 8 .load ∧ Passes placed 0xFF000000003DFFFF 1 1 .store ∧ maAddr ⟨0, 1, 2, 0⟩ (atM placed) placed = 0xFF000000003DFFFF ∧
    (∃ t, exec (.st8 ⟨0, 1, 2, 0⟩) placed = .next t) :=
  ⟨⟨placed_settled, by decide +kernel⟩, ⟨rfl, rfl, rfl, rfl, by decide +kernel⟩, by decide +kernel, by decide, by unfold Passes; decide +kernel, by unfold Passes; decide +kernel,
    by decide +kernel, _, rfl⟩

/-- A PROBE region of one slot; with it, that slot holding block 0x1000. -/
def region : State := cored placed (fun y => { y with ptSize := 4096 })
def cached : State := { region with ptt := [(0, ⟨true, 0x1000⟩)] }

theorem witness_ProbeResults :
    Room region ∧ Unpipelined region ∧ ((atM region).scalar region 4 0).poison = false ∧ (region.coreOf 0).ptSize / 4096 ≠ 0 ∧
    (region.coreOf 0).ptBase / 4096 + (region.coreOf 0).ptSize / 4096 ≤ 0x3E0 ∧ windowOf 0x1000 = 1 ∧
    probeHit region 0 0x1000 = none ∧ probeHit cached 0 0x1000 = some 0 ∧ InStream region 48 ∧
    windowOf (maAddr ⟨0, 0, 4, 0⟩ (atM region) region) = 1 ∧ (translateFast region 0 (region.fnOf 0) (maAddr ⟨0, 0, 4, 0⟩ (atM region) region) false).isSome = false :=
  ⟨⟨bare rfl rfl, by decide +kernel⟩, rfl, by decide +kernel, by decide +kernel, by decide +kernel, by decide, by decide +kernel, by decide +kernel,
    by unfold InStream; decide +kernel, by decide +kernel, by decide +kernel⟩

/-- Operands of copies: device address in s1, own scratchpad in s2, cluster scratchpad in s3, length 512 with tag 3 in s4, a barrier in s5,
a BOS offset in s6, length 0 in s7. -/
def copying : State :=
  regs [(1, 0x1000), (2, 0xFF00000000000000), (3, 0xFE00000000000000), (4, 0x3000000000200), (5, 0xFD00000000000000), (6, 4032)]

theorem witness_CopiesIssue :
    Settled copying ∧ Unpipelined copying ∧
    (let x := atM copying
     let l := (x.scalar copying 4 2).val
     l.extractLsb' 40 8 = 0 ∧ (l.extractLsb' 0 40).toNat = 512 ∧ ((x.scalar copying 7 2).val.extractLsb' 0 40).toNat = 0 ∧ (x.scalar copying 4 2).poison = false ∧
     windowOf (x.scalar copying 5 3).val.toNat = 2 ∧ syncValid copying (copying.fnOf 0) (x.scalar copying 5 3).val.toNat 16 = true ∧
     copying.cyc < startAt x copying 1 ∧ (copying.work.copies.filter (fun y => y.q / 4 = 0 && y.ch = 3)).length < 8 ∧
     (windowOf 0x1000 = 1 ∧ windowOf (0x1000 + 511) = 1 ∧ validPart copying 0 0x1000 512 .engine = true) ∧
     (windowOf 0xFF00000000000000 = 4 ∧ windowOf (0xFF00000000000000 + 511) = 4 ∧ validPart copying 0 0xFF00000000000000 512 .engine = true) ∧
     (windowOf 0xFE00000000000000 = 3 ∧ windowOf (0xFE00000000000000 + 511) = 3 ∧ validPart copying 0 0xFE00000000000000 512 .engine = true) ∧
     (x.scalar copying 6 1).val.toNat < 4096 ∧ (x.scalar copying 6 1).val.toNat % 64 = 0 ∧ (x.scalar copying 6 1).val.toNat + 512 / 512 ≤ 4096) :=
  ⟨bare rfl rfl, rfl, by decide +kernel⟩

/-- Operands of synchronisation: a barrier in s1, the largest target in s2, a tree header in s3 with room for four dies' contributions. -/
def syncing : State := regs [(1, 0xFD00000000000000), (2, 0xFFFFFFFFFFFF), (3, 0x1100F)]

theorem witness_SyncOperationsIssue :
    Settled syncing ∧ Unpipelined syncing ∧
    (let x := atM syncing
     let b := x.scalar syncing 2 1
     let h := treeHead (x.scalar syncing 3 1).val.toNat
     SyncPasses syncing (x.scalar syncing 1 0) 16 16 ∧ SyncPasses syncing (x.scalar syncing 1 0) 8 8 ∧ b.poison = false ∧ b.val.extractLsb' 0 48 ≠ 0 ∧
     SyncPasses syncing (x.scalar syncing 1 0) h.bytes 64 ∧ (x.scalar syncing 3 1).val.toNat / 2 ^ 25 % 2 ^ 23 = 0 ∧ h.kind ≠ 3 ∧ h.ncore ≤ 256 ∧ 0 < h.count ∧
     h.count ≤ 4096) :=
  ⟨bare rfl rfl, rfl, by unfold SyncPasses Passes; decide +kernel, by unfold SyncPasses Passes; decide +kernel, by decide +kernel, by decide +kernel,
    by unfold SyncPasses Passes; decide +kernel, by decide +kernel, by decide +kernel, by decide +kernel, by decide +kernel, by decide +kernel⟩

theorem witness_AtomicsIssue :
    Room syncing ∧ Unpipelined syncing ∧ SyncPasses syncing ((atM syncing).scalar syncing 1 0) 4 4 ∧ SyncPasses syncing ((atM syncing).scalar syncing 1 0) 8 8 ∧
    SyncPasses syncing ((atM syncing).scalar syncing 1 0) 16 16 ∧ SyncPasses syncing ((atM syncing).scalar syncing 1 0) 32 32 :=
  ⟨⟨bare rfl rfl, by decide +kernel⟩, rfl, by unfold SyncPasses Passes; decide +kernel, by unfold SyncPasses Passes; decide +kernel,
    by unfold SyncPasses Passes; decide +kernel, by unfold SyncPasses Passes; decide +kernel⟩

/-- CHT entry 1 sends; entry 2 receives and holds one element; entry 3 receives and is empty. A journal with a partner and a ring. -/
def journalling : State :=
  { regs [(1, 0xFF00000000000000), (2, 11), (3, 5), (4, 7), (5, 0x1000)] with
    cht := [(1, 3), (2, 1 + 2 ^ 80), (3, 1)]
    chip := { State.reset.chip with journal := { state := 1, ringLog := 10, marks := [7] } } }

/-- The same module replaying: it hosts one record of zeros, and its number comes next. -/
def replaying : State :=
  chipped journalling (fun h => { h with journal := { h.journal with ract := true, hostedNext := 1, hv := true, hostLog := 10 } })

/-- The record that it hosts: all fields zero, with its CRC. -/
def hosting : State := applyAct (.write .hbm 0 (recordBytes ⟨0, 0, 0, 0, 0, 0, 0, 0⟩) (List.replicate 64 false)) replaying

theorem witness_ChannelReducerAndJournalIssue :
    Settled journalling ∧ Unpipelined journalling ∧ Room journalling ∧ Allotted journalling [511] ∧
    chtValid (journalling.chtOf 0 1) 1 = true ∧
    (chtValid (journalling.chtOf 0 2) 0 = true ∧ (journalling.chtOf 0 2).getLsbD 91 = false ∧ 0 < chtCount (journalling.chtOf 0 2)) ∧
    (chtValid (journalling.chtOf 0 3) 0 = true ∧ chtCount (journalling.chtOf 0 3) = 0) ∧
    (let x := atM journalling
     (((x.scalar journalling 2 1).val.extractLsb' 0 4).toNat < 12 ∧ journalling.cyc < startAt x journalling ((x.scalar journalling 3 2).val.extractLsb' 0 16).toNat ∧
       Passes journalling (x.scalar journalling 1 0).val.toNat 64 64 .engine ∧ windowOf (x.scalar journalling 1 0).val.toNat = 4) ∧
     (journalling.chip.journal.ract = false ∧ journalling.chip.journal.paired = true ∧ (journalling.chip.emits.filter (fun e => !e.replay)).length < 256 ∧
       ∀ n, ringSize journalling.chip.journal.ringLog = some n → journalling.chip.journal.tail - journalling.chip.journal.head < n) ∧
     emitCause x journalling (x.scalar journalling 5 2).val = none ∧
     journalling.chip.journal.marks.length + (if journalling.chip.journal.freed.1 = journalling.cyc then journalling.chip.journal.freed.2 else 0) < 64 ∧
     journalling.chip.journal.marks.contains (x.scalar journalling 4 0).val.toNat = true) ∧
    (let j := hosting.chip.journal
     j.ract = true ∧ j.cur < j.hostedNext ∧ (hostedRecord hosting j.cur).2 = true ∧ (hostedRecord hosting j.cur).1.kind = 0 ∧
     (hostedRecord hosting j.cur).1.stream = ((atM hosting).scalar hosting 6 1).val.extractLsb' 0 16 ∧
     (hostedRecord hosting j.cur).1.payload = ((atM hosting).scalar hosting 6 0).val) ∧
    (let j := (chipped hosting (fun h => { h with journal := { h.journal with wfail := true, hostedMarks := [7], matched := [7] } })).chip.journal
     j.hv = true ∧ j.wfail = true ∧ ((atM hosting).scalar hosting 4 0).val.toNat ∈ j.hostedMarks ∧ ((atM hosting).scalar hosting 4 0).val.toNat ∈ j.matched) :=
  ⟨bare rfl rfl, rfl, ⟨bare rfl rfl, by decide +kernel⟩, by unfold Allotted; decide +kernel, by decide +kernel, by decide +kernel, by decide +kernel,
    ⟨⟨by decide +kernel, by decide +kernel, by unfold Passes; decide +kernel, by decide +kernel⟩,
      ⟨rfl, by decide +kernel, by decide +kernel, fun n h => by injection h with h; subst h; decide +kernel⟩, by decide +kernel, by decide +kernel, by decide +kernel⟩,
    by decide +kernel, by decide +kernel⟩

/-- One result of each kind in flight at sequencer 0. -/
def inFlight : State := working base (fun w => { w with nextId := 5, flights :=
  [{ id := 0, q := 0, dest := .scalar 63, val := .word 1 false, issue := 0, due := 1, slot := 0, addr := 0 },
   { id := 1, q := 0, dest := .mask 15, val := .mask 1 false, issue := 0, due := 1, slot := 2, addr := 0 },
   { id := 2, q := 0, dest := .rows 511, val := .rows [{}], issue := 0, due := 1, slot := 2, addr := 0 },
   { id := 3, q := 0, dest := .glint 3, val := .word 1 false, issue := 0, due := 1, slot := 2, addr := 0 },
   { id := 4, q := 0, dest := .fmt, val := .word 8 false, issue := 0, due := 1, slot := 1, addr := 0 }] })

theorem witness_ResultLanding : Canonical inFlight ∧ (∀ g ∈ inFlight.work.flights, g.mode = .live) ∧
    ∀ f ∈ inFlight.work.flights, inFlight.flightOf f.id = some f ∧ f.missing = 0 ∧ f.hnd = false ∧ ∀ g ∈ inFlight.work.flights, g.id ≠ f.id → g.overlaps f = false :=
  ⟨by constructor <;> decide +kernel, by decide +kernel, by decide +kernel⟩

/-- A load of its own scratchpad in flight, past its bound; the same held by the frame. -/
def loading (m : FlightMode) : State := working base (fun w => { w with
  nextId := 2
  flights := [{ id := 0, q := 0, dest := .scalar 1, val := .word 0 false, issue := 0, due := 0, missing := 1, slot := 6, addr := 0, mode := m }]
  accesses := [{ id := 1, q := 0, slot := 6, addr := 0, kind := .load, va := 0xFF00000000000000, size := 8, flight := some 0, issue := 0, at_ := 0 }] })

/-- A VLDB of the last column, held back, in flight. -/
def columned : State := working base (fun w => { w with
  nextId := 2
  flights := [{ id := 0, q := 0, dest := .rows 3, val := .rows [{}], issue := 0, due := 8, missing := 1, slot := 6, addr := 0 }]
  accesses := [{ id := 1, q := 0, slot := 6, addr := 0, kind := .column 4092, va := 0, size := 2048, flight := some 0, issue := 0, at_ := 0 }] })

theorem witness_LoadEvents :
    Canonical (loading .live) ∧ (∃ a, a ∈ (loading .live).work.accesses ∧ (loading .live).accessOf 1 = some a ∧ a.kind = .load ∧ a.trans = .none ∧
      a.lost = false ∧ a.pass = none ∧ a.flight = some 0 ∧ fencedFrom (loading .live) (a.place (loading .live)).1 (a.q / 4) = false) ∧
    (∃ f, (loading .live).flightOf 0 = some f ∧ 0 < f.missing ∧ f.due ≤ (loading .live).cyc ∧ f.mode = .live) ∧
    (∃ a f, (loading (.latched 0)).accessOf 1 = some a ∧ a.flight = some 0 ∧ (loading (.latched 0)).flightOf 0 = some f ∧ f.latchIndex = some 0) ∧
    ((loading (.latched 0)).seqOf 0).events.length + ((loading (.latched 0)).seqOf 0).orderFaults.length < 64 ∧
    (∃ a, columned.accessOf 1 = some a ∧ a.kind = .column 4092 ∧ a.lost = false ∧ a.pass = none ∧ a.flight = some 0 ∧
      ∀ f, columned.flightOf 0 = some f → f.mode = .live) :=
  ⟨by constructor <;> decide +kernel, ⟨_, List.mem_singleton.2 rfl, rfl, rfl, rfl, rfl, rfl, rfl, by decide +kernel⟩, ⟨_, rfl, by decide, by decide, rfl⟩,
    ⟨_, _, rfl, rfl, rfl, rfl⟩, by decide +kernel, _, rfl, rfl, rfl, rfl, rfl, fun f h => by cases h; rfl⟩

/-- A timed store to the first own byte, past its bound. -/
def storing : State := { working base (fun w => { w with nextId := 1, accesses :=
  [{ id := 0, q := 0, slot := 6, addr := 0, kind := .store, va := 0xFF00000000000000, size := 1, bytes := [7], poison := [false], issue := 0, at_ := 0, timed := true }] })
  with cyc := 1024 }

theorem witness_StoreEvents : Canonical storing ∧ ∃ a, storing.accessOf 0 = some a ∧ a.kind = .store ∧ a.performed = false ∧ a.trans = .none ∧ a.pieces = [] ∧
    pieces storing (a.place storing).1 (a.place storing).2 a.bytes.length = [((a.place storing).1, (a.place storing).2, a.bytes.length)] ∧ a.timed = true ∧
    a.issue + a.bound < storing.cyc ∧ a.issue + 1024 ≤ storing.cyc ∧ a.sameStore a = true ∧ (storing.seqOf a.q).events.length + (storing.seqOf a.q).orderFaults.length < 64 :=
  ⟨by constructor <;> decide +kernel, _, rfl, rfl, rfl, rfl, rfl, by decide +kernel, rfl, by decide, by decide, by decide, by decide +kernel⟩

/-- A timer set to the present cycle. -/
def timed : State := seqd base (fun y => { y with tcmp := 0x1000000000000 })

theorem witness_TrapEntryEffects : Canonical base ∧ (base.seqOf 0).hnd = false ∧ (handling.seqOf 0).hnd = true ∧ (⟨0x32, none, false, 0, 0⟩ : Cause).code = 0x32 ∧
    Canonical timed ∧ (timed.seqOf 0).tcmp.getLsbD 48 = true ∧ ((timed.cyc : Int) - ((timed.seqOf 0).tcmp.extractLsb' 0 48).toNat) % 2 ^ 48 < 2 ^ 47 ∧
    (timed.seqOf 0).hnd = false :=
  ⟨base_canonical, rfl, rfl, rfl, by constructor <;> decide +kernel, by decide +kernel, by decide +kernel, rfl⟩

/-- A LOOPP of two stages at the end of pass 2, with a rollback to pass p. -/
def rolling (p : Nat) (esc : Bool) : State := seqd base (fun y => { y with
  loops := [⟨0, 50, 2, 4, true, 1, 0⟩], passEnd := some ([], 50), rollback := some p, rollEsc := esc })

theorem witness_LooppRollback : (∀ p esc, ((rolling p esc).seqOf 0).passEnd = some ([], 50) ∧ ((rolling p esc).seqOf 0).rollback = some p ∧
    ((rolling p esc).seqOf 0).loops.getLast? = some ⟨0, 50, 2, 4, true, 1, 0⟩ ∧ ((rolling p esc).seqOf 0).rollEsc = esc) ∧
    (2 ≤ 1 + 1) ∧ (0 + 1 < 2) := ⟨fun _ _ => ⟨rfl, rfl, rfl, rfl⟩, by decide, by decide⟩

/-- A sequencer that waits. -/
def waiting (w : Wait) : State := { seqd base (fun y => { y with run := .wait, wait := w, report := some (0, false) }) with
  cht := [(2, 1 + 2 ^ 80)], chip := { State.reset.chip with tbu := { lock := true } } }

theorem witness_WaitsEnd : ∀ w : Wait, ((waiting w).seqOf 0).run = .wait ∧ ((waiting w).seqOf 0).wait = w ∧ ((waiting w).seqOf 0).report = some (0, false) ∧
    0 ≤ (waiting w).cyc ∧ (0 : Word).toNat ≤ (waiting w).gtime ∧ (waiting w).chip.tbu.lock = true ∧ (waiting w).gtime % 2 ^ 24 = 0 ∧
    0 < chtCount ((waiting w).chtOf 0 2) ∧ ((waiting w).seqOf 0).more = [] :=
  fun _ => ⟨rfl, rfl, rfl, Nat.le_refl 0, Nat.le_refl 0, rfl, rfl, (by decide +kernel : 0 < chtCount (1 + 2 ^ 80)), rfl⟩

/-- A request at the sync engine. -/
def requested (k : AccessKind) : State := working base (fun w => { w with accesses :=
  [{ id := 0, q := 0, slot := 6, addr := 0, kind := k, va := 0xFD00000000000000, size := 16, issue := 0, at_ := 0 }] })

/-- The barrier of these requests, whose target is 4. -/
def barred (k : AccessKind) : State := applyAct (.write (.sye 0) 8 (leBytes 8 4) (List.replicate 8 false)) (requested k)

/-- An element of 4 bytes from core 5 of module 1, and the entry that takes it. -/
def arriving : State := { base with cht := [(2, 1 + 2 ^ 8 + 5 * 2 ^ 20)] }

theorem barred_target : ∃ a, (barred (.arrive 5)).accessOf 0 = some a ∧ a.kind = .arrive 5 ∧
    (let s := barred (.arrive 5)
     let u := applyActs (eccChecks s [((a.place s).1, (a.place s).2, 16)] a.fn) s
     leValue (u.readBytes (a.place u).1 ((a.place u).2 + 8) 6) ≠ 0) :=
  ⟨{ id := 0, q := 0, slot := 6, addr := 0, kind := .arrive 5, va := 0xFD00000000000000, size := 16, issue := 0, at_ := 0 }, rfl, rfl, by decide +kernel⟩

theorem witness_SyncEngineEvents :
    (∀ k, ∃ a, (requested k).accessOf 0 = some a ∧ a.kind = k) ∧
    (∃ a, (barred (.arrive 5)).accessOf 0 = some a ∧ a.kind = .arrive 5 ∧
      (let s := barred (.arrive 5)
       let u := applyActs (eccChecks s [((a.place s).1, (a.place s).2, 16)] a.fn) s
       leValue (u.readBytes (a.place u).1 ((a.place u).2 + 8) 6) ≠ 0)) ∧
    (let e : Element := ⟨1024 + 5, 0, 2, [1, 2, 3, 4], [false, false, false, false]⟩
     let t := arriving.chtOf 0 2
     e.source / 1024 ≠ arriving.chip.modId ∧ (arriving.coreOf 0).fenced = false ∧ resetting arriving (arriving.fnOf 0) = false ∧ chtValid t 0 = true ∧
     e.source = 1024 * chtModule t + chtPeer t ∧ e.bytes.length = chtBytes t ∧ chtCount t < chtSlots t) :=
  ⟨fun _ => ⟨_, rfl, rfl⟩, barred_target, by decide +kernel⟩

/-- An engine command, not started, or started at cycle 0. -/
def commanded (k : CommandKind) (b : Bool) : State := { working base (fun w => { w with nextId := 1, commands :=
  [{ id := 0, q := 0, kind := k, issue := 0, start := 0, dur := 2, readAt := 0, fmt := 8 + 64 + 1024, addr := 0, started := b }] }) with cyc := 2, ucode := [(0, 0x8000000000000002)] }

/-- A tile of one row in its own function's device memory. -/
def tiled : State := { base with ths := [(0, 0x40000000)] }

theorem witness_EngineEvents :
    (∀ k b, ∃ y, (commanded k b).work.commands.find? (fun y => y.id = 0) = some y ∧ y.started = b ∧ y.kind = k ∧ y.stopped = false ∧ y.routine.ended = false ∧
      y.dueAt ≤ (commanded k b).cyc ∧ y.finish ≤ (commanded k b).cyc ∧ holdClear (commanded k b) y.hold = true ∧
      y.dueAt < (commanded k b).cyc ∧ ∀ z ∈ (commanded k b).mxeCommands (y.q / 4), z.id ≠ y.id →
        ¬ (y.start + ((commanded k b).cyc - y.dueAt) < z.finish ∧ z.start < y.start + ((commanded k b).cyc - y.dueAt) + y.dur)) ∧
    ((commanded (.mcall 1) true).work.commands.any (fun y =>
      match mxeClocks (commanded (.mcall 1) true) y (entryFirst ((commanded (.mcall 1) true).routineOf 0 1)) 4 y.routine with
      | .ok r => !r.ended
      | .error _ => false) = true) ∧
    (let st := SMap.get {} tiled.staging 0; st.present = false ∧ st.bad = false ∧ tiled.cyc ≤ st.bound ∧ st.bound < ({ tiled with cyc := 1 } : State).cyc ∧
      holdClear tiled st.hold = true ∧ ∀ p ∈ st.parts, ∃ pa, p.trans = .done pa) := by
  refine ⟨fun k b => ⟨_, rfl, rfl, rfl, rfl, rfl, by cases k <;> exact Nat.le_of_ble_eq_true rfl, by cases k <;> exact Nat.le_of_ble_eq_true rfl, rfl,
    by cases k <;> exact Nat.le_of_ble_eq_true rfl, ?_⟩,
    by decide +kernel, by decide +kernel, by decide +kernel, by decide +kernel, by decide +kernel, by decide +kernel, fun p hp => nomatch hp⟩
  intro z hz hne
  have hz : z ∈ (commanded k b).work.commands := List.mem_of_mem_filter hz
  cases hz with
  | head => exact absurd rfl hne
  | tail _ h => nomatch h

/-- A copy of 64 bytes written whole; suspended; a fill; a copy that has met a fault. -/
def copied (f : Copy → Copy) : State := working base (fun w => { w with nextId := 1, copies :=
  [f { id := 0, q := 0, op := 0x11, ch := 0, src := 0x1000, dst := 0xFF00000000000000, len := 64, tag := 3, bar := 0, start := 0, slot := 6, addr := 0 }] })

theorem witness_CopyEvents :
    (let s := copied (fun y => { y with chunks := [{ n := 64, at_ := 0, src := [], read := true }] })
     ∃ y k l, s.copyOf 0 = some y ∧ y.chunks = k :: l ∧ k.read = true ∧ k.crc = 0 ∧ y.probe = none ∧
      ∀ a ∈ s.work.accesses, ¬ (a.origin = some y.id ∧ a.offset = y.cursor)) ∧
    (∀ b, ∃ y, (copied (fun y => { y with cursor := 64, bar := b })).copyOf 0 = some y ∧ y.len ≤ y.cursor ∧ y.probe = none ∧ y.bar = b) ∧
    (∃ y, (copied (fun y => { y with fault := some (1, 5) })).copyOf 0 = some y ∧ y.fault = some (1, 5) ∧ y.probe = none ∧ y.chunks = []) ∧
    (∃ y, (copied (fun y => { y with probe := some 2, cursor := 64 })).copyOf 0 = some y ∧ y.probe = some 2 ∧ y.fault = none ∧ y.len ≤ y.cursor) :=
  ⟨⟨_, _, _, rfl, rfl, rfl, rfl, rfl, fun _ h => nomatch h⟩, fun _ => ⟨_, rfl, Nat.le_refl 64, rfl, rfl⟩, ⟨_, rfl, rfl, rfl, rfl⟩,
    ⟨_, rfl, rfl, rfl, Nat.le_refl 64⟩⟩

/-- Page tables of function 1, its root at 0: one table each at 0, 0x100000, 0x101000, 0x102000, the last with a host-shared page of 64 KiB at 0x200000. -/
def tabled : State := chipped (applyAct (.write .hbm 0x102000 ((List.replicate 16 (leBytes 8 (0x200000 + 0x37))).flatten) (List.replicate 128 false))
    (applyAct (.write .hbm 0x101000 (leBytes 8 0x102001) (List.replicate 8 false))
      (applyAct (.write .hbm 0x100000 (leBytes 8 0x101001) (List.replicate 8 false))
        (applyAct (.write .hbm 0 (leBytes 8 0x100001) (List.replicate 8 false)) base))))
  (fun h => { h with roots := [(1, 1)], ranges := [(0, 7)], moving := [(1, 1)] })

/-- A walk for function 1's first page that has ended. -/
def walking : State := working tabled (fun w => { w with nextId := 1, walks := [⟨0, 0, 0, 1, 0, 0, true, []⟩] })

theorem witness_TranslationEvents :
    (∃ w : Walk, walking.work.walks.find? (fun x => x.id = w.id) = some w ∧ w.started = true ∧ w.at_ ≤ walking.cyc ∧ w.id < walking.work.nextId) ∧
    (0x101 : Word).getLsbD 8 = true ∧ (0x1 : Word).getLsbD 8 = false ∧
    (let s := chipped (copied (fun y => { y with cursor := 64 })) (fun h => { h with invalidating := some { accs := [3], copies := [(0, 64)], rows := [(0, 1)] } })
     s.chip.invalidating = some { accs := [3], copies := [(0, 64)], rows := [(0, 1)] } ∧ s.work.accesses = [] ∧ (∀ y ∈ s.work.copies, 64 ≤ y.cursor) ∧
       (SMap.get {} s.staging 0).va ≠ 1) ∧
    ((walkNow tabled 1 0 0).map (fun e => (e.hostShared, e.own, e.pa, e.size)) = some (true, false, 0x200000, 0x10000) ∧ leafTable tabled 1 0 = some 0x102000 ∧
      tabled.work.accesses = [] ∧ tabled.work.copies = [] ∧ (walkNow tabled 1 0 0).map (pageHeld tabled) = some false) ∧
    NoWriteTo tabled 0x200000 0x10000 ∧
    (tabled.chip.moving.find? (fun m => m.1 = 0) = none ∧ (SMap.get 0 tabled.chip.ranges 0).getLsbD 0 = true ∧ tabled.work.launches = []) ∧
    tabled.chip.moving.find? (fun m => m.1 = 1) = some (1, 1) ∧ tabled.work.putOff = [] ∧ 1 = 0 % 2 ^ 24 + 1 :=
  ⟨⟨⟨0, 0, 0, 1, 0, 0, true, []⟩, rfl, rfl, Nat.le_refl 0, by decide⟩, by decide, by decide,
    by decide +kernel, by decide +kernel, (fun a h => by cases h),
    ⟨rfl, by decide, rfl⟩, rfl, rfl, rfl⟩

/-- A core whose queues 0 and 3 hold launches; queue 3 has waited for 16 slices. -/
def queued : Core := { queues := [{ launch := some 0, run := 5 }, {}, {}, { launch := some 1, pass := 16, run := 1000000 }, {}, {}, {}, {}] }

theorem witness_ArbiterChoice : queued.queues.length = 8 ∧ (∀ q ∈ queued.queues, q.pass ≤ 16) ∧
    arbitrate queued 0 none false = .grant 3 ∧ arbitrate queued 1 (some 0) false = .grant 0 ∧ arbitrate queued 999999 none true = .long 3 ∧
    arbitrate queued 999999 none false = .idle := by decide +kernel

/-- A launch of one core that may start. -/
def launch : Launch :=
  { id := 0, fn := 0, ring := 0, pix := 0, queue := 0, task := false, width := 1, dreq := 0, dprom := 0, level := 0, launchId := 0, seed := 0, budget := 10,
    run0 := 5, allot := [512 * 2 ^ 10, 0, 0, 0], cores := [0], images := [0], taskList := 0x1000, startAt := some 0, remaining := [0] }

/-- Core 0 with a launch in queue 0, of which f tells more. -/
def running (own : Option Nat) (l : Launch) (f : Queue → Queue) : State :=
  working (seqd (cored (chipped base (fun h => { h with ranges := [(0, 3)] })) (fun y => { y with owner := own, budget := 10, queues := f { launch := some 0, run := 5 } :: List.replicate 7 {} }))
    (fun y => { y with run := .idle })) (fun w => { w with nextId := 1, launches := [l] })

theorem running_canonical (own : Option Nat) (l : Launch) (f : Queue → Queue) : Canonical (running own l f) := by
  have h : ∀ y : Core, y.width = 1 → y.streamBytes = 50 → SMap.wf {} (SMap.set {} base.cores 0 y) = true := by
    intro y _ h
    have e : base.cores = [(0, base.coreOf 0)] := rfl
    rw [e]
    have : y ≠ {} := fun e => by rw [e] at h; cases h
    have hs : SMap.set {} [(0, base.coreOf 0)] 0 y = [(0, y)] := by rw [SMap.set, if_neg (by omega), if_pos rfl, if_neg this]
    rw [hs]
    show (decide (0 ≤ 0) && decide (y ≠ {}) && true) = true
    rw [decide_eq_true this]
    rfl
  constructor
  case cores => exact h _ rfl rfl
  all_goals rfl

theorem witness_SchedulingEvents :
    (let s := running (some 0) launch id
     Canonical s ∧ s.work.launches.find? (fun k => k.id = launch.id) = some launch ∧ launchReady s launch 0 = true) ∧
    (let s := running (some 0) { launch with task := true } (fun q => { q with tasks := [1], started := true })
     Canonical s ∧ (taskReady s 0).isSome = true ∧ (match readDevice s 0 0 (0x1000 + 16) 16 (s.choice 0) with | .ok r => decide (r.2 = List.replicate 16 false) | .error _ => false) = true) ∧
    (({ launch with remaining := [] } : Launch).remaining = [] ∧ Canonical (running none { launch with remaining := [] } id)) ∧
    sliceEnd { queued with slice := 1000000 } ≤ 1000000 ∧ decidesAtReset { queued with owner := some 0 } = false ∧
    (let s := running (some 0) launch (fun q => { q with started := true }); Canonical s ∧ ownerDone s 0 = some 0 ∧ s.launchOf 0 0 = some launch) ∧
    (let s := running none launch id
     let y := s.coreOf 0
     y.owner = none ∧ y.switching = none ∧ settledCore s 0 = true ∧ quiescing s 0 = false ∧ coreIdle y s.cyc = false ∧ arbitrate y s.cyc none false = .grant 0 ∧ (s.queueOf 0 0).started = false) ∧
    (let s := cored (running (some 1) launch id) (fun y => { y with switching := some (some 0, 0) })
     (s.coreOf 0).switching = some (some 0, 0) ∧ settledCore s 0 = true ∧ (s.coreOf 0).outOfService = false ∧ (s.queueOf 0 1).ended = false ∧ (some 0 : Option Nat) ≠ some 1) ∧
    (let s := running (some 0) launch (fun q => { q with started := true, owned := 10, sinceYield := 6, tasks := [1] })
     let q := s.queueOf 0 0
     (s.coreOf 0).owner = some 0 ∧ q.started = true ∧ q.grace = none ∧ q.ended = false ∧ doneOn s 0 0 = false ∧ (s.coreOf 0).budget ≤ q.owned ∧ q.overrun = false ∧
       q.run < q.sinceYield ∧ ((seqd s (fun y => { y with run := .run })).seqOf 0).run ≠ .idle) ∧
    (let s := running (some 0) launch (fun q => { q with started := true, owned := 10, grace := some 10, tasks := [1] })
     (s.queueOf 0 0).grace = some 10 ∧ 10 ≤ (s.queueOf 0 0).owned ∧ doneOn s 0 0 = false ∧ s.launchOf 0 0 = some launch) := by
  refine ⟨⟨running_canonical _ _ _, rfl, rfl⟩, ⟨running_canonical _ _ _, by decide +kernel, by decide +kernel⟩, ⟨rfl, running_canonical _ _ _⟩, by decide, rfl,
    ⟨running_canonical _ _ _, by decide +kernel, rfl⟩, by decide +kernel, by decide +kernel, by decide +kernel, by decide +kernel⟩

/-- A ring of the PF that holds one packet of the given bits, over device memory that a range entry maps. -/
def packeted (n : Nat) (s : State) : State :=
  chipped (applyAct (.write .host 0 (leBytes 256 n) (List.replicate 256 false)) s)
    (fun h => { h with rings := [(0, { en := true, cmdTail := 1, cplLog := 4 })], ranges := [(0, 3)], vfEnable := true, numVfs := 16 })

/-- The packet that this ring holds, and the state after its reading. -/
def packetOf (n : Nat) (s : State) : Packet := ringPacket (packeted n s) 0
def packetAfter (n : Nat) (s : State) : State := applyAct (packetRead (packetOf n s)) (packeted n s)

/-- A LAUNCH of one core, its core-set list and images at 0x1000 and 0x2000. -/
def launchBits : Nat :=
  1 + 2 ^ 32 + 2 ^ 128 + 2 ^ 176 + 2 ^ 208 + 512 * 2 ^ 10 * 2 ^ 256 + 0x1000 * 2 ^ 384 + 0x2000 * 2 ^ 448

/-- The header of an image of no launch and no core, 64 bytes long. -/
def imageHeader : List Byte :=
  leBytes 4 0x49534A5A ++ leBytes 4 0x00010000 ++ leBytes 2 1 ++ leBytes 2 0xFF03 ++ leBytes 20 0 ++ leBytes 8 0x1040 ++ leBytes 8 0 ++ leBytes 8 64 ++ leBytes 8 0

/-- The module with that image at 0x3000. -/
def imaged : State := applyAct (.write .hbm 0x3000 imageHeader (List.replicate 64 false)) base

/-- Each of these packets stands at its ring's head, to be read. -/
theorem witness_PacketEvents_ring : (∀ n ∈ [launchBits, launchBits + 2 ^ 14, 0, 2, 3 + 2 ^ 64 + 0x1000 * 2 ^ 128, 4 + 256 + 2 ^ 32 + 0x3000 * 2 ^ 64,
    5 + 256 + 0x3000 * 2 ^ 64 + 64 * 2 ^ 128, 6 + 256, 7], ringReady (packeted n base) (packetOf n base).ring = true ∧ (packetOf n base).ring = 0) := by decide +kernel

theorem witness_PacketEvents_launch :
    packetBad (packeted launchBits base) (packetOf launchBits base) = false ∧ packetField (packetOf launchBits base) 0 8 = 1 ∧
    (packetLaunch (packetAfter launchBits base) 0 (packetOf launchBits base)).isSome = true ∧
    launchStatus (packetAfter launchBits base) (packetOf launchBits base) (packetLaunch (packetAfter launchBits base) 0 (packetOf launchBits base)) = 0 ∧
    (let n := launchBits + 2 ^ 14; packetBad (packeted n base) (packetOf n base) = false ∧ packetField (packetOf n base) 16 2 < packetField (packetOf n base) 14 2) ∧
    packetBad (packeted 0 base) (packetOf 0 base) = true := by decide +kernel

theorem witness_PacketEvents_sets :
    (let n := 2; packetBad (packeted n base) (packetOf n base) = false ∧ packetField (packetOf n base) 0 8 = 2) ∧
    (let n := 3 + 2 ^ 64 + 0x1000 * 2 ^ 128
     packetBad (packeted n base) (packetOf n base) = false ∧ packetField (packetOf n base) 0 8 = 3 ∧ coreSet (packetAfter n base) 0 0x1000 1 = some [0] ∧
       (packeted n base).fnOf 0 = 0) ∧
    (let n := 3 + 256 + 2 ^ 64 + 0x1000 * 2 ^ 128
     packetBad (packeted n base) (packetOf n base) = false ∧ coreSet (packetAfter n base) 0 0x1000 1 = some [0] ∧ (packeted n base).fnOf 0 ≠ 1) := by decide +kernel

theorem witness_PacketEvents_quiesce :
    (let n := 4 + 256 + 2 ^ 32 + 0x3000 * 2 ^ 64
     packetBad (packeted n base) (packetOf n base) = false ∧ packetField (packetOf n base) 0 8 = 4 ∧ packetField (packetOf n base) 128 64 < imageLength (packetAfter n base) 1) ∧
    (let n := 4 + 256 + 2 ^ 32 + 0x3000 * 2 ^ 64 + (2 ^ 64 - 1) * 2 ^ 128
     packetBad (packeted n base) (packetOf n base) = false ∧ imageLength (packetAfter n base) 1 ≤ packetField (packetOf n base) 128 64) := by decide +kernel

theorem witness_PacketEvents_restore :
    (let n := 5 + 256 + 0x3000 * 2 ^ 64 + 64 * 2 ^ 128
     let p := packetOf n imaged
     packetBad (packeted n imaged) p = false ∧ packetField p 0 8 = 5 ∧
       (match readDevice (packetAfter n imaged) 0 0 0x3000 64 ((packetAfter n imaged).choice 0) with
        | .ok (b, ps) => !ps.any id && imageFits (packetAfter n imaged) 1 b (imageSections b) []
        | .error _ => false) = true ∧
       (match readDevice (packetAfter n base) 0 0 0x3000 64 ((packetAfter n base).choice 0) with
        | .ok (b, _) => !imageFits (packetAfter n base) 1 b (imageSections b) []
        | .error _ => false) = true ∧
       (match readDevice (packetAfter n base) 0 0 0x30000 64 ((packetAfter n base).choice 0) with | .ok _ => false | .error _ => true) = true) := by decide +kernel

theorem witness_PacketEvents_context :
    (let s := chipped base (fun h => { h with quiesces := [⟨1, 0, 0, 0, 0x3000, 0, true, 0, false, false⟩] })
     let s := { packeted (6 + 256) s with chip := { (packeted (6 + 256) s).chip with quiesces := [⟨1, 0, 0, 0, 0x3000, 0, true, 0, false, false⟩] } }
     packetBad s (ringPacket s 0) = false ∧ packetField (ringPacket s 0) 0 8 = 6) ∧
    (let s := packeted 7 (running none launch id)
     packetBad s (ringPacket s 0) = false ∧ packetField (ringPacket s 0) 0 8 = 7 ∧ namedLaunch s 0 0 = some launch ∧ ∀ c ∈ launch.remaining, (s.queueOf c launch.queue).launch = some launch.id) ∧
    (let s := chipped base (fun h => { h with ranges := [(0, setField 3 80 40 1000)], quiesces := [⟨1, 0, 0, 0, 0x3000, 0, false, 0, false, false⟩] })
     quiesceOf s 1 = some ⟨1, 0, 0, 0, 0x3000, 0, false, 0, false, false⟩ ∧ cutReady s 1 = true) ∧
    (let s := chipped base (fun h => { h with quiesces := [⟨1, 0, 0, 9, 0, 0, false, 0, true, false⟩] })
     quiesceOf s 1 = some ⟨1, 0, 0, 9, 0, 0, false, 0, true, false⟩ ∧ cutReady s 1 = true) ∧
    (let s := cored (seqd (chipped base (fun h => { h with quiesces := [⟨1, 0, 0, 0, 0x3000, 0, false, 0, false, false⟩] })) (fun y => { y with run := .run })) (fun y => { y with mapFn := 1 })
     quiesceOf s 1 = some ⟨1, 0, 0, 0, 0x3000, 0, false, 0, false, false⟩ ∧ 0 ≤ s.cyc ∧ stoppedFn s 1 = false) :=
  ⟨by decide +kernel, by decide +kernel, by decide +kernel, by decide +kernel, by decide +kernel⟩

/-- A module whose function 0 has a ring with one record waiting, a hosted mark 4, power. -/
def ringed : State := chipped base (fun h => { h with
  rings := [(0, { cmdLog := 4, cplLog := 16, cplTail := 2 ^ 16, waiting := [0] })], journal := { h.journal with hostedMarks := [4] } })

theorem witness_RegisterWrites :
    hostBlocked base 0 = false ∧ (let r := ringed.chip.ring 0; 4 ≤ r.cmdLog ∧ r.cmdLog ≤ 16 ∧ 4 ≤ r.cplLog ∧ r.cplLog ≤ 16 ∧ r.waiting = [0] ∧
      (r.cplTail + 2 ^ 32 - (1 : Word).toNat % 2 ^ 32) % 2 ^ 32 < 2 ^ r.cplLog) ∧ (base.chip.ring 0).cmdLog < 4 ∧ (base.chip.ring 0).waiting = [] ∧
    hostBlocked (chipped base (fun h => { h with fatal := true })) 0 = true ∧ (2400 : Word).toNat % 2 ^ 13 = 2400 ∧ (4401 : Word).toNat % 2 ^ 13 = 4401 ∧
    (4 : Word).toNat ∈ ringed.chip.journal.hostedMarks ∧ (5 : Word).toNat ∉ ringed.chip.journal.hostedMarks ∧ base.chip.journal.state ≠ 2 ∧
    (0x20000000 : Word).getLsbD 29 = true ∧ base.chip.journal.hv = false := by decide +kernel

theorem witness_StackAndLanternEvents :
    (let s := chipped base (fun h => { h with hbmStacks := [(0, { leaving := some 15, lastBeat := 1 })] })
     (s.stackAt 0).leaving = some 15 ∧ regionMapped s 0 15 = false ∧ layerBusy s 0 15 = false ∧ ownQuiescing s = false ∧ (s.stackAt 0).leavingHost = false ∧
       regionMapped (chipped s (fun h => { h with ranges := [(0, setField 1 144 24 (15 * 3 * 2 ^ 16))] })) 0 15 = true ∧
       layerBusy (working s (fun w => { w with accesses := [{ id := 0, q := 0, slot := 6, addr := 0, kind := .store, va := 0, size := 1, issue := 0, at_ := 0, trans := .done (15 * 3 * 2 ^ 32) }] })) 0 15 = true ∧ 0 < (s.stackAt 0).lastBeat ∧ (s.stackAt 0).tko = false ∧
       (s.stackAt 0).lastBeat + 4000 ≤ ({ s with cyc := 4001 } : State).cyc ∧ (s.stackAt 0).reports = []) ∧
    (∀ x ∈ List.replicate 16 105, x ≤ 105) ∧ (∃ x ∈ [106], 105 < x) ∧ (∀ e ∈ base.cores, deadlineSave base e.1 = none) ∧
    base.unitMark (.sye 3) 0 = .clear ∧ (applyAct (.mark (.sye 3) 0 .flip) base).unitMark (.sye 3) 0 = .flip ∧
    base.chip.lantern.powered = true ∧ base.chip.lantern.up = true ∧ fnEnabled base 0 = true ∧ fnEnabled base 1 = false ∧ hostBlocked base 0 = false ∧
    (2 ^ 60 : Nat) ≤ 2 ^ 60 ∧ base.chip.lantern.fuse ≤ 0 := by decide +kernel

/-- A flit of kind k for module d on lane 0 with LSEQ 0. -/
def flit (k d : Nat) : Flit := ⟨BitVec.ofNat 128 (d + k * 2 ^ 52), none, 0, 1024, 0, 0⟩

/-- Port 0 with one unacknowledged flit, and n flits in the queue of lane 0. -/
def ported (n : Nat) : State := chipped base (fun h => { h with
  ports := [(0, { retry := [(0, flit 1 1, 0)], queues := List.replicate n ⟨0, 0, flit 1 0⟩ })], noRoute := [(3, 0)], routeHold := [(3, [(flit 1 3, 0)])] })

theorem witness_LinkEvents :
    ((ported 0).chip.port 0).up = true ∧ flitLseq (flit 1 1) = ((ported 0).chip.port 0).expect ∧ flitDest (flit 1 1) ≠ (ported 0).chip.modId ∧
    flitDest (flit 1 0) = (ported 0).chip.modId ∧ flitKind (flit 1 0) = 1 ∧ flitKind (flit 3 0) = 3 ∧ flitLane (flit 1 0) = 0 ∧
    ((ported 46).chip.port 0).queued 0 = 46 ∧ ((ported 47).chip.port 0).queued 0 = 47 ∧ ((ported 47).chip.port 0).pausing = [] ∧
    ((ported 0).chip.port 0).retry.findIdx? (fun e => e.1 = 0) = some 0 ∧ ((ported 0).chip.port 0).retry.findIdx? (fun e => e.1 = 1) = none ∧
    SMap.get 0 (ported 0).chip.noRoute 3 + 1000000 ≤ ({ ported 0 with cyc := 1000000 } : State).cyc ∧ (ported 0).chip.route 3 = none ∧
    SMap.get [] (ported 0).chip.routeHold 3 ≠ [] := by decide +kernel

/-- A reducer command whose descriptor, all zeros, stands at 0; with the CHT entry of its channel a collective one. -/
def reducing (e : BitVec 128) : State := { working base (fun w => { w with nextId := 1, commands :=
  [{ id := 0, q := 0, kind := .srd 0 2 0, issue := 0, start := 0, dur := 0, readAt := 0, fmt := 8, addr := 0 }] }) with cht := [(0, e)] }

/-- A step of member 0 that waits for its inputs, and one with the inputs in place. -/
def step0 : SrdStep := { id := 0, q := 0, fn := 0, step := 0, stack := 2, dst := 0xFF00000000000000, srca := 0, srcb := 0, len := 0, chan := 5, seq := 7, bar := 0, member := 0,
                         entry := 0, addr := 0, slot := 6 }

/-- A flit of the collective class for stack 2, channel 5, sequence n, the last of its sender. -/
def collective (n : Nat) : Flit := ⟨BitVec.ofNat 128 (2 ^ 52 + 2 * 2 ^ 12 + 5 * 2 ^ 20 + n * 2 ^ 28), some 0, 0, 1024, 0, 0⟩

theorem witness_ReducerEvents_enqueue :
    (let s := reducing 0
     let y := s.work.commands.headD { id := 0, q := 0, kind := .zero 0 0, issue := 0, start := 0, dur := 0, readAt := 0, fmt := 0, addr := 0 }
     let x := readStep s y 0 2 (engineBytes s 0 0 64).1
     y.start ≤ s.cyc ∧ holdClear s y.hold = true ∧ s.chip.fatal = false ∧ spdNotReady s 0 0 64 = false ∧ (s.chip.srd 2).length < 64 ∧
       (engineBytes s 0 0 64).2.any id = false ∧ x.illegal = true) := by decide +kernel

theorem witness_ReducerEvents_flits :
    (let s := chipped base (fun h => { h with srds := [(2, [step0])], ports := [(0, { queues := [⟨0, 0, collective 8⟩] })] })
     s.chip.srd 2 = [step0] ∧ step0.begun = false ∧ resetting s 0 = false ∧
       (s.chip.port 0).queues.find? (fun r => r.flit = collective 8) = some ⟨0, 0, collective 8⟩ ∧ (flitTag (collective 8)).1 = 2 ∧ (flitTag (collective 8)).2.1 = 5 ∧
       s.chip.refused.contains (1024, 256 * 2 + 5, 8) = false ∧ (s.chip.srd 2).find? (fun x => x.chan = 5) = some step0 ∧ step0.seq ≠ (flitTag (collective 8)).2.2 ∧
       (∀ e ∈ s.chip.ports, ∀ r ∈ e.2.queues, step0.tagged r.flit = false)) ∧
    (let s := { chipped base (fun h => { h with ports := [(0, { queues := [⟨0, 0, collective 8⟩] })] }) with cyc := 1024 }
     waitedFlit s 0 0 = some ⟨0, 0, collective 8⟩ ∧ s.chip.srd 2 = []) := by decide +kernel

/-- A begun step with one flit of its tag in the queues, which it takes as the first of its sender. -/
theorem witness_ReducerEvents_taken :
    (let x := { step0 with begun := true, len := 64 }
     let f := collective 7
     let s := chipped base (fun h => { h with srds := [(2, [x])], ports := [(0, { queues := [⟨0, 0, f⟩] })] })
     s.chip.srd 2 = [x] ∧ x.ready = none ∧ x.tagged f = true ∧ x.stack = 2 ∧ (s.chip.port 0).queues.find? (fun r => r.flit = f) = some ⟨0, 0, f⟩ ∧
       queuedInOrder s = [(0, ⟨0, 0, f⟩)] ∧ queuedFlits s = 1 ∧ s.chip.refused.contains (f.source, 256 * (flitTag f).1 + (flitTag f).2.1, (flitTag f).2.2) = false ∧
       (x.ordered = false) ∧ x.from f.source = [] ∧ f.ext = some 0 ∧ flitFix f = 0 ∧ x.started < x.need ∧ x.step < 7 ∧
       (match x.take f with | .took _ => true | _ => false) = true) := by decide +kernel

theorem witness_ReducerEvents_complete :
    (let x := { step0 with begun := true, ready := some 0 }
     let s := chipped base (fun h => { h with srds := [(2, [x])] })
     s.chip.srd 2 = [x] ∧ x.out = none ∧ x.mapped s = true ∧ x.sends = false ∧ x.bar = 0 ∧ heldWrite s x.fn x.dst x.len = false ∧ s.chip.holdsFlits s.chip.nextElem = false ∧
       (x.result s).2 = [] ∧
       (match writeDevice s 0 0 x.dst (s.choice 3) (x.result s).1.1 (x.result s).1.2 with | .ok _ => true | .error _ => false) = true) := by decide +kernel

/-- A writer with record 0 sent at cycle 0, and the host of module 3's records. -/
def paired (st : Nat) : State := chipped base (fun h => { h with journal := { h.journal with
  state := st, pval := true, partner := 3, rseed := 4, ringLog := 10, tail := 1, sentAt := [(0, 0)], ackb := 1024, hv := true, hostLog := 10, writer := 3, hostedNext := 1, marks := [] } })

theorem witness_JournalEvents :
    (let j := (paired 1).chip.journal
     j.hv = true ∧ j.wfail = false ∧ 10 ≤ j.hostLog ∧ j.hostLog ≤ 24 ∧ j.pval = true ∧ j.partner = 3 ∧ j.state = 1 ∧ j.oldestSent = some 0 ∧
       max 0 j.resentAt + j.ackb / 4 ≤ ({ paired 1 with cyc := 1024 } : State).cyc ∧ 0 + j.ackb ≤ ({ paired 1 with cyc := 1024 } : State).cyc ∧
       (paired 1).chip.duty.getLsbD 1 = false ∧ (chipped (paired 1) (fun h => { h with duty := 2 })).chip.duty.getLsbD 1 = true ∧ (paired 1).chip.spare = none ∧
       j.hostedHead < j.hostedNext ∧ j.heardAt + 4 * j.ackb ≤ ({ paired 1 with cyc := 4096 } : State).cyc) ∧
    (let j := (chipped (paired 3) (fun h => { h with journal := { h.journal with spareAck := 1 } })).chip.journal; j.state = 3 ∧ j.rseed = 4 ∧ j.tail ≤ j.spareAck) ∧
    (let e : Emit := ⟨0, 0xFF00000000000000, false, 5, 0, 6, 0, 0, none, true, none, {}⟩
     let s := chipped base (fun h => { h with emits := [e] })
     s.chip.emits = [e] ∧ e.replay = true ∧ holdClear s e.hold = true ∧ (match e.place s with | .home h off => decide (h = .spd 0 ∧ off = 0) && !fencedFrom s h 0 | _ => false) = true) ∧
    (let s := chipped base (fun h => { h with emits := [⟨0, 0, true, 5, 0, 6, 0, 0, none, true, none, {}⟩] })
     (∃ e, s.chip.emits = [e] ∧ e.replay = true ∧ e.silent = true) ∧ s.chip.fatal = false) ∧
    (let e : Emit := ⟨0, 0xFC00000000000001, false, 5, 0, 6, 0, 0, none, true, none, {}⟩
     let s := { chipped base (fun h => { h with emits := [e] }) with cht := [(1, 3)] }
     (match e.place s with | .channel ch => decide (ch = 1) | _ => false) = true) ∧
    (let e : Emit := ⟨0, 0x1000, false, 5, 0, 6, 0, 0, none, true, none, {}⟩
     let s := chipped base (fun h => { h with emits := [e], ranges := [(0, 1)] })
     (match e.place s with | .fault _ => true | _ => false) = true) ∧
    (chipped (paired 1) (fun h => { h with routes := [(3, 0x80)] })).chip.route 3 = some 0 ∧ base.chip.journal.hv = false ∧ base.chip.journal.oldestSent = none :=
  ⟨by decide +kernel, by decide +kernel, by decide +kernel, ⟨⟨_, rfl, rfl, rfl⟩, rfl⟩, by decide +kernel, by decide +kernel, by decide +kernel, rfl, rfl⟩

/-- Core 0 in function 1, whose reset is in step n. -/
def resettingAt (n : Nat) : State := chipped (cored base (fun y => { y with mapFn := 1 })) (fun h => { h with
  vfr := [(1, { busy := true, step := n, contain := [0] })] })

theorem witness_ResetEvents :
    (base.chip.vfReset 16).busy = false ∧ base.chip.fatal = false ∧ base.chip.halted = false ∧ base.chip.lantern.powered = true ∧ base.chip.lantern.badCores = [] ∧
    ((chipped base (fun h => { h with vfr := [(1, { contain := [0] })] })).chip.vfReset 1).contain ≠ [] ∧ base.work.launches = [] ∧
    (resettingAt 2).work.accesses = [] ∧
    (let r := (resettingAt 2).chip.vfReset 1
     r.busy = true ∧ r.step = 2 ∧ r.start < ({ resettingAt 2 with cyc := 1 } : State).cyc ∧ drained (resettingAt 2) 1 = true ∧ r.start + 50000 ≤ ({ resettingAt 2 with cyc := 50000 } : State).cyc) ∧
    (let r := (resettingAt 3).chip.vfReset 1; r.busy = true ∧ r.step = 3 ∧ r.until_ ≤ (resettingAt 3).cyc ∧ coresOf (resettingAt 3) 1 = [0]) ∧
    (let s := running (some 0) launch (fun q => { q with started := true }); (s.coreOf 0).owner = some 0 ∧ s.launchOf 0 0 = some launch) ∧
    (chipped base (fun h => { h with lantern := { h.lantern with staged := true } })).chip.lantern.staged = true ∧
    (chipped base (fun h => { h with lantern := { h.lantern with powered := false } })).chip.lantern.powered = false := by decide +kernel

theorem witness_BundleIssues :
    (Instr.sadd ⟨0, 0, 1, 2, 3, 0⟩).encoding.isSome = true ∧ slotClass base.cur.slot = .s ∧ (Instr.sadd ⟨0, 0, 1, 2, 3, 0⟩).s1Only = false ∧
    (base.seqOf 0).loops = [] ∧
    (let s := looping ⟨0, 50, 0, 2, false, 0, 0⟩ base
     (s.seqOf 0).loops = [] ++ [⟨0, 50, 0, 2, false, 0, 0⟩] ∧ ((s.seqOf 0).pc + sizeAt s 0) % 2 ^ 32 = 50 ∧ (0 ≤ (s.seqOf 0).pc ∧ (s.seqOf 0).pc < 50)) ∧
    (let s := looping ⟨0, 52, 0, 2, false, 0, 0⟩ base; ((s.seqOf 0).pc + sizeAt s 0) % 2 ^ 32 ≠ 52) := by decide +kernel

/-- A stream with an unassigned S0 opcode. -/
def undecoded : State := cored base (fun y => { y with stream := streamWords (0x2B * 2 ^ 376) })

/-- An empty stream. -/
def streamless : State := cored base (fun y => { y with streamBytes := 0, stream := [] })

/-- A REP of the bundle at the counter with two repetitions left; a sequencer to which a software trap is due. -/
def repeating : State := seqd base (fun y => { y with rep := some ⟨2, 1, 0, 0, 0, 0, 1⟩ })
def trapping : State := seqd base (fun y => { y with sync := some ⟨0x32, some 1, false, 5, 0⟩ })

theorem witness_StepRunsDecoded :
    (base.phase = .issue 0 ∧ nextTurn base 0 = some 0 ∧ boundaryTrap base 0 = none ∧ (base.seqOf 0).rep = none ∧ nextTurn base 1 = none ∧
      stands base = false ∧ (startDue base).isNone = true ∧ State.reset.phase = .reads ∧ (readDue base).isNone = true ∧
      (nextInput (working base (fun w => { w with agenda := [(0, .moduleReset)] }))).isSome = true) ∧
    (∃ b, fetchBundle base 0 0 = some (b, 50) ∧ decodeFault b = none) ∧ (fetchBundle undecoded 0 0).isSome = true ∧ fetchBundle streamless 0 0 = none ∧
    (nextTurn repeating 0 = some 0 ∧ (repeating.seqOf 0).rep = some ⟨2, 1, 0, 0, 0, 0, 1⟩ ∧ (fetchBundle repeating 0 0).isSome = true) ∧
    (nextTurn trapping 0 = some 0 ∧ (boundaryTrap trapping 0).isSome = true) :=
  ⟨by decide +kernel, ⟨0, by decide +kernel, by decide +kernel⟩, by decide +kernel, by decide +kernel, by decide +kernel, by decide +kernel⟩

theorem witness_DecodeEncode :
    (Instr.bundleIssue (.sadd ⟨0, 0, 1, 2, 3, 0⟩) (.br ⟨0, 0, 0, 3⟩) (.vand ⟨1, 0, 0, 3, 4, 5, 0⟩) .nop .nop (.mzero ⟨2, 40, 7⟩) (.vld ⟨0, 1, 2, 64⟩) .nop).wf = true :=
  by decide +kernel

theorem witness_CanonicalKept : Canonical base ∧ ∃ t, step base = .next t := ⟨base_canonical, _, rfl⟩

theorem witness_RegisterResultFrame : Instr.sadd ⟨0, 0, 1, 2, 3, 0⟩ ∈ registerForms ⟨0, 0, 1, 2, 3, 0⟩ ⟨0, 0, 0, 0⟩ ⟨0, 0, 0, 0, 0, 0, 0⟩ ⟨0, 0, 0⟩ ∧ Canonical base ∧
    Settled base ∧ (base.seqOf base.cur.q).window = [] ∧ ∃ t, exec (.sadd ⟨0, 0, 1, 2, 3, 0⟩) base = .next t :=
  ⟨List.mem_cons_self, base_canonical, bare rfl rfl, rfl, _, rfl⟩

theorem witness_LaneOperationTraps :
    Room base ∧ Allotted base [0, 1, 511] ∧
    (let s := { base with masks := [(15, ⟨1, true⟩)] }; Room s ∧ ((atV s).mask s 15 0).poison = true) ∧
    (let s := cored base (fun y => { y with allot := [511 * 2 ^ 10, 0, 0, 0] }); Room s ∧ ∃ r ∈ [(511 : BitVec 9)], inAllotment s s.cur.q r.toNat = false) :=
  ⟨base_room, base_allotted, ⟨⟨bare rfl rfl, by decide +kernel⟩, by decide +kernel⟩, ⟨bare rfl rfl, by decide +kernel⟩, 511, by decide, by decide +kernel⟩

theorem witness_FixedPointReversal : Ready (atV base) 0 [0, 1, 511] base ∧ (2 ^ 32 - 1 : Nat) < 2 ^ 32 := ⟨base_ready, by decide⟩

theorem witness_HaltInHandler : Canonical handling ∧ Settled handling ∧ Unpipelined handling ∧ (handling.seqOf handling.cur.q).hnd = true :=
  ⟨by constructor <;> decide +kernel, bare rfl rfl, rfl, rfl⟩

/-! ## Values from the manual's own examples -/

/-- 03 R55: a ring of 3.0, 5.5, 0 and 2.0 gives G = 4.0 = 0x4080. -/
theorem test_scale_example : deriveG (leBytes 8 0 ++ leBytes 4 0x40400000 ++ leBytes 4 0x40B00000 ++ leBytes 4 0 ++ leBytes 4 0x40000000 ++ leBytes 8 0) = 0x4080 := by
  decide +kernel

/-- 07 R160, line 23 of kernel revstream: VICMP.i32 m1, v8, v9, lt with v8 lane i = i and v9 = 4 sets bits 0 to 3 alone. -/
theorem test_vicmp_example :
    (match exec (.vicmpI32 ⟨0, 0, 0, 1, 8, 9, 2⟩) { base with rows := [(8, ⟨BitVec.ofNat 16384 (packDigits 32 (List.range 512)), 0, 0, 0⟩),
        (9, ⟨BitVec.ofNat 16384 (packDigits 32 (List.replicate 512 4)), 0, 0, 0⟩)] } with
     | .next t => (t.work.flights.map (fun f => f.val))
     | _ => []) = [.mask 0xF false] := by decide +kernel

/-- 07 R175: VGLINT over one enabled word adds it times the multiplier. -/
theorem test_vglint_word :
    (match exec (.vglint ⟨1, 0, 0, 2, 6, 0, 0⟩) { base with masks := [(1, ⟨1, false⟩)], rows := [(6, ⟨3, 0, 0, 0⟩)] } with
     | .next t => t.work.flights.map (fun f => f.val)
     | _ => []) = [.word (3 * 0x9E3779B97F4A7C15) false] := by decide +kernel

/-- 07 R162: a sum that leaves the FX32 range wraps, with NX and WRAP at its lane. -/
theorem test_vfxadd_wraps :
    (match exec (.vfxadd ⟨1, 0, 0, 3, 1, 2, 0⟩) { base with masks := [(1, ⟨1, false⟩)], rows := [(1, ⟨0x7FFFFFFF, 0, 0, 0⟩), (2, ⟨1, 0, 0, 0⟩)] } with
     | .next t => (t.work.flights.map (fun f => match f.val with | .rows ws => ws.map (fun w => w.data) | _ => []), t.work.flagPosts.map (fun p => (p.flags.nx, p.flags.wrap, p.flags.ov)))
     | _ => ([], [])) = ([[0x80000000]], [(1, 1, 0)]) := by decide +kernel

/-- 13 R276, R294: an illegal encoding at stream address 0 enters the handler at address 2 with cause 4 and its slot in the frame. -/
theorem test_trap_entry :
    (match exec (.rett ⟨0, 0, 0, 0, 0⟩) base with
     | .next t => ((t.seqOf 0).pc, (t.seqOf 0).hnd, leValue (t.readBytes (.spd 0) (0x3E0000 + 8) 8)) | _ => (0, false, 0)) = (2, true, 4 + 2 ^ 8 + 2 ^ 12) := by
  decide +kernel

/-- 08 R209, R211: a store of the own scratchpad changes its bytes, the least significant first. -/
theorem test_st32 :
    (match exec (.st32 ⟨0, 2, 1, 0⟩) (regs [(1, 0xFF00000000000010), (2, 0xAABBCCDD)]) with
     | .next t => t.readBytes (.spd 0) 0x0F 6 | _ => []) = [0, 0xDD, 0xCC, 0xBB, 0xAA, 0] := by decide +kernel

end Sys2Proof.Tests
end

section
/-! PROOFS. No step refuses, and the one that faults is the stop of a module that stands still and expects nothing. -/

namespace Sys2Proof.Machine

variable {s : State}

/-- A fold whose every step gives a value gives none only where there is no step and nothing to begin with. -/
theorem foldl_eq_none {α β : Type} {f : Option α → β → Option α} (hf : ∀ m x, f m x ≠ none) {l : List β} {m : Option α} :
    l.foldl f m = none ↔ m = none ∧ l = [] := by
  induction l generalizing m with
  | nil => simp
  | cons x l ih => simp [ih, hf]

/-- Some input comes next wherever one is expected. -/
theorem nextInput_eq_none : nextInput s = none ↔ s.work.agenda = [] := by
  rw [nextInput, Option.map_eq_none_iff, foldl_eq_none]
  · simp
  · intro m e
    split
    · split <;> simp
    · simp

/-- An outcome that is a next state. -/
def Continues (o : Host.Outcome State Fault Refusal) : Prop := ∃ t, o = .next t

theorem exec_continues (i : Instr) (s : State) : Continues (exec i s) := by
  obtain ⟨l, h⟩ := exec_next i s
  exact ⟨_, h⟩

theorem readPhase_continues (s : State) : Continues (readPhase s) := by
  rw [readPhase]
  split
  · exact exec_continues _ _
  · exact ⟨_, rfl⟩

theorem closePhase_continues (s : State) : Continues (closePhase s) := by
  rw [closePhase]
  split
  · exact exec_continues _ _
  · exact ⟨_, rfl⟩

theorem seqTurn_continues (s : State) (q : Nat) : Continues (seqTurn s q) := by
  rw [seqTurn]
  split
  · exact exec_continues _ _
  · split <;> split
    · exact ⟨_, rfl⟩
    all_goals exact exec_continues _ _

theorem issuePhase_continues (s : State) (c : Nat) : Continues (issuePhase s c) := by
  rw [issuePhase]
  split
  · exact seqTurn_continues _ _
  · exact ⟨_, rfl⟩

/-- The events phase goes on unless the module stands still and expects nothing. -/
theorem eventPhase_cases (s : State) :
    (stands s = true ∧ s.work.agenda = [] ∧ eventPhase s = .fault .moduleStopped) ∨
    (¬ (stands s = true ∧ s.work.agenda = []) ∧ Continues (eventPhase s)) := by
  rw [eventPhase]
  by_cases h : stands s = true
  · rw [if_pos h]
    cases hn : nextInput s with
    | none => exact .inl ⟨h, nextInput_eq_none.mp hn, rfl⟩
    | some p =>
      refine .inr ⟨fun ha => by simp [nextInput_eq_none.mpr ha.2] at hn, ?_⟩
      by_cases hl : lanternInput p.2 = true
      · simpa [hl] using exec_continues _ _
      · simpa [hl] using ⟨_, done_eq⟩
  · rw [if_neg h]
    refine .inr ⟨fun ha => h ha.1, ?_⟩
    split
    · exact exec_continues _ _
    · exact ⟨_, rfl⟩

/-- What a step can come to: the next state, or the one stop. -/
theorem step_cases (s : State) :
    (s.phase = .events ∧ stands s = true ∧ s.work.agenda = [] ∧ step s = .fault .moduleStopped) ∨
    (¬ (s.phase = .events ∧ stands s = true ∧ s.work.agenda = []) ∧ Continues (step s)) := by
  rw [step]
  cases h : s.phase with
  | reads => exact .inr ⟨by simp, readPhase_continues s⟩
  | events => simpa using eventPhase_cases s
  | issue c => exact .inr ⟨by simp, issuePhase_continues s c⟩
  | close => exact .inr ⟨by simp, closePhase_continues s⟩

/-- Settles O55, by what a step can come to in each of its phases. -/
theorem stepGoesOn : Obligations.StepGoesOn := by
  intro s
  obtain ⟨hp, hs, ha, h⟩ | ⟨hn, t, h⟩ := step_cases s
  · simp [h, hp, hs, ha]
  · refine ⟨by simp [h], fun f => ?_⟩
    simpa [h] using fun hp hs ha => hn ⟨hp, hs, ha⟩

end Sys2Proof.Machine
end

section
/-! PROOFS. What holds after a list of micro-operations: what all of them keep, and what one of them brings about and the others keep. -/

namespace Sys2Proof.Machine

namespace SMap

variable {α : Type} {d v : α} {m : SMap α} {a b n : Nat}

/-- A value other than the default reads back from any map, canonical or not. -/
theorem get_set_of_ne [DecidableEq α] (h : v ≠ d) : get d (set d m a v) a = v := by
  induction m with
  | nil => simp [set, h, get]
  | cons e m ih =>
    obtain ⟨k, w⟩ := e
    simp only [set, if_neg h]
    split
    · simp [get]
    · split
      · simp [get]
      · rename_i hk
        rw [get_cons, if_neg hk, ih]

/-- A key that reads as another value than the default is listed with it. -/
theorem mem_of_get_ne (h : get d m a ≠ d) : (a, get d m a) ∈ m := by
  induction m with
  | nil => exact absurd rfl h
  | cons e m ih =>
    by_cases ha : a = e.1
    · subst ha
      simp [get_cons]
    · rw [get_cons, if_neg ha] at h ⊢
      exact List.mem_cons_of_mem _ (ih h)

/-- Inside the keys cleared a map reads as the default. -/
theorem get_clear_inside (h : a ≤ b ∧ b < a + n) : get d (clear m a n) b = d := by rw [get_clear, if_pos h]

/-- What reads as the default does so after any clearing. -/
theorem get_clear_default (h : get d m b = d) : get d (clear m a n) b = d := by
  rw [get_clear, h, ite_self]

end SMap

variable {s : State} {l : List Act}

/-- What every micro-operation of a list leaves as it was, the list leaves as it was. -/
theorem applyActs_keeps {β : Type} {p : State → β} {l : List Act} (keep : ∀ a ∈ l, ∀ t, p (applyAct a t) = p t) (s : State) :
    p (applyActs l s) = p s := by
  induction l generalizing s with
  | nil => rfl
  | cons x l ih =>
    rw [applyActs_cons, ih (fun a ha => keep a (List.mem_cons_of_mem _ ha)), keep x List.mem_cons_self]

/-- A property that every micro-operation of a list keeps holds after the list. -/
theorem applyActs_holds {P : State → Prop} (hs : Canonical s) (hP : P s)
    (keep : ∀ a ∈ l, ∀ t, Canonical t → P t → P (applyAct a t)) : P (applyActs l s) := by
  induction l generalizing s with
  | nil => exact hP
  | cons x l ih =>
    exact ih (applyAct_canonical hs x) (keep x List.mem_cons_self s hs hP) (fun a ha => keep a (List.mem_cons_of_mem _ ha))

/-- A property that one micro-operation of a list brings about and that all of them keep holds after the list. -/
theorem applyActs_holds_of_mem {P : State → Prop} {b : Act} (hs : Canonical s) (hb : b ∈ l) (own : ∀ t, Canonical t → P (applyAct b t))
    (keep : ∀ a ∈ l, ∀ t, Canonical t → P t → P (applyAct a t)) : P (applyActs l s) := by
  induction l generalizing s with
  | nil => exact absurd hb List.not_mem_nil
  | cons x l ih =>
    have keep' : ∀ a ∈ l, ∀ t, Canonical t → P t → P (applyAct a t) := fun a ha => keep a (List.mem_cons_of_mem _ ha)
    obtain rfl | hb := List.mem_cons.mp hb
    · rw [applyActs_cons]
      exact applyActs_holds (applyAct_canonical hs _) (own s hs) keep'
    · exact ih (applyAct_canonical hs x) hb keep'

theorem applyActs_bump (l : List Act) (s : State) : applyActs (l ++ [bump]) s = applyAct bump (applyActs l s) := applyActs_append

end Sys2Proof.Machine
end
section
/-! PROOFS. The function reset (18 R351 to R357, 19 R370): its beginning, the end of its drain, its scrub. -/

namespace Sys2Proof.Machine

variable {s t u : State} {v c q i : Nat} {a : Act}

/-! The cores of a function. -/

/-- A core that a function other than the PF holds is listed among that function's. -/
theorem mem_coresOf_of_fnOf (hv : 1 ≤ v) (h : s.fnOf c = v) : c ∈ coresOf s v := by
  have hne : SMap.get {} s.cores c ≠ {} := fun h0 => by
    rw [State.fnOf, State.coreOf, h0] at h
    exact absurd h (by simp; omega)
  rw [coresOf, List.mem_map]
  exact ⟨_, List.mem_filter.mpr ⟨SMap.mem_of_get_ne hne, by simpa [State.fnOf, State.coreOf] using h⟩, rfl⟩

/-! The fence. -/

/-- The micro-operations of a fence. -/
inductive FenceAct : Act → Prop
  | seq (q : Nat) : FenceAct (.seq q (fun _ => {}))
  | core (c : Nat) (f : Core → Core) (h : ∀ y, (f y).owner = none ∧ ∀ x ∈ (f y).queues, x.launch = none) : FenceAct (.core c f)
  | work (f : Work → Work) : FenceAct (.work f)
  | chip (f : Chip → Chip) : FenceAct (.chip f)
  | forget (k : Nat) : FenceAct (.forget k)

theorem fenceActs_kinds (h : a ∈ fenceActs s v ++ [bump]) : FenceAct a := by
  simp only [fenceActs, List.mem_append, List.mem_flatMap, List.mem_map, List.mem_cons, List.not_mem_nil, or_false] at h
  obtain (⟨c, -, (⟨i, -, rfl⟩ | rfl) | rfl | ⟨n, -, rfl⟩⟩ | rfl | rfl | rfl) | rfl := h
  · exact .seq _
  · refine .core _ _ fun y => ⟨rfl, fun x hx => ?_⟩
    obtain ⟨z, -, rfl⟩ := List.mem_map.mp hx
    rfl
  · exact .work _
  · exact .forget _
  · exact .work _
  · exact .chip _
  · exact .chip _
  · exact .work _

/-- A core that no queue of its own has a launch for and that nobody owns. -/
def CoreFree (c : Nat) (t : State) : Prop := (t.coreOf c).owner = none ∧ ∀ x ∈ (t.coreOf c).queues, x.launch = none

theorem CoreFree.of_core (ht : Canonical t) {f : Core → Core} (h : ∀ y, (f y).owner = none ∧ ∀ x ∈ (f y).queues, x.launch = none) :
    CoreFree c (applyAct (.core c f) t) := by
  rw [CoreFree, coreOf_core_same ht.cores]
  exact h _

theorem FenceAct.keeps_coreFree (h : FenceAct a) (ht : Canonical t) (hP : CoreFree c t) : CoreFree c (applyAct a t) := by
  cases h with
  | core d f hf =>
    by_cases hd : c = d
    · subst hd
      exact .of_core ht hf
    · rw [CoreFree, coreOf_core_other hd]
      exact hP
  | _ => exact hP

/-- The fence frees every core of the function. -/
theorem fence_coreFree (hs : Canonical s) (hc : c ∈ coresOf s v) : CoreFree c (applyActs (fenceActs s v ++ [bump]) s) := by
  refine applyActs_holds_of_mem (b := .core c fun y => { y with queues := y.queues.map Queue.freed, owner := none, switching := none, idleUntil := none })
    hs ?_ (fun t ht => .of_core ht ?_) (fun a ha t ht => (fenceActs_kinds ha).keeps_coreFree ht)
  · simp only [fenceActs, List.mem_append, List.mem_flatMap]
    exact .inl (.inl ⟨c, hc, .inl (.inr (List.mem_singleton.mpr rfl))⟩)
  · refine fun y => ⟨rfl, fun x hx => ?_⟩
    obtain ⟨z, -, rfl⟩ := List.mem_map.mp hx
    rfl

/-- The fence leaves every sequencer of the function's cores as after reset. -/
theorem fence_seqOf (hs : Canonical s) (hc : c ∈ coresOf s v) (hi : i < 4) : (applyActs (fenceActs s v ++ [bump]) s).seqOf (4 * c + i) = {} := by
  refine applyActs_holds_of_mem (P := fun t => t.seqOf (4 * c + i) = {}) (b := .seq (4 * c + i) fun _ => {}) hs ?_
    (fun t ht => seqOf_seq_same ht.seqs) (fun a ha t ht hP => ?_)
  · simp only [fenceActs, List.mem_append, List.mem_flatMap, List.mem_map]
    exact .inl (.inl ⟨c, hc, .inl (.inl ⟨i, List.mem_range.mpr hi, rfl⟩)⟩)
  · cases fenceActs_kinds ha with
    | seq q =>
      by_cases hq : 4 * c + i = q
      · subst hq
        exact seqOf_seq_same ht.seqs
      · rw [seqOf_seq_other hq, hP]
    | _ => exact hP

/-- The fence changes no byte of memory. -/
theorem fence_sameMemory (hs : Canonical s) : SameMemory s (applyActs (fenceActs s v ++ [bump]) s) := by
  refine applyActs_holds hs (fun h x => rfl) (fun a ha t _ hP h x => ?_)
  rw [← hP]
  cases fenceActs_kinds ha <;> rfl

/-- An engine's read that the fence puts among the accesses is a load whose data are lost (R353). -/
theorem engineReads_dropped {a : Access} (h : a ∈ engineReads s v) : a.kind = .load ∧ a.lost = true ∧ a.flight = none := by
  rw [engineReads, List.mem_append] at h
  obtain h | h := h
  · simp only [List.mem_flatMap, List.mem_map] at h
    obtain ⟨y, -, k, -, rfl⟩ := h
    exact ⟨rfl, rfl, rfl⟩
  · obtain ⟨e, -, he⟩ := List.mem_filterMap.mp h
    split at he
    · obtain ⟨-, rfl⟩ := by simpa only [Option.ite_none_right_eq_some, Option.some.injEq] using he
      exact ⟨rfl, rfl, rfl⟩
    · simp at he

/-- What the fence leaves of the function's work: nothing but loads whose data are lost (R353; log 55). -/
structure WorkDropped (s : State) (v : Nat) (t : State) : Prop where
  launches : ∀ l ∈ t.work.launches, l.fn ≠ v
  commands : ∀ y ∈ t.work.commands, y.fn ≠ v
  copies : ∀ y ∈ t.work.copies, y.fn ≠ v
  elements : ∀ x ∈ t.chip.elements, x.fn ≠ v
  accesses : ∀ a ∈ t.work.accesses, a.fn = v → a.kind = .load ∧ a.lost = true ∧ a.flight = none
  flights : ∀ f ∈ t.work.flights, s.fnOf (f.q / 4) ≠ v

theorem fence_workDropped (hv : 1 ≤ v) : WorkDropped s v (applyActs (fenceActs s v ++ [bump]) u) := by
  simp only [fenceActs, applyActs_append, applyActs_cons, applyActs_nil, applyAct_bump, applyAct_work, applyAct_chip, modVfr]
  constructor
  · intro l hl
    simpa using (List.mem_filter.mp hl).2
  · intro y hy
    simpa using (List.mem_filter.mp hy).2
  · intro y hy
    simpa using (List.mem_filter.mp hy).2
  · intro x hx
    simpa using (List.mem_filter.mp hx).2
  · intro a ha hfn
    obtain ha | ha := List.mem_append.mp ha
    · obtain ⟨b, hb, rfl⟩ := List.mem_map.mp ha
      have hk := (List.mem_filter.mp hb).2
      by_cases hbv : b.fn = v
      · simpa [hbv] using hk
      · simp [hbv] at hfn
    · obtain ⟨n, hn, rfl⟩ := List.mem_mapIdx.mp ha
      exact engineReads_dropped (a := (engineReads s v)[n]) (List.getElem_mem hn)
  · intro f hf hfn
    have hq := (List.mem_filter.mp hf).2
    simp [mem_coresOf_of_fnOf hv hfn] at hq

/-- The state of a module whose reset of function v has begun: its cores stand free, its work and what it sent are gone, and memory is as it
was (R352 step 1, R353). -/
def FlrBegun (s : State) (v : Nat) (t : State) : Prop :=
  (∀ c ∈ coresOf s v, (t.coreOf c).owner = none ∧ (∀ i, i < 4 → t.seqOf (4 * c + i) = {}) ∧ ∀ q ∈ (t.coreOf c).queues, q.launch = none) ∧
    (∀ l ∈ t.work.launches, l.fn ≠ v) ∧ (∀ y ∈ t.work.commands, y.fn ≠ v) ∧ (∀ y ∈ t.work.copies, y.fn ≠ v) ∧ (∀ x ∈ t.chip.elements, x.fn ≠ v) ∧
    (∀ a ∈ t.work.accesses, a.fn = v → a.kind = .load ∧ a.lost = true ∧ a.flight = none) ∧ (∀ f ∈ t.work.flights, s.fnOf (f.q / 4) ≠ v) ∧ SameMemory s t

theorem fence_begun (hs : Canonical s) (hv : 1 ≤ v) : FlrBegun s v (applyActs (fenceActs s v ++ [bump]) s) := by
  obtain ⟨hl, hc, hy, he, ha, hf⟩ := fence_workDropped (s := s) (u := s) hv
  exact ⟨fun c hc => ⟨(fence_coreFree hs hc).1, fun i hi => fence_seqOf hs hc hi, (fence_coreFree hs hc).2⟩, hl, hc, hy, he, ha, hf, fence_sameMemory hs⟩

/-- The writes of a function that reach their home in this cycle (R357). -/
def dueWrites (s : State) (v : Nat) : List Access :=
  s.work.accesses.filter (fun a => a.fn = v && !a.performed && a.kind.writes && a.at_ ≤ s.cyc && !a.trans.isOpen)

/-- What performs them. -/
def dueActs (s : State) (v : Nat) : List Act := bringForward (s.work.accesses.length + 1) ((dueWrites s v).map (fun a => a.id)) s

theorem dueActs_nil (h : dueWrites s v = []) : dueActs s v = [] := by rw [dueActs, h]; rfl

theorem flrActs_eq : flrActs s v = dueActs s v ++ fenceActs (applyActs (dueActs s v) s) v := rfl

theorem exec_vfFlr : exec (.vfFlr v) s = performs (if flrBegins s v then flrActs s v else []) s := rfl

theorem exec_containmentFlr : exec (.containmentFlr v) s = performs (if containDue s v then flrActs s v else []) s := rfl

theorem flr_begun (hs : Canonical s) (hv : 1 ≤ v) (hd : dueWrites s v = []) : ∃ t, performs (flrActs s v) s = .next t ∧ FlrBegun s v t := by
  refine ⟨_, rfl, ?_⟩
  rw [flrActs_eq, dueActs_nil hd]
  exact fence_begun hs hv

theorem vfFlr_begun (hs : Canonical s) (hv : 1 ≤ v) (hb : flrBegins s v = true) (hd : dueWrites s v = []) :
    ∃ t, exec (.vfFlr v) s = .next t ∧ FlrBegun s v t := by
  rw [exec_vfFlr, if_pos hb]
  exact flr_begun hs hv hd

theorem containmentFlr_begun (hs : Canonical s) (hv : 1 ≤ v) (hb : containDue s v = true) (hd : dueWrites s v = []) :
    ∃ t, exec (.containmentFlr v) s = .next t ∧ FlrBegun s v t := by
  rw [exec_containmentFlr, if_pos hb]
  exact flr_begun hs hv hd

/-! The end of the drain. -/

/-- The reads of a function that have not performed. -/
def openReads (s : State) (v : Nat) : List Access :=
  s.work.accesses.filter (fun a => a.fn = v && !a.performed && a.kind = .load && !a.trans.isOpen)

/-- The step of a reset's status to the scrub, at which its cycles are chosen (R351, R352). -/
def VfReset.toScrub (s : State) (r : VfReset) : VfReset :=
  let u := s.cyc + 1 + s.choice 0 % max 1 (r.start + 100000 - s.cyc)
  { r with step := 3, until_ := u, four := s.cyc + 1 + s.choice 1 % (u - s.cyc) }

/-- What the end of a drain drops once the reads have performed. -/
def drainDrops (s : State) (v : Nat) : List Act :=
  [.work (fun w => { w with accesses := w.accesses.filter (fun a => a.fn ≠ v), walks := w.walks.filter (fun w => w.fn ≠ v) }),
   .chip (fun h => (h.dropSent v true).untag v), modVfr v (VfReset.toScrub s)]

theorem exec_flrDrainComplete (h : drainDone s v = true) : exec (.flrDrainComplete v) s =
    performs (bringForward (s.work.accesses.length + 1) ((openReads s v).map (fun a => a.id)) s ++ drainDrops s v) s := by
  have : exec (.flrDrainComplete v) s = performs (drainDoneActs s v) s := rfl
  rw [this, drainDoneActs, if_pos h]
  rfl

/-- The cycles chosen lie after this one, the scrub's start before its end, and the end within 100 µs of the reset's begin. -/
theorem toScrub_cycles (s : State) (r : VfReset) : s.cyc < (r.toScrub s).until_ ∧
    (s.cyc < r.start + 100000 → (r.toScrub s).until_ ≤ r.start + 100000) ∧ s.cyc < (r.toScrub s).four ∧ (r.toScrub s).four ≤ (r.toScrub s).until_ := by
  have hu := Nat.mod_lt (s.choice 0) (show 0 < max 1 (r.start + 100000 - s.cyc) by omega)
  have hf := Nat.mod_lt (s.choice 1) (show 0 < s.cyc + 1 + s.choice 0 % max 1 (r.start + 100000 - s.cyc) - s.cyc by omega)
  simp only [VfReset.toScrub]
  omega

/-- The status of function v after the drain's end. -/
theorem drain_vfReset : (applyActs (drainDrops s v ++ [bump]) s).chip.vfReset v = (s.chip.vfReset v).toScrub s := by
  have h : (s.chip.vfReset v).toScrub s ≠ {} := fun h => by simpa [VfReset.toScrub] using congrArg VfReset.step h
  exact SMap.get_set_of_ne h

theorem drain_sameStores : SameStores s (applyActs (drainDrops s v ++ [bump]) s) := by
  simp [SameStores, drainDrops, modVfr]

theorem drain_dropped : (∀ a ∈ (applyActs (drainDrops s v ++ [bump]) s).work.accesses, a.fn ≠ v) ∧
    ∀ w ∈ (applyActs (drainDrops s v ++ [bump]) s).work.walks, w.fn ≠ v := by
  simp [drainDrops, modVfr]

/-! The scrub. -/

/-- The micro-operations of a scrub. -/
inductive ScrubAct : Act → Prop
  | clearCore (c : Nat) : ScrubAct (.clearCore c)
  | clearSeq (q : Nat) : ScrubAct (.clearSeq q)
  | seq (q : Nat) : ScrubAct (.seq q (fun _ => {}))
  | core (c : Nat) (f : Core → Core) (h : ∀ y, (f y).mapFn = y.mapFn) : ScrubAct (.core c f)
  | sye (d a n : Nat) : ScrubAct (.wipe (.sye d) a n)
  | hbm (a n : Nat) : ScrubAct (.wipe .hbm a n)
  | chip (f : Chip → Chip) : ScrubAct (.chip f)
  | work (f : Work → Work) : ScrubAct (.work f)

theorem granulePlace_cases (d g : Nat) : (∃ a, granulePlace s d g = (.sye d, a)) ∨ ∃ a, granulePlace s d g = (.hbm, a) := by
  rw [granulePlace]
  split
  · exact .inl ⟨_, rfl⟩
  · exact .inr ⟨_, rfl⟩

/-- The scrub's micro-operations, in a reset that has come to its end. -/
def scrubList (s : State) (v : Nat) : List Act :=
  (coresOf s v).flatMap scrubCore ++ scrubModule s v ++ [modVfr v (fun r => { r with busy := false, step := 5 })]

theorem exec_flrScrubComplete (h : scrubDone s v = true) : exec (.flrScrubComplete v) s = performs (scrubList s v) s := by
  have : exec (.flrScrubComplete v) s = performs (scrubActs s v) s := rfl
  rw [this, scrubActs, if_pos h]
  rfl

theorem scrubCore_kinds (h : a ∈ scrubCore c) : ScrubAct a := by
  simp only [scrubCore, List.mem_append, List.mem_flatMap, List.mem_cons, List.not_mem_nil, or_false] at h
  obtain (rfl | ⟨i, -, rfl | rfl⟩) | rfl := h
  · exact .clearCore _
  · exact .clearSeq _
  · exact .seq _
  · exact .core _ _ fun _ => rfl

theorem scrubList_kinds (h : a ∈ scrubList s v ++ [bump]) : ScrubAct a := by
  simp only [scrubList, scrubModule, List.mem_append, List.mem_flatMap, List.mem_map, List.mem_singleton] at h
  obtain ((⟨c, -, h⟩ | ⟨g, -, rfl⟩ | rfl) | rfl) | rfl := h
  · exact scrubCore_kinds h
  · obtain ⟨b, hb⟩ | ⟨b, hb⟩ := granulePlace_cases (s := s) g.1 g.2
    · simpa only [hb] using ScrubAct.sye g.1 b _
    · simpa only [hb] using ScrubAct.hbm b _
  · exact .chip _
  · exact .chip _
  · exact .work _

theorem mem_scrubList (hc : c ∈ coresOf s v) (h : a ∈ scrubCore c) : a ∈ scrubList s v ++ [bump] := by
  simp only [scrubList, List.mem_append, List.mem_flatMap]
  exact .inl (.inl (.inl ⟨c, hc, h⟩))

/-- The registers of sequencer q read as after reset. -/
structure FilesClear (q : Nat) (t : State) : Prop where
  scalars : ∀ k, k < 64 → SMap.get {} t.scalars (64 * q + k) = {}
  masks : ∀ k, k < 16 → SMap.get {} t.masks (16 * q + k) = {}
  glints : ∀ k, k < 4 → SMap.get {} t.glints (4 * q + k) = {}
  laneFlags : ∀ k, k < 24 → SMap.get 0 t.laneFlags (24 * q + k) = 0

theorem clearSeq_filesClear (q : Nat) (t : State) : FilesClear q (applyAct (.clearSeq q) t) := by
  constructor <;> exact fun k hk => SMap.get_clear_inside ⟨by omega, by omega⟩

theorem ScrubAct.keeps_filesClear (h : ScrubAct a) (hP : FilesClear q t) : FilesClear q (applyAct a t) := by
  obtain ⟨h1, h2, h3, h4⟩ := hP
  cases h with
  | clearSeq r =>
    exact ⟨fun k hk => SMap.get_clear_default (h1 k hk), fun k hk => SMap.get_clear_default (h2 k hk),
      fun k hk => SMap.get_clear_default (h3 k hk), fun k hk => SMap.get_clear_default (h4 k hk)⟩
  | _ => exact ⟨h1, h2, h3, h4⟩

/-- The stores of core c read as after reset. -/
structure StoresClear (c : Nat) (t : State) : Prop where
  rows : ∀ n, n < 512 → t.rowOf c n = {}
  mps : ∀ n, n < 8 → SMap.get 0 t.mps (8 * c + n) = 0
  ths : ∀ n, n < 64 → SMap.get 0 t.ths (64 * c + n) = 0
  tags : ∀ n, n < 1024 → SMap.get 0 t.tags (1024 * c + n) = 0
  dict : ∀ n, n < 4096 → SMap.get 0 t.dict (4096 * c + n) = 0
  ucode : ∀ n, n < 4096 → SMap.get 0 t.ucode (4096 * c + n) = 0
  routines : ∀ n, n < 256 → SMap.get 0 t.routines (256 * c + n) = 0
  cht : ∀ n, n < 256 → SMap.get 0 t.cht (256 * c + n) = 0
  ptt : ∀ n, n < 1024 → SMap.get {} t.ptt (1024 * c + n) = {}
  spd : ∀ b, b < 2 ^ 22 → t.readByte (.spd c) b = 0
  bos : ∀ b, b < 2 ^ 21 → t.readByte (.bos c) b = 0

theorem clearCore_storesClear (c : Nat) (t : State) : StoresClear c (applyAct (.clearCore c) t) := by
  constructor
  case spd => exact fun b hb => SMap.get_clear_inside ⟨Nat.le_add_right _ _, Nat.add_lt_add_left hb _⟩
  case bos => exact fun b hb => SMap.get_clear_inside ⟨Nat.le_add_right _ _, Nat.add_lt_add_left hb _⟩
  all_goals exact fun n hn => SMap.get_clear_inside ⟨Nat.le_add_right _ _, Nat.add_lt_add_left hn _⟩

theorem ScrubAct.keeps_storesClear (h : ScrubAct a) (hP : StoresClear c t) : StoresClear c (applyAct a t) := by
  cases h with
  | clearCore d =>
    constructor
    case rows => exact fun n hn => SMap.get_clear_default (hP.rows n hn)
    case mps => exact fun n hn => SMap.get_clear_default (hP.mps n hn)
    case ths => exact fun n hn => SMap.get_clear_default (hP.ths n hn)
    case tags => exact fun n hn => SMap.get_clear_default (hP.tags n hn)
    case dict => exact fun n hn => SMap.get_clear_default (hP.dict n hn)
    case ucode => exact fun n hn => SMap.get_clear_default (hP.ucode n hn)
    case routines => exact fun n hn => SMap.get_clear_default (hP.routines n hn)
    case cht => exact fun n hn => SMap.get_clear_default (hP.cht n hn)
    case ptt => exact fun n hn => SMap.get_clear_default (hP.ptt n hn)
    case spd => exact fun b hb => SMap.get_clear_default (hP.spd b hb)
    case bos => exact fun b hb => SMap.get_clear_default (hP.bos b hb)
  | _ => exact { hP with }

theorem scrub_filesClear (hs : Canonical s) (hc : c ∈ coresOf s v) (hi : i < 4) :
    FilesClear (4 * c + i) (applyActs (scrubList s v ++ [bump]) s) := by
  refine applyActs_holds_of_mem (b := .clearSeq (4 * c + i)) hs (mem_scrubList hc ?_) (fun t _ => clearSeq_filesClear _ t)
    (fun a ha t _ => (scrubList_kinds ha).keeps_filesClear)
  simp only [scrubCore, List.mem_cons, List.mem_append, List.mem_flatMap]
  exact .inl (.inr ⟨i, List.mem_range.mpr hi, .inl rfl⟩)

theorem scrub_storesClear (hs : Canonical s) (hc : c ∈ coresOf s v) : StoresClear c (applyActs (scrubList s v ++ [bump]) s) :=
  applyActs_holds_of_mem (b := .clearCore c) hs (mem_scrubList hc List.mem_cons_self) (fun t _ => clearCore_storesClear c t)
    (fun _ ha _ _ => (scrubList_kinds ha).keeps_storesClear)

theorem scrub_seqOf (hs : Canonical s) (hc : c ∈ coresOf s v) (hi : i < 4) : (applyActs (scrubList s v ++ [bump]) s).seqOf (4 * c + i) = {} := by
  refine applyActs_holds_of_mem (P := fun t => t.seqOf (4 * c + i) = {}) (b := .seq (4 * c + i) fun _ => {}) hs (mem_scrubList hc ?_)
    (fun t ht => seqOf_seq_same ht.seqs) (fun a ha t ht hP => ?_)
  · simp only [scrubCore, List.mem_cons, List.mem_append, List.mem_flatMap]
    exact .inl (.inr ⟨i, List.mem_range.mpr hi, .inr (.inl rfl)⟩)
  · cases scrubList_kinds ha with
    | seq q =>
      by_cases hq : 4 * c + i = q
      · subst hq
        exact seqOf_seq_same ht.seqs
      · rw [seqOf_seq_other hq, hP]
    | _ => exact hP

/-- The scrub leaves every core with its function. -/
theorem scrub_mapFn (hs : Canonical s) : ((applyActs (scrubList s v ++ [bump]) s).coreOf c).mapFn = (s.coreOf c).mapFn := by
  refine applyActs_holds (P := fun t => (t.coreOf c).mapFn = (s.coreOf c).mapFn) hs rfl (fun a ha t ht hP => ?_)
  cases scrubList_kinds ha with
  | core d f hf =>
    by_cases hd : c = d
    · subst hd
      rw [coreOf_core_same ht.cores, hf, hP]
    · rw [coreOf_core_other hd, hP]
  | _ => exact hP

/-- A core of the function after its scrub (R354). -/
structure CoreScrubbed (s : State) (c : Nat) (t : State) : Prop where
  files : ∀ i, i < 4 → FilesClear (4 * c + i) t
  stores : StoresClear c t
  seqs : ∀ i, i < 4 → t.seqOf (4 * c + i) = {}
  mapFn : (t.coreOf c).mapFn = (s.coreOf c).mapFn

theorem scrub_core (hs : Canonical s) (hc : c ∈ coresOf s v) : CoreScrubbed s c (applyActs (scrubList s v ++ [bump]) s) :=
  ⟨fun _ hi => scrub_filesClear hs hc hi, scrub_storesClear hs hc, fun _ hi => scrub_seqOf hs hc hi, scrub_mapFn hs⟩

section ByCore

variable {k : Nat} (h : CoreScrubbed s c t)

include h

/-! The registers of a core, numbered over its four sequencers. -/

theorem CoreScrubbed.scalars (hk : k < 256) : SMap.get {} t.scalars (256 * c + k) = {} := by
  have := (h.files (k / 64) (by omega)).scalars (k % 64) (by omega)
  rwa [show 64 * (4 * c + k / 64) + k % 64 = 256 * c + k by omega] at this

theorem CoreScrubbed.masks (hk : k < 64) : SMap.get {} t.masks (64 * c + k) = {} := by
  have := (h.files (k / 16) (by omega)).masks (k % 16) (by omega)
  rwa [show 16 * (4 * c + k / 16) + k % 16 = 64 * c + k by omega] at this

theorem CoreScrubbed.glints (hk : k < 16) : SMap.get {} t.glints (16 * c + k) = {} := by
  have := (h.files (k / 4) (by omega)).glints (k % 4) (by omega)
  rwa [show 4 * (4 * c + k / 4) + k % 4 = 16 * c + k by omega] at this

theorem CoreScrubbed.laneFlags (hk : k < 96) : SMap.get 0 t.laneFlags (96 * c + k) = 0 := by
  have := (h.files (k / 24) (by omega)).laneFlags (k % 24) (by omega)
  rwa [show 24 * (4 * c + k / 24) + k % 24 = 96 * c + k by omega] at this

end ByCore

/-! The module's registers after a scrub. -/

/-- What the scrub does to the cores and to the granules of a function leaves the module's own registers. -/
theorem scrubStores_chip {gs : List (Nat × Nat)} {l : List Nat} {p : Nat × Nat → Home × Nat} :
    (applyActs (l.flatMap scrubCore ++ gs.map (fun g => .wipe (p g).1 (p g).2 Config.granule)) t).chip = t.chip := by
  refine applyActs_keeps (p := State.chip) (fun a ha t => ?_) t
  simp only [scrubCore, List.mem_append, List.mem_flatMap, List.mem_map, List.mem_cons, List.not_mem_nil, or_false] at ha
  obtain ⟨c, -, (rfl | ⟨i, -, rfl | rfl⟩) | rfl⟩ | ⟨g, -, rfl⟩ := ha
  case inr => exact setMem_chip
  all_goals rfl

/-- The module's registers after the scrub of function v, which owned the granules gs (R352 step 4). -/
def Chip.scrubbed (h : Chip) (v : Nat) (gs : List (Nat × Nat)) : Chip :=
  let entries := (h.ranges.filter (fun e => rangeField e.2 4 5 = v)).map (fun e => e.1)
  { (h.dropTlb v 0 (2 ^ 64)) with
    ranges := h.ranges.filter (fun e => !entries.contains e.1), moving := h.moving.filter (fun m => !entries.contains m.1)
    roots := SMap.set 0 h.roots v 0, rings := SMap.set {} h.rings v {}
    msixTable := h.msixTable.filter (fun e => e.1 / 256 ≠ v), msixPending := h.msixPending.filter (fun e => e.1 ≠ v)
    trees := h.trees.filter (fun t => !gs.contains (t.1 / 2 ^ 40, t.1 % 2 ^ 40 / Config.granule)) }

theorem scrubModule_eq : scrubModule s v = (ownedGranules s v).map (fun g => .wipe (granulePlace s g.1 g.2).1 (granulePlace s g.1 g.2).2 Config.granule) ++
    [.chip (fun h => h.scrubbed v (ownedGranules s v))] := rfl

/-- No range entry of the function is left (R352 step 4). -/
theorem scrubbed_ranges (h : Chip) (v : Nat) (gs : List (Nat × Nat)) {n : Nat} {e : BitVec 192}
    (he : (n, e) ∈ (h.scrubbed v gs).ranges) : rangeField e 4 5 ≠ v := by
  intro hv
  obtain ⟨hm, hn⟩ := List.mem_filter.mp he
  have hne : ∀ x, (n, x) ∈ h.ranges → rangeField x 4 5 ≠ v := by simpa using hn
  exact hne e hm hv

/-- The part of a scrub that clears the stores of cores and granules, apart from what it does to the module's own registers. -/
def scrubStores (s : State) (v : Nat) : List Act :=
  (coresOf s v).flatMap scrubCore ++ (ownedGranules s v).map (fun g => .wipe (granulePlace s g.1 g.2).1 (granulePlace s g.1 g.2).2 Config.granule)

theorem scrubList_eq : scrubList s v ++ [bump] = scrubStores s v ++
    [.chip (fun h => h.scrubbed v (ownedGranules s v)), modVfr v (fun r => { r with busy := false, step := 5 }), bump] := by
  rw [scrubList, scrubModule_eq, scrubStores]
  simp only [List.append_assoc, List.cons_append, List.nil_append]

/-- The module's registers after a scrub. -/
theorem scrub_chip : (applyActs (scrubList s v ++ [bump]) s).chip =
    { s.chip.scrubbed v (ownedGranules s v) with vfr := SMap.set {} s.chip.vfr v { s.chip.vfReset v with busy := false, step := 5 } } := by
  have tail : ∀ t gs, (applyActs [.chip (fun h => h.scrubbed v gs), modVfr v (fun r => { r with busy := false, step := 5 }), bump] t).chip =
      { t.chip.scrubbed v gs with vfr := SMap.set {} t.chip.vfr v { t.chip.vfReset v with busy := false, step := 5 } } := fun _ _ => rfl
  rw [scrubList_eq, applyActs_append, tail, scrubStores, scrubStores_chip]

end Sys2Proof.Machine
end

section
/-! PROOFS. The core fatal fault, which ends the launch that runs on its core (13 R291, R300, 19 R363). -/

namespace Sys2Proof.Machine

variable {s t : State} {c n : Nat} {a : Act} {l : Launch}

/-! The log. -/

@[simp] theorem raise_log (h : Chip) (fn vec : Nat) : (h.raise fn vec).log = h.log := by
  simp only [Chip.raise, apply_ite Chip.log, ite_self]

/-- A posted event is put into the log, whose oldest record is lost when it is full (R360, R372). -/
theorem post_log {h : Chip} {k : Nat} {p : Posted} : (h.post k p).log = (logInsert h.log p).drop (h.log.length + 1 - 4096) := by
  simp only [Chip.post, apply_ite Chip.log, ite_self]

theorem applyAct_post_log {code fn place addr info : Nat} : (applyAct (post s code fn place addr info) t).chip.log =
    (logInsert t.chip.log ⟨s.gtime, code, fn, place, addr, info⟩).drop (t.chip.log.length + 1 - 4096) := by
  simp only [post, applyAct_chip, post_log]

theorem coreOf_chip {f : Chip → Chip} : (applyAct (.chip f) t).coreOf c = t.coreOf c := rfl
theorem work_chip {f : Chip → Chip} : (applyAct (.chip f) t).work = t.work := rfl

/-! The end of a launch on a core. -/

/-- Core c is no longer among those on which launch l, one of ks, is still to end. -/
def Ended (l : Launch) (c : Nat) (ks : List Launch) : Prop := ∀ k ∈ ks, k.id = l.id → c ∉ k.remaining

/-- The micro-operations of a launch's end but for the event: they leave the log, free cores only, and bring back no core of the launch. -/
inductive EndAct (l : Launch) (c : Nat) : Act → Prop
  | seq (q : Nat) (f : Seq → Seq) : EndAct l c (.seq q f)
  | core (d : Nat) (f : Core → Core) (h : ∀ y, y.owner = none → (f y).owner = none) : EndAct l c (.core d f)
  | host (b : Nat) (bs : List Byte) (ps : List Bool) : EndAct l c (.write .host b bs ps)
  | chip (f : Chip → Chip) (h : ∀ k, (f k).log = k.log) : EndAct l c (.chip f)
  | work (f : Work → Work) (h : ∀ w, Ended l c w.launches → Ended l c (f w).launches) : EndAct l c (.work f)

theorem EndAct.keeps_log (h : EndAct l c a) (t : State) : (applyAct a t).chip.log = t.chip.log := by
  cases h with
  | chip f h => exact h _
  | _ => rfl

theorem EndAct.keeps_owner (h : EndAct l c a) (ht : Canonical t) {d : Nat} (hP : (t.coreOf d).owner = none) : ((applyAct a t).coreOf d).owner = none := by
  cases h with
  | core e f h =>
    by_cases hd : d = e
    · subst hd
      rw [coreOf_core_same ht.cores]
      exact h _ hP
    · rw [coreOf_core_other hd, hP]
  | _ => exact hP

theorem EndAct.keeps_ended (h : EndAct l c a) (hP : Ended l c t.work.launches) : Ended l c (applyAct a t).work.launches := by
  cases h with
  | work f h => exact h _ hP
  | _ => exact hP

theorem complete_endAct {fn : Nat} {r : BitVec 128} (h : a ∈ complete s fn r) : EndAct l c a := by
  have fold : ∀ (es : List (Nat × BitVec 128)) (h : Chip), (es.foldl (fun h _ => h.raise fn 0) h).log = h.log := by
    intro es
    induction es with
    | nil => exact fun h => rfl
    | cons e es ih => exact fun h => by rw [List.foldl_cons, ih, raise_log]
  simp only [complete, drainRecords, List.mem_append, List.mem_map, List.mem_singleton] at h
  obtain ⟨e, -, rfl⟩ | rfl := h
  · exact .host _ _ _
  · exact .chip _ fun k => by simp only [apply_ite Chip.log, fold, ite_self]

theorem askHost_endAct {d : Nat} (h : a ∈ askHost s d) : EndAct l c a := by
  rw [askHost] at h
  split at h
  · obtain rfl := List.mem_singleton.mp h
    exact .chip _ fun k => raise_log _ _ _
  · simp at h

/-- The launches once core c has ended its part of launch l. -/
theorem ended_map (ks : List Launch) :
    Ended l c (ks.map (fun y => if y.id = l.id then { y with remaining := y.remaining.filter (fun k => k ≠ c) } else y)) := by
  intro k hk hid
  obtain ⟨y, -, rfl⟩ := List.mem_map.mp hk
  by_cases hy : y.id = l.id
  · simp [hy]
  · simp [hy] at hid

/-- What the end of a running launch is made of: before the event, the freeing of the core and the end of the launch's part, and after it,
nothing that undoes them. -/
theorem endLaunch_parts {status event info : Nat} (ho : (s.coreOf c).owner = some n) (hl : s.launchOf c n = some l) :
    ∃ pre suf, endLaunch s c n status event info = pre ++ post s event l.fn c 0 info :: suf ∧ (∀ a ∈ pre ++ suf, EndAct l c a) ∧
      (∃ f, .core c f ∈ pre ∧ ∀ y, (f y).owner = none) ∧ (∃ f, .work f ∈ pre ∧ ∀ w, Ended l c (f w).launches) := by
  rw [endLaunch, hl]
  simp only [ho, if_true]
  refine ⟨_, _, List.append_assoc _ _ _, ?_, ?_, ?_⟩
  · simp only [List.mem_append, List.mem_map, List.mem_cons, List.not_mem_nil, or_false]
    rintro a (((⟨i, -, rfl⟩ | rfl | rfl | rfl | rfl) | h) | h)
    · exact .seq _ _
    · exact .work _ fun w _ => ended_map w.launches
    · exact .chip _ fun _ => rfl
    · exact .core _ _ fun y hy => hy
    · exact .core _ _ fun _ _ => rfl
    · exact complete_endAct h
    · split at h
      · simp at h
      · exact askHost_endAct h
  · exact ⟨_, List.mem_append_left _ (List.mem_append_right _ (.tail _ (.tail _ (.tail _ (.head _))))), fun _ => rfl⟩
  · exact ⟨_, List.mem_append_left _ (List.mem_append_right _ (.head _)), fun w => ended_map w.launches⟩

/-! The core fatal fault. -/

theorem exec_coreFatalFault : exec (.coreFatalFault c) s = performs (fatalFaultActs s c) s := rfl

/-- The fault fences its core and takes it out of service. -/
theorem fatalFault_fences (hs : Canonical s) : ((applyActs (fatalFaultActs s c ++ [bump]) s).coreOf c).fenced = true ∧
    ((applyActs (fatalFaultActs s c ++ [bump]) s).coreOf c).outOfService = true := by
  have last : ∀ t, Canonical t → ∀ f g, (applyActs [.core c f, modLantern g, bump] t).coreOf c = f (t.coreOf c) :=
    fun t ht f _ => coreOf_core_same (f := f) ht.cores
  rw [fatalFaultActs, List.append_assoc, applyActs_append]
  simp only [List.cons_append, List.nil_append, last _ (applyActs_canonical hs _), and_self]

/-- What the fault of a core that runs launch l is made of. -/
theorem fatalFault_parts (ho : (s.coreOf c).owner = some n) (hl : s.launchOf c n = some l) :
    ∃ pre suf, fatalFaultActs s c ++ [bump] = pre ++ post s 0x16 l.fn c 0 1 :: suf ∧ (∀ a ∈ pre ++ suf, EndAct l c a) ∧
      (∃ f, .core c f ∈ pre ∧ ∀ y, (f y).owner = none) ∧ (∃ f, .work f ∈ pre ∧ ∀ w, Ended l c (f w).launches) := by
  obtain ⟨pre, suf, hps, hk, hf, he⟩ := endLaunch_parts (status := 0x09) (event := 0x16) (info := 1) ho hl
  rw [fatalFaultActs, ho]
  simp only [hps]
  refine ⟨pre, _, by rw [List.append_assoc, List.append_assoc, List.cons_append], fun a ha => ?_, hf, he⟩
  simp only [List.mem_append, List.mem_cons, List.not_mem_nil, or_false] at ha
  obtain h | h | (rfl | rfl) | rfl := ha
  · exact hk a (List.mem_append_left _ h)
  · exact hk a (List.mem_append_right _ h)
  · exact .core _ _ fun _ hy => hy
  · exact .chip _ fun _ => rfl
  · exact .work _ fun _ hw => hw

section Running

variable (hs : Canonical s) (ho : (s.coreOf c).owner = some n) (hl : s.launchOf c n = some l)

include ho hl

include hs in
theorem fatalFault_owner : ((applyActs (fatalFaultActs s c ++ [bump]) s).coreOf c).owner = none := by
  obtain ⟨pre, suf, hps, hk, ⟨f, hf, hfn⟩, -⟩ := fatalFault_parts ho hl
  rw [hps]
  refine applyActs_holds_of_mem (P := fun t => (t.coreOf c).owner = none) hs (List.mem_append_left _ hf)
    (fun t ht => by rw [coreOf_core_same ht.cores, hfn]) (fun a ha t ht hP => ?_)
  rw [List.mem_append, List.mem_cons] at ha
  obtain ha | rfl | ha := ha
  · exact (hk a (List.mem_append_left _ ha)).keeps_owner ht hP
  · rw [post, coreOf_chip, hP]
  · exact (hk a (List.mem_append_right _ ha)).keeps_owner ht hP

theorem fatalFault_posts : Posts s (applyActs (fatalFaultActs s c ++ [bump]) s) 0x16 l.fn c 0 1 := by
  obtain ⟨pre, suf, hps, hk, -, -⟩ := fatalFault_parts ho hl
  have hpre : (applyActs pre s).chip.log = s.chip.log :=
    applyActs_keeps (p := fun t => t.chip.log) (fun a ha => (hk a (List.mem_append_left _ ha)).keeps_log) s
  have hsuf : (applyActs (fatalFaultActs s c ++ [bump]) s).chip.log = (applyAct (post s 0x16 l.fn c 0 1) (applyActs pre s)).chip.log := by
    rw [hps, applyActs_append, applyActs_cons]
    exact applyActs_keeps (p := fun t => t.chip.log) (fun a ha => (hk a (List.mem_append_right _ ha)).keeps_log) _
  rw [applyAct_post_log, hpre] at hsuf
  exact hsuf

include hs in
theorem fatalFault_ended : Ended l c (applyActs (fatalFaultActs s c ++ [bump]) s).work.launches := by
  obtain ⟨pre, suf, hps, hk, -, f, hf, hfn⟩ := fatalFault_parts ho hl
  rw [hps]
  refine applyActs_holds_of_mem (P := fun t => Ended l c t.work.launches) hs (List.mem_append_left _ hf)
    (fun t _ => hfn _) (fun a ha t _ hP => ?_)
  rw [List.mem_append, List.mem_cons] at ha
  obtain ha | rfl | ha := ha
  · exact (hk a (List.mem_append_left _ ha)).keeps_ended hP
  · rw [post, work_chip]
    exact hP
  · exact (hk a (List.mem_append_right _ ha)).keeps_ended hP

end Running

end Sys2Proof.Machine
end

section
/-! PROOFS. Module reset and power (18 R351, 19 R373, R377). -/

namespace Sys2Proof.Machine

variable {s t : State}

theorem SMap.get_map {α : Type} {d : α} {f : α → α} (hf : f d = d) (m : SMap α) (a : Nat) :
    SMap.get d (m.map (fun e => (e.1, f e.2))) a = f (SMap.get d m a) := by
  induction m with
  | nil => exact hf.symm
  | cons e m ih =>
    rw [List.map_cons, get_cons, get_cons, ih]
    split <;> rfl

/-! Lantern at a boot. -/

/-- A staged image is in the bank that boots next (R373). -/
theorem reboot_active {l : Lantern} (h : l.staged = true) : l.reboot.active = l.inactive := by
  have hsel : l.selected.active = l.inactive := by rw [Lantern.selected, if_pos h]
  rw [Lantern.reboot]
  split
  · split <;> exact hsel
  · exact hsel

theorem mapCores_active (l : Lantern) : l.mapCores.active = l.active := by
  rw [Lantern.mapCores]
  split <;> rfl

theorem mapCores_coreMap {l : Lantern} (h : l.badCores = []) : l.mapCores.coreMap = [] := by
  rw [Lantern.mapCores, h]
  rfl

/-! What a boot posts leaves all but the event records. -/

/-- Two chips on the same board: the module's number, Lantern and the stacks. -/
structure SameBoard (h k : Chip) : Prop where
  modId : k.modId = h.modId
  lantern : k.lantern = h.lantern
  hbmStacks : k.hbmStacks = h.hbmStacks

theorem post_sameBoard (h : Chip) (k : Nat) (p : Posted) : SameBoard h (h.post k p) := by
  constructor
  · simp only [Chip.post, apply_ite Chip.modId, ite_self]
  · simp only [Chip.post, apply_ite Chip.lantern, ite_self]
  · simp only [Chip.post, apply_ite Chip.hbmStacks, ite_self]

theorem bootNews_state (s t : State) : ∃ k, applyActs (bootNews s) t = { t with chip := k } ∧ SameBoard t.chip k := by
  rw [bootNews]
  split
  · exact ⟨_, rfl, post_sameBoard _ _ _⟩
  · exact ⟨_, rfl, post_sameBoard _ _ _⟩
  · exact ⟨_, rfl, rfl, rfl, rfl⟩

/-! The cores after a boot. -/

/-- Every core is as after reset, or out of service. -/
def CoresFresh (m : SMap Core) : Prop := ∀ c, SMap.get {} m c = {} ∨ SMap.get {} m c = { outOfService := true }

theorem CoresFresh.set {m : SMap Core} (h : CoresFresh m) (c : Nat) :
    CoresFresh (SMap.set {} m c { SMap.get {} m c with outOfService := true }) := by
  intro d
  by_cases hd : d = c
  · subst hd
    have hne : { SMap.get {} m d with outOfService := true } ≠ ({} : Core) := fun h => by simpa using congrArg Core.outOfService h
    rw [SMap.get_set_of_ne hne]
    obtain h | h := h d <;> exact .inr (by rw [h])
  · rw [SMap.get_set_other hd]
    exact h d

/-- Taking cores out of service changes the cores only. -/
theorem outOfService_state (es : List (Nat × Nat)) (ht : CoresFresh t.cores) :
    ∃ m, applyActs (es.map (fun e => .core e.1 (fun y => { y with outOfService := true }))) t = { t with cores := m } ∧ CoresFresh m := by
  induction es generalizing t with
  | nil => exact ⟨_, rfl, ht⟩
  | cons e es ih => exact ih (t := applyAct (.core e.1 _) t) (ht.set e.1)

theorem absentCores_state (l : Lantern) (ht : t.cores = []) :
    ∃ m, applyActs (absentCores l) t = { t with cores := m } ∧ CoresFresh m ∧ (l.coreMap = [] → m = []) := by
  cases hl : l.coreMap with
  | nil => exact ⟨[], by rw [absentCores, hl, ← ht]; rfl, fun c => .inl rfl, fun _ => rfl⟩
  | cons e es =>
    have hfresh : CoresFresh t.cores := fun c => .inl (by rw [ht]; rfl)
    obtain ⟨m, hm, hf⟩ := outOfService_state (l.coreMap.filter (fun e => e.2 = physicalCores)) hfresh
    exact ⟨m, hm, hf, by simp⟩

/-! The state after a boot. -/

/-- Time and everything that a core holds are as after reset, but for cores out of service. -/
def Emptied (t : State) : Prop :=
  t.cyc = 0 ∧ t.gtime = 0 ∧ t.seqs = [] ∧ t.scalars = [] ∧ t.masks = [] ∧ t.glints = [] ∧ t.laneFlags = [] ∧
    (∀ c, t.coreOf c = {} ∨ t.coreOf c = { outOfService := true }) ∧ t.rows = [] ∧ t.mps = [] ∧ t.ths = [] ∧ t.spd = [] ∧ t.spdPoison = [] ∧
    t.tags = [] ∧ t.bos = [] ∧ t.bosPoison = [] ∧ t.dict = [] ∧ t.ucode = [] ∧ t.routines = [] ∧ t.cht = [] ∧ t.ptt = [] ∧ t.staging = [] ∧ t.sye = [] ∧
    t.syePoison = [] ∧ t.saved = []

/-- An unloaded state with other cores, phase, cursor, work, module registers and device memory. -/
theorem unload_emptied {m : SMap Core} (hm : CoresFresh m) (s : State) (p : Phase) (k : Cursor) (w : Work) (h : Chip) (b : Memory) (bp : SMap UnitMark) :
    Emptied { applyAct .unload s with cores := m, phase := p, cur := k, work := w, chip := h, hbm := b, hbmPoison := bp } :=
  ⟨rfl, rfl, rfl, rfl, rfl, rfl, rfl, hm, rfl, rfl, rfl, rfl, rfl, rfl, rfl, rfl, rfl, rfl, rfl, rfl, rfl, rfl, rfl, rfl, rfl⟩

/-- The module's work and registers are as after reset, but for the inputs to come, the logs, Lantern and the layers in service (log 56). -/
def Cleared (s t : State) : Prop :=
  Emptied t ∧ (s.chip.lantern.badCores = [] → t.cores = []) ∧ t.phase = .reads ∧
    { t.work with agenda := [], free := 0, nextId := 0 } = ({} : Work) ∧ (∀ k, t.stackAt k = { good := (s.stackAt k).good }) ∧
    { t.chip with log := [], flash := [], lantern := {}, hbmStacks := [] } = ({ modId := s.chip.modId } : Chip)

/-- The stacks after a reset keep the layers in service (log 56). -/
theorem afterReset_stack (h : Chip) (k : Nat) : SMap.get {} h.afterReset.hbmStacks k = { good := (SMap.get {} h.hbmStacks k).good } :=
  SMap.get_map (f := fun x : Stack => ({ good := x.good } : Stack)) rfl _ _

/-- A module is cleared once it is unloaded and its work and registers are those after a reset. -/
theorem cleared_of_reset {m : SMap Core} {w : Work} {k : Chip} (hm : CoresFresh m) (hb : s.chip.lantern.badCores = [] → m = [])
    (hw : { w with agenda := [], free := 0, nextId := 0 } = ({} : Work)) (hk : SameBoard s.chip k) (lg : List Posted) (la : Lantern)
    (b : Memory) (bp : SMap UnitMark) :
    Cleared s { applyAct .unload s with
      cores := m, phase := .reads, cur := ⟨0, 0⟩, work := w, chip := { k.afterReset with log := lg, lantern := la }, hbm := b, hbmPoison := bp } := by
  refine ⟨unload_emptied hm _ _ _ _ _ _ _, hb, rfl, hw, fun n => ?_, ?_⟩
  · exact (afterReset_stack k n).trans (by rw [hk.hbmStacks]; rfl)
  · rw [← hk.modId]
    rfl

/-! Module reset. -/

theorem exec_moduleReset : exec .moduleReset s = performs (moduleResetActs s) s := rfl

theorem moduleReset_state (hp : s.chip.lantern.powered = true) : ∃ m k, CoresFresh m ∧ (s.chip.lantern.badCores = [] → m = []) ∧ SameBoard s.chip k ∧
    applyActs (moduleResetActs s ++ [bump]) s = { applyAct .unload s with
      cores := m, phase := .reads, cur := ⟨0, 0⟩, chip := k.afterReset, hbm := s.hbm, hbmPoison := s.hbmPoison
      work := { s.work.afterReset with free := s.work.free + 65536 } } := by
  obtain ⟨k, hk, hboard⟩ := bootNews_state s s
  obtain ⟨m, hm, hf, hb⟩ := absentCores_state (s.chip.lantern.mapCores)
    (t := applyActs [.unload, .work Work.afterReset, .chip Chip.afterReset, .phase .reads, .cursor 0 0] { s with chip := k }) rfl
  refine ⟨m, k, hf, fun h => hb (mapCores_coreMap h), hboard, ?_⟩
  rw [moduleResetActs, hp, applyActs_bump]
  simp only [Bool.not_true, Bool.false_eq_true, if_false, applyActs_append, hk, hm, applyAct_bump]
  rfl

/-- A module reset clears the module; device and host memory stay, and Lantern boots (R351, R373). -/
theorem moduleReset_clears (hp : s.chip.lantern.powered = true) : ∃ t, exec .moduleReset s = .next t ∧ Cleared s t ∧ t.hbm = s.hbm ∧
    t.hbmPoison = s.hbmPoison ∧ t.host = s.host ∧ t.chip.lantern = s.chip.lantern.reboot.mapCores ∧
    (s.chip.lantern.staged = true → t.chip.lantern.active = s.chip.lantern.inactive) := by
  obtain ⟨m, k, hm, hb, hk, ht⟩ := moduleReset_state hp
  have hl : k.afterReset.lantern = s.chip.lantern.reboot.mapCores := congrArg (fun l => l.reboot.mapCores) hk.lantern
  refine ⟨_, exec_moduleReset, ?_⟩
  rw [ht]
  refine ⟨cleared_of_reset hm hb rfl hk k.afterReset.log k.afterReset.lantern _ _, rfl, rfl, rfl, hl, fun hst => ?_⟩
  exact (congrArg Lantern.active hl).trans ((mapCores_active _).trans (reboot_active hst))

theorem moduleReset_off (hp : s.chip.lantern.powered = false) : exec .moduleReset s = performs [] s := by
  rw [exec_moduleReset, moduleResetActs, hp]
  rfl

/-! Power. -/

theorem exec_powerInterruption : exec .powerInterruption s = performs (if s.chip.lantern.powered then losePower else []) s := rfl

theorem losePower_state : applyActs (losePower ++ [bump]) s = { applyAct .unload s with
    cores := [], phase := .reads, cur := ⟨0, 0⟩, work := { s.work.afterReset with free := s.work.free + 65536 }
    hbm := SMap.clear s.hbm 0 Config.hbmBytes, hbmPoison := SMap.clear s.hbmPoison (0 / 8) (unitCount 0 Config.hbmBytes)
    chip := { s.chip.afterReset with log := [], lantern := { s.chip.lantern with
      powered := false, perst := none, upAt := none, up := false, sensors := [], heat := [], report := [] } } } := rfl

/-- Power lost clears the module and device memory with it; the banks and the fuses stay (R377). -/
theorem powerInterruption_clears (hp : s.chip.lantern.powered = true) : ∃ t, exec .powerInterruption s = .next t ∧ Cleared s t ∧
    (∀ a, a < Config.hbmBytes → t.readByte .hbm a = 0) ∧ t.chip.log = [] ∧ t.chip.lantern = { s.chip.lantern with
      powered := false, perst := none, upAt := none, up := false, sensors := [], heat := [], report := [] } := by
  refine ⟨_, exec_powerInterruption, ?_⟩
  rw [hp, if_pos rfl, losePower_state]
  refine ⟨cleared_of_reset (fun _ => .inl rfl) (fun _ => rfl) rfl ⟨rfl, rfl, rfl⟩ _ _ _ _, fun a ha => ?_, rfl, rfl⟩
  exact SMap.get_clear_inside ⟨Nat.zero_le a, by rwa [Nat.zero_add]⟩

theorem powerInterruption_off (hp : s.chip.lantern.powered = false) : exec .powerInterruption s = performs [] s := by
  rw [exec_powerInterruption, hp]
  rfl

/-- Lantern once it has brought the module up: the link comes up within its bound where PERST# is deasserted (R377). -/
def poweredUp (s : State) (l : Lantern) : Lantern :=
  { broughtUp s with powered := true, up := false, upAt := if l.perst.isSome then some (linkUpAt s 0) else none }

/-- The bring-up itself, before the cores without a physical one go out of service and the boot's events are posted. -/
def bringUpActs (s : State) : List Act := [.unload, .phase .reads, modLantern (poweredUp s)]

theorem exec_powerOn (hp : s.chip.lantern.powered = false) :
    exec .powerOn s = performs (bringUpActs s ++ absentCores (broughtUp s) ++ bootNews s) s := by
  have h : exec .powerOn s = performs (if s.chip.lantern.powered then [] else bringUpActs s ++ absentCores (broughtUp s) ++ bootNews s) s := rfl
  rw [h, hp]
  rfl

theorem powerOn_state : ∃ m k, CoresFresh m ∧ k.lantern = poweredUp s s.chip.lantern ∧
    applyActs (bringUpActs s ++ absentCores (broughtUp s) ++ bootNews s ++ [bump]) s = { applyAct .unload s with
      cores := m, phase := .reads, cur := s.cur, chip := k, hbm := s.hbm, hbmPoison := s.hbmPoison, work := { s.work with free := s.work.free + 65536 } } := by
  obtain ⟨m, hm, hf, -⟩ := absentCores_state (broughtUp s) (t := applyActs (bringUpActs s) s) rfl
  obtain ⟨k, hk, hboard⟩ := bootNews_state s { applyActs (bringUpActs s) s with cores := m }
  refine ⟨m, k, hf, hboard.lantern, ?_⟩
  rw [applyActs_bump, applyActs_append, applyActs_append, hm, hk]
  rfl

/-- Power on empties what the cores hold and boots Lantern (R377). -/
theorem powerOn_boots (hp : s.chip.lantern.powered = false) :
    ∃ t, exec .powerOn s = .next t ∧ Emptied t ∧ t.chip.lantern = poweredUp s s.chip.lantern := by
  obtain ⟨m, k, hm, hk, ht⟩ := powerOn_state (s := s)
  refine ⟨_, exec_powerOn hp, ?_⟩
  rw [ht]
  exact ⟨unload_emptied hm _ _ _ _ _ _ _, hk⟩

/-- The link is up at the latest 2 s after the cycle it is counted from (R377). -/
theorem linkUpAt_bounds (s : State) (n : Nat) : n < linkUpAt s n ∧ linkUpAt s n ≤ n + 2000000000 := by
  have h := Nat.mod_lt (s.choice 3) (show 0 < 2000000000 by omega)
  rw [linkUpAt]
  omega

end Sys2Proof.Machine
end

section
/-! PROOFS. The resets of a function, of a core, of the module, and power: the statement assembled. -/

namespace Sys2Proof.Machine

variable {s : State} {v : Nat}

theorem flrBegins_eq_true (h1 : 1 ≤ v) (h16 : v ≤ 16) (hb : (s.chip.vfReset v).busy = false) (hf : s.chip.fatal = false) (hh : s.chip.halted = false)
    (hp : s.chip.lantern.powered = true) : flrBegins s v = true := by
  simp [flrBegins, h1, h16, hb, hf, hh, hp]

theorem containDue_eq_true (hb : flrBegins s v = true) (hc : (s.chip.vfReset v).contain ≠ [])
    (hl : ∀ l ∈ s.work.launches, l.fn = v → l.remaining = [] ∨ l.id ∈ (s.chip.vfReset v).contain) : containDue s v = true := by
  simp only [containDue, hb, Bool.and_true, Bool.and_eq_true, Bool.not_eq_true', List.isEmpty_eq_false_iff, List.all_eq_true, Bool.or_eq_true,
    decide_eq_true_eq, List.isEmpty_iff, List.contains_iff_mem]
  refine ⟨hc, fun l hm => ?_⟩
  by_cases hv : l.fn = v
  · obtain h | h := hl l hm hv
    · exact .inl (.inr h)
    · exact .inr h
  · exact .inl (.inl hv)

/-- Settles O49: each reset is its list of micro-operations, of which some bring about what is claimed and the others keep it. -/
theorem resetEvents : Obligations.ResetEvents := by
  intro v s hs
  refine ⟨fun h1 h16 hb hf hh hp => ?_, fun hb => ?_, ⟨fun hb hf => ⟨fun h2 hst hd => ?_, fun h3 hu => ?_⟩, fun c => ?_, ?_⟩⟩
  · have hbegins : flrBegins s v = true := flrBegins_eq_true h1 h16 hb hf hh hp
    refine ⟨by rw [exec_vfFlr, if_pos hbegins]; rfl, fun hd => ?_, fun hd hc hl => ?_⟩
    · exact vfFlr_begun hs h1 hbegins hd
    · exact containmentFlr_begun hs h1 (containDue_eq_true hbegins hc hl) hd
  · rw [exec_vfFlr, if_neg (by simp [flrBegins, hb])]
  · have hdone : drainDone s v = true := by simp [drainDone, hb, hf, h2, hst, hd]
    refine ⟨⟨VfReset.toScrub s, exec_flrDrainComplete hdone, fun x => ?_⟩, fun hr => ?_⟩
    · obtain ⟨hu, hle, hfour, hfu⟩ := toScrub_cycles s x
      exact ⟨rfl, hu, hle, hfour, hfu, rfl⟩
    · have hreads : openReads s v = [] := hr
      refine ⟨applyActs (drainDrops s v ++ [bump]) s, by rw [exec_flrDrainComplete hdone, hreads]; rfl, drain_sameStores, drain_dropped.1, drain_dropped.2, ?_⟩
      rw [drain_vfReset]
      exact ⟨rfl, hb, rfl, rfl⟩
  · have hdone : scrubDone s v = true := by simp [scrubDone, hb, hf, h3, hu]
    refine ⟨_, exec_flrScrubComplete hdone, fun c hc => ?_, ?_⟩
    · have h := scrub_core hs hc
      obtain ⟨hrows, hmps, hths, htags, hdict, hucode, hroutines, hcht, hptt, hspd, hbos⟩ := h.stores
      exact ⟨fun _ => h.scalars, fun _ => h.masks, fun _ => h.glints, fun _ => h.laneFlags, hrows, hmps, hths, htags,
        fun n hn => ⟨hdict n hn, hucode n hn⟩, fun n hn => ⟨hroutines n hn, hcht n hn⟩, hptt, h.seqs, hspd, hbos, h.mapFn⟩
    · rw [scrub_chip]
      exact ⟨rfl, rfl, fun n e he => scrubbed_ranges s.chip v (ownedGranules s v) he, rfl⟩
  · refine ⟨_, exec_coreFatalFault, (fatalFault_fences hs).1, (fatalFault_fences hs).2, fun n l ho hl => ?_⟩
    exact ⟨fatalFault_owner hs ho hl, fatalFault_posts ho hl, fatalFault_ended hs ho hl⟩
  · exact ⟨fun hp => ⟨moduleReset_clears hp, powerInterruption_clears hp⟩,
      fun hp => ⟨moduleReset_off hp, powerInterruption_off hp, powerOn_boots hp⟩, rfl, linkUpAt_bounds s⟩

end Sys2Proof.Machine
end

section
/-! PROOFS. FX32 addition and subtraction are those of 32-bit words: subtraction undoes addition, and WRAP records a true result outside
the FX32 range (01 R11). -/

namespace Sys2Proof.Machine

variable {s : State} {op h q : Nat} {sub : Bool}

/-- A value is its own 32-bit reading exactly within the FX32 range. -/
theorem toInt_ofInt_eq_self_iff {t : Int} : (BitVec.ofInt 32 t).toInt = t ↔ -2 ^ 31 ≤ t ∧ t < 2 ^ 31 := by
  refine ⟨fun h => ?_, fun ⟨hl, hu⟩ => BitVec.toInt_ofInt_eq_self (by decide) hl hu⟩
  rw [← h]
  exact ⟨BitVec.le_toInt _, BitVec.toInt_lt⟩

theorem fxAdd_add_bits : (fxAdd false h q).bits = (BitVec.ofNat 32 h + BitVec.ofNat 32 q).toNat := by
  simp [fxAdd, BitVec.ofInt_add]

theorem fxAdd_sub_bits : (fxAdd true h q).bits = (BitVec.ofNat 32 h - BitVec.ofNat 32 q).toNat := by
  simp [fxAdd, sub_eq_add_neg, BitVec.ofInt_add, BitVec.ofInt_neg]

theorem fxAdd_add_bits_mod : (fxAdd false h q).bits = (h + q) % 2 ^ 32 := by
  rw [fxAdd_add_bits, ← BitVec.ofNat_add, BitVec.toNat_ofNat]

theorem fxAdd_sub_bits_mod (hq : q < 2 ^ 32) : (fxAdd true h q).bits = (h + 2 ^ 32 - q) % 2 ^ 32 := by
  rw [fxAdd_sub_bits, BitVec.toNat_sub, BitVec.toNat_ofNat, BitVec.toNat_ofNat]
  omega

/-- The words' own cancellation: whatever was lost in the sum comes back in the difference. -/
theorem fxAdd_sub_fxAdd_bits (hh : h < 2 ^ 32) : (fxAdd true (fxAdd false h q).bits q).bits = h := by
  rw [fxAdd_sub_bits, fxAdd_add_bits, BitVec.ofNat_toNat, BitVec.setWidth_eq, BitVec.add_sub_cancel, BitVec.toNat_ofNat, Nat.mod_eq_of_lt hh]

theorem fxAdd_flags : (fxAdd sub h q).flags =
    let t := if sub then signedOf 32 h - signedOf 32 q else signedOf 32 h + signedOf 32 q
    if -2 ^ 31 ≤ t ∧ t < 2 ^ 31 then 0 else flNX ||| flWRAP :=
  if_congr toInt_ofInt_eq_self_iff rfl rfl

/-- An FX32 operation that stands alone gives its lanes. -/
theorem fxOp_alone {f : VR} (hr : Ready (atV s) f.m [f.d, f.a, f.b] s) (hx : standing .v op s = atV s := by rfl) :
    runSlot .v op (fxOp f sub) s =
      laneGives (atV s) s f.d f.m 32 2 (f.nf = 1) fun i =>
        .of (((atV s).row s f.a.toNat 32 1).lanePoison 32 i || ((atV s).row s f.b.toNat 32 2).lanePoison 32 i)
          (fxAdd sub (((atV s).row s f.a.toNat 32 1).lane 32 i) (((atV s).row s f.b.toNat 32 2).lane 32 i)) := by
  obtain ⟨hroom, hmask, hrows⟩ := hr
  exact laneOp_alone hroom hmask hrows (fun i _ => by simp [vrRead, VIn.poison]) hx

/-- Settles O58, by the cancellation of 32-bit words and the range of their signed values. -/
theorem fixedPointReversal : Obligations.FixedPointReversal := by
  refine ⟨fun f s hr => ⟨fxOp_alone hr, fxOp_alone hr⟩, fun h q hh hq => ?_⟩
  exact ⟨fxAdd_add_bits_mod, fxAdd_sub_bits_mod hq, fxAdd_sub_fxAdd_bits hh, fun _ => fxAdd_flags⟩

end Sys2Proof.Machine
end

section
/-! PROOFS. The state after reset (02 R33, R35, 18 R358). -/

namespace Sys2Proof.Machine

variable {q r k : Nat}

/-- Nothing is in flight at reset, so that a register reads as it stands. -/
theorem reset_readScalar : State.reset.readScalar q r k = {} := by
  rw [State.readScalar]
  split <;> rfl

theorem reset_readMask (hr : r ≠ 0) : State.reset.readMask q r k = {} := by
  rw [State.readMask, if_neg hr]
  rfl

/-- The memory of every home is empty. -/
theorem reset_readByte (h : Home) (a : Nat) : State.reset.readByte h a = 0 := by
  cases h <;> rfl

/-- Settles O53: reset lists no entry of any file or memory, and what is not listed reads as its reset value. -/
theorem resetValues : Obligations.ResetValues :=
  ⟨reset_canonical, rfl, rfl,
    fun _ => ⟨rfl, rfl, rfl, rfl, rfl, rfl, rfl, rfl, rfl, rfl, fun _ => rfl, rfl, rfl, rfl⟩,
    fun _ _ _ => reset_readScalar, fun _ _ => readMask_zero, fun _ _ _ => reset_readMask,
    fun _ => ⟨rfl, rfl, rfl, rfl, rfl, rfl, rfl, rfl, rfl⟩,
    fun _ _ => rfl, reset_readByte, fun _ => ⟨rfl, rfl⟩, rfl, rfl⟩

end Sys2Proof.Machine
end

section
/-! PROOFS. A result lands in its destination (02 R23, R27, R28, R31, R175). -/

namespace Sys2Proof.Machine

/-- A canonical map after a write. -/
theorem SMap.get_set {α : Type} [DecidableEq α] {d v : α} {m : SMap α} {a b : Nat} (h : SMap.wf d m = true) :
    SMap.get d (SMap.set d m a v) b = if b = a then v else SMap.get d m b := by
  split
  · subst b
    exact get_set_same h
  · rename_i hb
    exact get_set_other hb

variable {s : State} {f g : Flight} {id c n k : Nat} {v : Word} {p : Bool} {ws : List RowWrite}

/-! What a landing does to the results in flight. -/

theorem flightOf_id (h : s.flightOf id = some f) : f.id = id := by
  simpa using List.find?_some h

theorem landable_of_live (hm : f.mode = .live) (h0 : f.missing = 0) : landable f = true := by
  simp [landable, Flight.held, hm, h0]

/-- A live result leaves nothing behind where it lands. -/
theorem gone_of_live (hm : f.mode = .live) : f.gone = none := by rw [Flight.gone, hm]

/-- A result to another place stays in flight as it is. -/
theorem passed_of_apart (h : g.overlaps f = false) : passed s f k g = some g := by simp [passed, h]

/-- When a live result lands that shares its place with no other, it alone leaves the results in flight (R28). -/
theorem flightsAfter_of_apart (hlive : ∀ g ∈ s.work.flights, g.mode = .live)
    (hapart : ∀ g ∈ s.work.flights, g.id ≠ f.id → g.overlaps f = false) :
    flightsAfter s f = s.work.flights.filter (fun g => g.id ≠ f.id) := by
  have hstep : ∀ e ∈ s.work.flights.mapIdx (fun i g => (i, g)),
      (if e.2.id = f.id then e.2.gone else passed s f (8 * e.1) e.2) = Option.guard (fun g : Flight => g.id ≠ f.id) e.2 := by
    intro e he
    obtain ⟨i, hi, rfl⟩ := List.mem_mapIdx.mp he
    have hmem : s.work.flights[i] ∈ s.work.flights := List.getElem_mem hi
    by_cases hid : s.work.flights[i].id = f.id
    · simp [hid, gone_of_live (hlive _ hmem), Option.guard]
    · simp [hid, passed_of_apart (hapart _ hmem hid), Option.guard]
  have hsnd : (s.work.flights.mapIdx (fun i g => (i, g))).map Prod.snd = s.work.flights := by
    apply List.ext_getElem <;> simp
  rw [flightsAfter, List.filterMap_congr hstep]
  calc _ = ((s.work.flights.mapIdx (fun i g => (i, g))).map Prod.snd).filterMap (Option.guard fun g => g.id ≠ f.id) := List.filterMap_map.symm
    _ = s.work.flights.filter (fun g => g.id ≠ f.id) := by rw [hsnd, List.filterMap_eq_filter]

/-- Live results that no RETT has put back protect nothing from a handler, and only a handler's results are kept out (R298). -/
theorem not_shielded (hlive : ∀ g ∈ s.work.flights, g.mode = .live)
    (hret : f.hnd = false ∨ ∀ g ∈ s.work.flights, g.returned = false) : shielded s.work.flights f n = false := by
  obtain hf | hg := hret
  · simp [shielded, hf]
  · have : s.work.flights.any (fun g => g.q = f.q && g.protects f.dest n) = false := by
      rw [List.any_eq_false]
      intro g hm
      simp [Flight.protects, hlive g hm, hg g hm]
    rw [shielded, this, Bool.and_false]

/-! Rows written one after another. -/

/-- The writes of consecutive rows of core c from row n on. -/
def rowsFrom (c n : Nat) (ws : List RowWrite) : List Act := ws.mapIdx (fun i w => .row c (n + i) w)

theorem rowsFrom_cons {w : RowWrite} : rowsFrom c n (w :: ws) = .row c n w :: rowsFrom c (n + 1) ws := by
  simp [rowsFrom, List.mapIdx_cons, Nat.add_assoc, Nat.add_comm 1]

/-- Each row written takes its own write, and every other row stays (R23). -/
theorem rows_rowsFrom (hs : Canonical s) : SMap.get {} (applyActs (rowsFrom c n ws) s).rows k =
    if 512 * c + n ≤ k ∧ k < 512 * c + n + ws.length then (SMap.get {} s.rows k).apply (ws.getD (k - (512 * c + n)) {})
    else SMap.get {} s.rows k := by
  induction ws generalizing s n with
  | nil => rw [if_neg (by simp)]; rfl
  | cons w ws ih =>
    rw [rowsFrom_cons, applyActs_cons, ih (applyAct_canonical hs _), applyAct_row]
    simp only [SMap.get_set hs.rows]
    by_cases hk : k = 512 * c + n
    · subst hk
      rw [if_neg (by omega), if_pos rfl, if_pos (by simp), Nat.sub_self]
      rfl
    · rw [if_neg hk]
      by_cases hin : 512 * c + (n + 1) ≤ k ∧ k < 512 * c + (n + 1) + ws.length
      · rw [if_pos hin, if_pos (by simp; omega), show k - (512 * c + n) = k - (512 * c + (n + 1)) + 1 by omega, List.getD_cons_succ]
      · rw [if_neg hin, if_neg (by simp; omega)]

/-! What is written, by the kind of destination. -/

/-- The micro-operations of a landing: a register, a mask, a row, a glint or FMT of its sequencer. -/
inductive LandAct : Act → Prop
  | scalar (q r : Nat) (v : SReg) : LandAct (.scalar q r v)
  | mask (q r : Nat) (v : MReg) : LandAct (.mask q r v)
  | row (c n : Nat) (w : RowWrite) : LandAct (.row c n w)
  | glint (q r : Nat) (v : SReg) : LandAct (.glint q r v)
  | seq (q : Nat) (f : Seq → Seq) : LandAct (.seq q f)

theorem landing_kinds {a : Act} (h : a ∈ landing s f) : LandAct a := by
  rw [landing] at h
  split at h
  · obtain rfl := List.mem_singleton.mp h
    exact .scalar _ _ _
  · split at h
    · simp at h
    · obtain rfl := List.mem_singleton.mp h
      exact .mask _ _ _
  · obtain ⟨e, -, he⟩ := List.mem_filterMap.mp h
    split at he
    · simp at he
    · obtain rfl := Option.some.inj he
      exact .row _ _ _
  · obtain rfl := List.mem_singleton.mp h
    exact .glint _ _ _
  · obtain rfl := List.mem_singleton.mp h
    exact .seq _ _
  · simp at h

/-- A landing touches no byte of memory. -/
theorem LandAct.keeps_readByte {a : Act} (h : LandAct a) (t : State) (m : Home) (b : Nat) : (applyAct a t).readByte m b = t.readByte m b := by
  cases h with
  | scalar q r v => rw [applyAct_scalar]; split <;> rfl
  | mask q r v => rw [applyAct_mask]; split <;> rfl
  | _ => rfl

theorem landing_scalar {r : Nat} (hd : f.dest = .scalar r) (hv : f.val = .word v p) : landing s f = [.scalar f.q r ⟨v, p⟩] := by
  rw [landing, hd, hv]

theorem landing_mask {r : Nat} {m : MaskBits} (hd : f.dest = .mask r) (hv : f.val = .mask m p) (hs : shielded s.work.flights f 0 = false) :
    landing s f = [.mask f.q r ⟨m, p⟩] := by
  rw [landing, hd, hv]
  simp [hs]

theorem landing_rows (hd : f.dest = .rows n) (hv : f.val = .rows ws) (hs : ∀ i, shielded s.work.flights f i = false) :
    landing s f = rowsFrom (f.q / 4) n ws := by
  rw [landing, hd, hv]
  simp only [hs, Bool.false_eq_true, if_false]
  rw [List.filterMap_eq_map', rowsFrom]
  exact List.ext_getElem (by simp) (by simp)

theorem landing_glint {r : Nat} (hd : f.dest = .glint r) (hv : f.val = .word v p) : landing s f =
    [.glint f.q r ⟨(SMap.get {} s.glints (4 * f.q + r)).val + v, (SMap.get {} s.glints (4 * f.q + r)).poison || p⟩] := by
  rw [landing, hd, hv]

theorem landing_fmt (hd : f.dest = .fmt) (hv : f.val = .word v p) : landing s f = [.seq f.q (fun y => { y with fmt := v })] := by
  rw [landing, hd, hv]

/-- A scalar reads as what was written to it, and s0 takes no write (R19). -/
theorem scalars_scalar (hs : Canonical s) {q r : Nat} {x : SReg} : SMap.get {} (applyAct (.scalar q r x) s).scalars k =
    if k = 64 * q + r ∧ r ≠ 0 then x else SMap.get {} s.scalars k := by
  rw [applyAct_scalar]
  by_cases hr : r = 0
  · simp [hr]
  · rw [if_neg hr, SMap.get_set hs.scalars]
    simp only [ne_eq, hr, not_false_eq_true, and_true]

/-- A mask reads as what was written to it, and m0 takes no write (R19). -/
theorem masks_mask (hs : Canonical s) {q r : Nat} {x : MReg} : SMap.get {} (applyAct (.mask q r x) s).masks k =
    if k = 16 * q + r ∧ r ≠ 0 then x else SMap.get {} s.masks k := by
  rw [applyAct_mask]
  by_cases hr : r = 0
  · simp [hr]
  · rw [if_neg hr, SMap.get_set hs.masks]
    simp only [ne_eq, hr, not_false_eq_true, and_true]

/-! The event. -/

/-- The state after a result has landed: its value is in its destination, and fs are the results left in flight. -/
def landed (s : State) (f : Flight) (fs : List Flight) : State :=
  let t := applyActs (landing s f) s
  applyAct bump { t with work := { t.work with flights := fs } }

theorem exec_resultLand (h : s.flightOf id = some f) (hl : landable f = true) :
    exec (.resultLand id) s = .next (landed s f (flightsAfter s f)) := by
  have : exec (.resultLand id) s = done ((match s.flightOf id with | some f => landActs s f | none => []) ++ [bump]) s := rfl
  rw [this, h]
  simp only [landActs, hl, if_true, done_eq, applyActs_append]
  rfl

theorem landed_sameMemory (fs : List Flight) : SameMemory s (landed s f fs) := by
  intro h b
  have : (applyActs (landing s f) s).readByte h b = s.readByte h b :=
    applyActs_keeps (p := fun t => t.readByte h b) (fun a ha t => (landing_kinds ha).keeps_readByte t h b) s
  exact this

/-- Settles O31: the landing writes the destination alone, and no other result in flight is passed. -/
theorem resultLanding : Obligations.ResultLanding := by
  intro id f s hs hf h0 hret hlive hapart
  obtain rfl := flightOf_id hf
  have hmode : f.mode = .live := hlive f (List.mem_of_find?_eq_some hf)
  have hsh : ∀ i, shielded s.work.flights f i = false := fun _ => not_shielded hlive hret
  refine ⟨_, exec_resultLand hf (landable_of_live hmode h0), flightsAfter_of_apart hlive hapart, landed_sameMemory _,
    fun r v p hd hv k => ?_, fun r v p hd hv k => ?_, fun n ws hd hv k => ?_, fun r v p hd hv => ?_, fun v p hd hv => ?_⟩
  · rw [landed, landing_scalar hd hv]
    exact scalars_scalar hs
  · rw [landed, landing_mask hd hv (hsh 0)]
    exact masks_mask hs
  · rw [landed, landing_rows hd hv hsh]
    exact rows_rowsFrom hs
  · rw [landed, landing_glint hd hv]
    exact SMap.get_set_same hs.glints
  · rw [landed, landing_fmt hd hv]
    exact congrArg Seq.fmt (seqOf_seq_same (f := fun y => { y with fmt := v }) hs.seqs)

end Sys2Proof.Machine
end

section
/-! PROOFS. An operation that stands alone in slot S1: where it issues, and the trap that its own precise cause raises. -/

namespace Sys2Proof.Machine

variable {c : SlotClass} {op n k code : Nat} {o : Op} {s : State}

/-- The only answer among the first m indices is the first one found. -/
theorem findSome?_range_only {α : Type} {m : Nat} {g : Nat → Option α} {b : α} (hn : n < m) (own : g n = some b)
    (other : ∀ k, k < m → k ≠ n → g k = none) : (List.range m).findSome? g = some b := by
  have hsome : ((List.range m).findSome? g).isSome = true :=
    List.findSome?_isSome_iff.mpr ⟨n, List.mem_range.mpr hn, by rw [own]; rfl⟩
  obtain ⟨b', hb'⟩ := Option.isSome_iff_exists.mp hsome
  obtain ⟨k, hk, hgk⟩ := List.exists_of_findSome?_eq_some hb'
  have hkn : k = n := by
    by_contra h
    rw [other k (List.mem_range.mp hk) h] at hgk
    exact absurd hgk (by simp)
  rw [hb', ← hgk, hkn, own]

/-- A sequencer that issues plainly has no latches to count again (R143). -/
theorem armLatches_of_settled (hs : Settled s) : armLatches s s.cur.q = [] := by simp [armLatches, hs.1]

/-- A slot without an operation has no precise cause. -/
theorem slotCause_empty {q addr size : Nat} {l : List Issue} (h : l.getD k {} = {}) : slotCause s q addr size none l k = none := by
  have hloopp : looppIllegal ({} : Issue).enc = false := rfl
  rw [slotCause]
  simp only [h, hloopp, Bool.and_false]
  rfl

/-- What an operation alone in its slot meets of the rules for every operation: nothing but its own cause stops it. -/
structure Unhindered (c : SlotClass) (op : Nat) (o : Op) (s : State) : Prop where
  settled : Settled s
  rows : Allotted s (o.rows (standing c op s) s)
  pass : ((passOf (s.seqOf s.cur.q)).isSome && looppIllegal (some ⟨c, BitVec.ofNat 8 op, 0, 0, 0, true⟩)) = false
  target : targetBad s (s.cur.q / 4) (o.next (standing c op s) s) = false
  stays : escapes (s.seqOf s.cur.q) (o.next (standing c op s) s) = false
  room : o.nres = 0 ∨ inFlightCount s s.cur.q + o.nres ≤ Config.inFlightLimit

/-- The cause of an operation that nothing else stops is the cause of its slot. -/
theorem slotCause_lone_own (h : Unhindered c op o s) (hc : o.cause (standing c op s) s = some code) :
    slotCause s s.cur.q (s.seqOf s.cur.q).pc (sizeAt s s.cur.q) none (loneSlot c op o (slotFor c op s.cur.slot)) (slotFor c op s.cur.slot) =
      some code := by
  have hlt : slotFor c op s.cur.slot < 8 := slotFor_lt
  have hctx : ({ q := s.cur.q, slot := slotFor c op s.cur.slot, addr := (s.seqOf s.cur.q).pc, size := sizeAt s s.cur.q } : Ctx) = standing c op s := rfl
  rw [slotCause]
  simp only [loneSlot_getD, hlt, if_true, slotCtx_lone hlt, hctx, hc, h.pass, h.target, h.stays]
  rfl

/-- A slot operation that stands alone traps with its own cause where nothing else stops it (R91, R276). -/
theorem runSlot_traps (h : Unhindered c op o s) (hc : o.cause (standing c op s) s = some code) (hcode : code ≠ cIllegalStream)
    (ho : o.onTrap code (standing c op s) s = []) : runSlot c op o s = traps s (slotFor c op s.cur.slot) code := by
  have hlt : slotFor c op s.cur.slot < 8 := slotFor_lt
  have hfault : issueFault s s.cur.q (s.seqOf s.cur.q).pc (sizeAt s s.cur.q) {} (loneSlot c op o (slotFor c op s.cur.slot)) =
      some (slotFor c op s.cur.slot, code) := by
    have hrep : repRefused {} (fun k => ((loneSlot c op o (slotFor c op s.cur.slot)).getD k {}).enc) = false := by
      simp [repRefused, targets_none]
    rw [issueFault, hrep, conflictSlot_lone hlt, allotmentSlot_lone hlt h.rows, limitSlot_lone hlt h.room]
    simp only [Bool.false_eq_true, if_false]
    refine findSome?_range_only hlt ?_ fun k hk hne => ?_
    · rw [slotCause_lone_own h hc]
      rfl
    · rw [slotCause_empty (by rw [loneSlot_getD, if_pos hk, if_neg hne])]
      rfl
  have hop : ((loneSlot c op o (slotFor c op s.cur.slot)).getD (slotFor c op s.cur.slot) {}).op = o := by rw [loneSlot_op hlt, if_pos rfl]
  rw [runSlot, done_eq, traps, issueActs, armLatches_of_settled h.settled]
  have hctx : ({ q := s.cur.q, slot := slotFor c op s.cur.slot, addr := (s.seqOf s.cur.q).pc, size := sizeAt s s.cur.q } : Ctx) = standing c op s := rfl
  simp only [applyActs_nil, hfault, hop, slotCtx_lone hlt, hctx, ho, precise, if_neg hcode, List.nil_append]

/-! Slot S1 (R69). -/

theorem slotFor_s1 (h1 : 0x30 ≤ op) (h2 : op ≤ 0x47) : slotFor .s op n = 1 := by simp [slotFor, h1, h2]

theorem standing_s1 (h1 : 0x30 ≤ op) (h2 : op ≤ 0x47) : standing .s op s = atS1 s := by
  simp only [standing, atS1, slotFor_s1 h1 h2, slotFor_s1 (op := 0x30) (by decide) (by decide)]

/-- A bundle that no target names is not checked against the stream, nor against the loop. -/
theorem targetBad_of_none {nx : Next} (h : nx.target = none) : targetBad s k nx = false := by rw [targetBad, h]

theorem escapes_of_not_branch {y : Seq} {nx : Next} (h : ∀ t, nx ≠ .branch t) : escapes y nx = false := by
  cases nx with
  | branch t => exact absurd rfl (h t)
  | _ => rfl

/-- An operation of S1 that neither writes a register nor names a row, nor a target outside the stream, meets nothing but its own cause. -/
theorem unhindered_s1 (h1 : 0x30 ≤ op) (h2 : op ≤ 0x47) (hs : Settled s) (hrows : ∀ x s, o.rows x s = []) (hres : o.nres = 0)
    (hpass : Unpipelined s ∨ looppIllegal (some ⟨.s, BitVec.ofNat 8 op, 0, 0, 0, true⟩) = false)
    (htarget : targetBad s (s.cur.q / 4) (o.next (atS1 s) s) = false) (hstay : ∀ t, o.next (atS1 s) s ≠ .branch t) :
    Unhindered .s op o s where
  settled := hs
  rows := by rw [hrows]; exact fun n hn => absurd hn List.not_mem_nil
  pass := by
    obtain h | h := hpass
    · rw [show passOf (s.seqOf s.cur.q) = none from h]; rfl
    · rw [h, Bool.and_false]
  target := by rw [standing_s1 h1 h2]; exact htarget
  stays := by rw [standing_s1 h1 h2]; exact escapes_of_not_branch hstay
  room := .inl hres

theorem runSlot_s1_goesTo {nx : Next} (h1 : 0x30 ≤ op) (h2 : op ≤ 0x47) (h : Unhindered .s op o s) (hc : o.cause (atS1 s) s = none)
    (hnx : o.next (atS1 s) s = nx) : runSlot .s op o s = goesTo (atS1 s) nx (o.acts (atS1 s) s) s := by
  have hst : standing .s op s = atS1 s := standing_s1 h1 h2
  rw [runSlot_next h.settled h.rows (by rw [hst, hc]) h.pass h.target h.stays h.room (.inl (slotFor_s1 h1 h2)), hst, hnx]
  rfl

theorem runSlot_s1_traps (h1 : 0x30 ≤ op) (h2 : op ≤ 0x47) (h : Unhindered .s op o s) (hc : o.cause (atS1 s) s = some code)
    (hcode : code ≠ cIllegalStream) (ho : ∀ x, o.onTrap code x s = []) : runSlot .s op o s = traps s 1 code := by
  rw [runSlot_traps h (by rw [standing_s1 h1 h2, hc]) hcode (ho _), slotFor_s1 h1 h2]

/-- A branch target in the stream of the core is not refused (R76). -/
theorem targetBad_of_inStream {nx : Next} {t : Int} (hnx : nx.target = some t) (h : InStream s t) : targetBad s (s.cur.q / 4) nx = false := by
  obtain ⟨h0, h2, hlt⟩ := h
  simp only [targetBad, hnx, Bool.or_eq_false_iff, decide_eq_false_iff_not]
  omega

end Sys2Proof.Machine
end

section
/-! PROOFS. LOOP, LOOPP and LEXIT: their causes, their entries and the bundle that follows (06 R120 to R124, R38). -/

namespace Sys2Proof.Machine

variable {f : SL} {x : Ctx} {s : State}

/-! Lists of causes. -/

theorem lowestCause_false {b : Bool} {c : Nat} {l : List (Bool × Nat)} (h : b = false) : lowestCause ((b, c) :: l) = lowestCause l := by
  rw [h]
  rfl

theorem lowestCause_last {b : Bool} {c : Nat} : lowestCause [(b, c)] = if b then some c else none := rfl

theorem decide_and_eq_false {p : Prop} [Decidable p] {b : Bool} (h : p → b = false) : (decide p && b) = false := by
  by_cases hp : p
  · rw [h hp, Bool.and_false]
  · rw [decide_eq_false hp, Bool.false_and]

/-! LOOP. -/

/-- A LOOP with a readable count and a positive length is stopped by a full loop stack only (R38, R120). -/
theorem opLoop_cause (hoff : 0 < f.off18.toInt)
    (hn : f.imm12 = 0xFFF → (x.scalar s f.a.toNat 0).poison = false ∧ loopCount f.imm12 (x.scalar s f.a.toNat 0) < 2 ^ 32) :
    (opLoop f).cause x s = if 6 ≤ (s.seqOf x.q).loops.length then some cLoopOver else none := by
  have hbig : (f.imm12 = 0xFFF && !(x.scalar s f.a.toNat 0).poison && 2 ^ 32 ≤ loopCount f.imm12 (x.scalar s f.a.toNat 0)) = false := by
    rw [Bool.and_assoc]
    exact decide_and_eq_false fun h => by rw [decide_eq_false (Nat.not_le.mpr (hn h).2), Bool.and_false]
  have hpoison : (f.imm12 = 0xFFF && (x.scalar s f.a.toNat 0).poison) = false := decide_and_eq_false fun h => (hn h).1
  calc (opLoop f).cause x s
      = lowestCause [(decide (6 ≤ (s.seqOf x.q).loops.length), cLoopOver)] :=
        (lowestCause_false hbig).trans ((lowestCause_false (decide_eq_false (Int.not_le.mpr hoff))).trans (lowestCause_false hpoison))
    _ = _ := by simp only [lowestCause_last, decide_eq_true_eq]

theorem opLoop_next_zero (h : loopCount f.imm12 (x.scalar s f.a.toNat 0) = 0) :
    (opLoop f).next x s = .zeroLoop (relTarget x f.off18.toInt) := if_pos h

theorem opLoop_next_pos (h : loopCount f.imm12 (x.scalar s f.a.toNat 0) ≠ 0) : (opLoop f).next x s = .seq := if_neg h

theorem opLoop_acts_zero (h : loopCount f.imm12 (x.scalar s f.a.toNat 0) = 0) : (opLoop f).acts x s = [] := if_pos h

theorem opLoop_acts_pos (h : loopCount f.imm12 (x.scalar s f.a.toNat 0) ≠ 0) : (opLoop f).acts x s = [pushLoop x.q
    { start := x.addr + x.size, stop := (relTarget x f.off18.toInt).toNat, index := 0, count := loopCount f.imm12 (x.scalar s f.a.toNat 0) }] :=
  if_neg h

/-- LOOP goes on in the stream or skips its body: it names no branch target. -/
theorem opLoop_next_cases (f : SL) (x : Ctx) (s : State) : (opLoop f).next x s = .zeroLoop (relTarget x f.off18.toInt) ∨ (opLoop f).next x s = .seq := by
  by_cases h : loopCount f.imm12 (x.scalar s f.a.toNat 0) = 0
  · exact .inl (opLoop_next_zero h)
  · exact .inr (opLoop_next_pos h)

theorem opLoop_unhindered (hs : Settled s) (hp : Unpipelined s) : Unhindered .s 0x35 (opLoop f) s := by
  refine unhindered_s1 (by decide) (by decide) hs (fun _ _ => rfl) rfl (.inl hp) (targetBad_of_none ?_) fun t => ?_
  all_goals obtain h | h := opLoop_next_cases f (atS1 s) s <;> simp [h, Next.target]

/-! LOOPP. -/

theorem opLoopp_cause (hoff : 0 < f.off18.toInt) (hp : (x.scalar s f.a.toNat 0).poison = false)
    (hn : (x.scalar s f.a.toNat 0).val.toNat < 2 ^ 32) :
    (opLoopp f).cause x s = if (s.seqOf x.q).reent = false ∧ 6 ≤ (s.seqOf x.q).loops.length then some cLoopOver else none := by
  have hbig : (!(x.scalar s f.a.toNat 0).poison && 2 ^ 32 ≤ (x.scalar s f.a.toNat 0).val.toNat) = false := by
    rw [decide_eq_false (Nat.not_le.mpr hn), Bool.and_false]
  calc (opLoopp f).cause x s
      = lowestCause [(!(s.seqOf x.q).reent && decide (6 ≤ (s.seqOf x.q).loops.length), cLoopOver)] :=
        (lowestCause_false hbig).trans ((lowestCause_false (decide_eq_false (Int.not_le.mpr hoff))).trans (lowestCause_false hp))
    _ = _ := by simp only [lowestCause_last, Bool.and_eq_true, Bool.not_eq_true', decide_eq_true_eq]

theorem opLoopp_next_zero (hr : (s.seqOf x.q).reent = false) (h : (x.scalar s f.a.toNat 0).val = 0) :
    (opLoopp f).next x s = .zeroLoop (relTarget x f.off18.toInt) := if_pos (by simp [hr, h])

theorem opLoopp_next_pos (h : (x.scalar s f.a.toNat 0).val ≠ 0) : (opLoopp f).next x s = .seq := if_neg (by simpa using fun _ => h)

theorem opLoopp_next_reent (hr : (s.seqOf x.q).reent = true) : (opLoopp f).next x s = .seq := if_neg (by simp [hr])

theorem opLoopp_acts_zero (hr : (s.seqOf x.q).reent = false) (h : (x.scalar s f.a.toNat 0).val = 0) : (opLoopp f).acts x s = [] := by
  simp [opLoopp, hr, h]

theorem opLoopp_acts_pos (hr : (s.seqOf x.q).reent = false) (h : (x.scalar s f.a.toNat 0).val ≠ 0) : (opLoopp f).acts x s = [pushLoop x.q
    { start := x.addr + x.size, stop := (relTarget x f.off18.toInt).toNat, index := 0, count := (x.scalar s f.a.toNat 0).val.toNat, pipe := true
      stage := f.sub.toNat % 8, prologue := (x.addr + 2 ^ 32 - 2 * f.imm12.toNat) % 2 ^ 32 }] := by
  have h0 : (x.scalar s f.a.toNat 0).val.toNat ≠ 0 := fun h0 => h (BitVec.eq_of_toNat_eq h0)
  simp [opLoopp, hr, h0]

theorem opLoopp_acts_reent (hr : (s.seqOf x.q).reent = true) : (opLoopp f).acts x s = [.seq x.q (fun y => { y with reent := false })] := if_pos hr

theorem opLoopp_next_cases (f : SL) (x : Ctx) (s : State) :
    (opLoopp f).next x s = .zeroLoop (relTarget x f.off18.toInt) ∨ (opLoopp f).next x s = .seq := by
  by_cases h : (x.scalar s f.a.toNat 0).val = 0
  · cases hr : (s.seqOf x.q).reent with
    | false => exact .inl (opLoopp_next_zero hr h)
    | true => exact .inr (opLoopp_next_reent hr)
  · exact .inr (opLoopp_next_pos h)

theorem opLoopp_unhindered (hs : Settled s) (hp : Unpipelined s) : Unhindered .s 0x36 (opLoopp f) s := by
  refine unhindered_s1 (by decide) (by decide) hs (fun _ _ => rfl) rfl (.inl hp) (targetBad_of_none ?_) fun t => ?_
  all_goals obtain h | h := opLoopp_next_cases f (atS1 s) s <;> simp [h, Next.target]

/-! LEXIT. -/

/-- Whether a LEXIT leaves its levels: unless its register is 0 (R123). -/
def Leaves (f : SL) (x : Ctx) (s : State) : Prop :=
  f.a = 0 ∨ ((x.scalar s f.a.toNat 0).poison = false ∧ (x.scalar s f.a.toNat 0).val ≠ 0)

theorem opLexit_next_leaves (h : Leaves f x s) : (opLexit f).next x s = .lexit (f.imm12.toNat % 8 + 1) (relTarget x f.off18.toInt) :=
  if_pos (by simpa using h.imp_right And.right)

theorem opLexit_next_stays (ha : f.a ≠ 0) (h : (x.scalar s f.a.toNat 0).val = 0) : (opLexit f).next x s = .seq :=
  if_neg (by simpa [h] using ha)

theorem opLexit_cause_leaves (h : Leaves f x s) :
    (opLexit f).cause x s = if (s.seqOf x.q).loops.length < f.imm12.toNat % 8 + 1 then some cLoopUnder else none := by
  have hpoison : (f.a ≠ 0 && (x.scalar s f.a.toNat 0).poison) = false := decide_and_eq_false fun ha => (h.resolve_left ha).1
  have hgoes : (f.a = 0 || (x.scalar s f.a.toNat 0).val ≠ 0) = true := by simpa using h.imp_right And.right
  calc (opLexit f).cause x s
      = lowestCause [((f.a = 0 || (x.scalar s f.a.toNat 0).val ≠ 0) && decide ((s.seqOf x.q).loops.length < f.imm12.toNat % 8 + 1), cLoopUnder)] :=
        lowestCause_false hpoison
    _ = _ := by simp only [lowestCause_last, hgoes, Bool.true_and, decide_eq_true_eq]

theorem opLexit_cause_stays (ha : f.a ≠ 0) (hp : (x.scalar s f.a.toNat 0).poison = false) (h : (x.scalar s f.a.toNat 0).val = 0) :
    (opLexit f).cause x s = none := by
  have hpoison : (f.a ≠ 0 && (x.scalar s f.a.toNat 0).poison) = false := by rw [hp, Bool.and_false]
  have hgoes : (f.a = 0 || (x.scalar s f.a.toNat 0).val ≠ 0) = false := by simpa [h] using ha
  refine (lowestCause_false hpoison).trans (lowestCause_false ?_)
  rw [hgoes, Bool.false_and]

theorem opLexit_unhindered_leaves (hs : Settled s) (h : Leaves f (atS1 s) s) (ht : InStream s (relTarget (atS1 s) f.off18.toInt)) :
    Unhindered .s 0x37 (opLexit f) s :=
  unhindered_s1 (by decide) (by decide) hs (fun _ _ => rfl) rfl (.inr rfl) (targetBad_of_inStream (by rw [opLexit_next_leaves h]; rfl) ht)
    (fun t => by simp [opLexit_next_leaves h])

theorem opLexit_unhindered_stays (hs : Settled s) (ha : f.a ≠ 0) (h : ((atS1 s).scalar s f.a.toNat 0).val = 0) : Unhindered .s 0x37 (opLexit f) s :=
  unhindered_s1 (by decide) (by decide) hs (fun _ _ => rfl) rfl (.inr rfl) (targetBad_of_none (by rw [opLexit_next_stays ha h]; rfl))
    (fun t => by simp [opLexit_next_stays ha h])

/-! The outcomes. -/

theorem exec_loop : exec (.loop f) s = runSlot .s 0x35 (opLoop f) s := rfl
theorem exec_loopp : exec (.loopp f) s = runSlot .s 0x36 (opLoopp f) s := rfl
theorem exec_lexit : exec (.lexit f) s = runSlot .s 0x37 (opLexit f) s := rfl

section Loop

variable (hs : Settled s) (hp : Unpipelined s) (hoff : 0 < f.off18.toInt)
  (hn : f.imm12 = 0xFFF → ((atS1 s).scalar s f.a.toNat 0).poison = false ∧ loopCount f.imm12 ((atS1 s).scalar s f.a.toNat 0) < 2 ^ 32)

include hs hp hoff hn

/-- LOOP pushes an entry whose body begins after its bundle (R120). -/
theorem loop_pushes (hl : (s.seqOf s.cur.q).loops.length < 6) (h0 : loopCount f.imm12 ((atS1 s).scalar s f.a.toNat 0) ≠ 0) :
    exec (.loop f) s = goesOn (atS1 s) [pushLoop s.cur.q
      { start := (s.seqOf s.cur.q).pc + sizeAt s s.cur.q, stop := (relTarget (atS1 s) f.off18.toInt).toNat, index := 0
        count := loopCount f.imm12 ((atS1 s).scalar s f.a.toNat 0) }] s := by
  rw [exec_loop, runSlot_s1_goesTo (by decide) (by decide) (opLoop_unhindered hs hp) ((opLoop_cause hoff hn).trans (if_neg (Nat.not_le.mpr hl)))
    (opLoop_next_pos h0), opLoop_acts_pos h0]
  rfl

theorem loop_skips (hl : (s.seqOf s.cur.q).loops.length < 6) (h0 : loopCount f.imm12 ((atS1 s).scalar s f.a.toNat 0) = 0) :
    exec (.loop f) s = goesTo (atS1 s) (.zeroLoop (relTarget (atS1 s) f.off18.toInt)) [] s := by
  rw [exec_loop, runSlot_s1_goesTo (by decide) (by decide) (opLoop_unhindered hs hp) ((opLoop_cause hoff hn).trans (if_neg (Nat.not_le.mpr hl)))
    (opLoop_next_zero h0), opLoop_acts_zero h0]

theorem loop_overflows (hl : 6 ≤ (s.seqOf s.cur.q).loops.length) : exec (.loop f) s = traps s 1 0x08 :=
  runSlot_s1_traps (by decide) (by decide) (opLoop_unhindered hs hp) ((opLoop_cause hoff hn).trans (if_pos hl)) (by decide) (fun _ => rfl)

end Loop

section Loopp

variable (hs : Settled s) (hp : Unpipelined s) (hoff : 0 < f.off18.toInt) (hr : ((atS1 s).scalar s f.a.toNat 0).poison = false)
  (hn : ((atS1 s).scalar s f.a.toNat 0).val.toNat < 2 ^ 32)

include hs hp hoff hr hn

theorem loopp_pushes (he : (s.seqOf s.cur.q).reent = false) (hl : (s.seqOf s.cur.q).loops.length < 6)
    (h0 : ((atS1 s).scalar s f.a.toNat 0).val ≠ 0) : exec (.loopp f) s = goesOn (atS1 s) [pushLoop s.cur.q
      { start := (s.seqOf s.cur.q).pc + sizeAt s s.cur.q, stop := (relTarget (atS1 s) f.off18.toInt).toNat, index := 0
        count := ((atS1 s).scalar s f.a.toNat 0).val.toNat, pipe := true, stage := f.sub.toNat % 8
        prologue := ((s.seqOf s.cur.q).pc + 2 ^ 32 - 2 * f.imm12.toNat) % 2 ^ 32 }] s := by
  rw [exec_loopp, runSlot_s1_goesTo (by decide) (by decide) (opLoopp_unhindered hs hp)
    ((opLoopp_cause hoff hr hn).trans (if_neg fun h => Nat.not_le.mpr hl h.2)) (opLoopp_next_pos h0), opLoopp_acts_pos he h0]
  rfl

theorem loopp_skips (he : (s.seqOf s.cur.q).reent = false) (hl : (s.seqOf s.cur.q).loops.length < 6)
    (h0 : ((atS1 s).scalar s f.a.toNat 0).val = 0) :
    exec (.loopp f) s = goesTo (atS1 s) (.zeroLoop (relTarget (atS1 s) f.off18.toInt)) [] s := by
  rw [exec_loopp, runSlot_s1_goesTo (by decide) (by decide) (opLoopp_unhindered hs hp)
    ((opLoopp_cause hoff hr hn).trans (if_neg fun h => Nat.not_le.mpr hl h.2)) (opLoopp_next_zero he h0), opLoopp_acts_zero he h0]

theorem loopp_overflows (he : (s.seqOf s.cur.q).reent = false) (hl : 6 ≤ (s.seqOf s.cur.q).loops.length) :
    exec (.loopp f) s = traps s 1 0x08 :=
  runSlot_s1_traps (by decide) (by decide) (opLoopp_unhindered hs hp) ((opLoopp_cause hoff hr hn).trans (if_pos ⟨he, hl⟩)) (by decide)
    (fun _ => rfl)

/-- Under the re-entry flag LOOPP pushes nothing, however full the loop stack is (R124; log 59). -/
theorem loopp_reenters (he : (s.seqOf s.cur.q).reent = true) :
    exec (.loopp f) s = goesOn (atS1 s) [.seq s.cur.q (fun y => { y with reent := false })] s := by
  have hcause : ¬ ((s.seqOf s.cur.q).reent = false ∧ 6 ≤ (s.seqOf s.cur.q).loops.length) := by simp [he]
  rw [exec_loopp, runSlot_s1_goesTo (by decide) (by decide) (opLoopp_unhindered hs hp) ((opLoopp_cause hoff hr hn).trans (if_neg hcause))
    (opLoopp_next_reent he), opLoopp_acts_reent he]
  rfl

end Loopp

/-- LEXIT leaves its levels (R123). -/
theorem lexit_leaves (hs : Settled s) (h : Leaves f (atS1 s) s) (ht : InStream s (relTarget (atS1 s) f.off18.toInt))
    (hl : f.imm12.toNat % 8 + 1 ≤ (s.seqOf s.cur.q).loops.length) :
    exec (.lexit f) s = goesTo (atS1 s) (.lexit (f.imm12.toNat % 8 + 1) (relTarget (atS1 s) f.off18.toInt)) [] s :=
  runSlot_s1_goesTo (by decide) (by decide) (opLexit_unhindered_leaves hs h ht) ((opLexit_cause_leaves h).trans (if_neg (Nat.not_lt.mpr hl)))
    (opLexit_next_leaves h)

theorem lexit_underflows (hs : Settled s) (h : Leaves f (atS1 s) s) (ht : InStream s (relTarget (atS1 s) f.off18.toInt))
    (hl : (s.seqOf s.cur.q).loops.length < f.imm12.toNat % 8 + 1) : exec (.lexit f) s = traps s 1 0x09 :=
  runSlot_s1_traps (by decide) (by decide) (opLexit_unhindered_leaves hs h ht) ((opLexit_cause_leaves h).trans (if_pos hl)) (by decide)
    (fun _ => rfl)

theorem lexit_stays (hs : Settled s) (ha : f.a ≠ 0) (hp : ((atS1 s).scalar s f.a.toNat 0).poison = false)
    (h : ((atS1 s).scalar s f.a.toNat 0).val = 0) : exec (.lexit f) s = goesOn (atS1 s) [] s :=
  runSlot_s1_goesTo (by decide) (by decide) (opLexit_unhindered_stays hs ha h) (opLexit_cause_stays ha hp h) (opLexit_next_stays ha h)

end Sys2Proof.Machine
end

section
/-! PROOFS. A bundle of a REP in slot S1 and at most one other operation, in slot V0: its checks, its effect, and the repetitions still to come
(06 R130 to R132). -/

namespace Sys2Proof.Machine

variable {s : State} {q addr size k : Nat} {r : Rep} {g : RP} {e : Issue} {v : Instr}

/-- The slots of a bundle of a REP and an operation v in V0. -/
def repBundle (g : RP) (v : Instr) : List Instr := [.nop, .rep g, v, .nop, .nop, .nop, .nop, .nop]

/-- Those slots as they issue, e being V0's. -/
def repSlots (g : RP) (e : Issue) : List Issue := [{}, ⟨(Instr.rep g).encoding, opRep g, opRep g⟩, e, {}, {}, {}, {}, {}]

/-- The slot V0 as it issues. -/
def repeatedIssue (r : Rep) (v : Instr) : Issue :=
  if r.targets 2 then (if r.count = 0 then { enc := v.encoding } else { enc := v.encoding, op := opOf v, last := opRepeat r (r.count - 1) v })
  else { enc := v.encoding, op := opOf v, last := opOf v }

/-- REP targets slots V0 to X only (R130). -/
theorem targets_outside (h : k < 2 ∨ 5 < k) : r.targets k = false := by
  simp only [Rep.targets, Bool.and_eq_false_imp, Bool.and_eq_true, decide_eq_true_eq]
  omega

theorem bundleSlots_repBundle : bundleSlots r (repBundle g v) = repSlots g (repeatedIssue r v) := by
  have hnop : ∀ n, (if r.targets n then
      (if r.count = 0 then { enc := Instr.nop.encoding } else { enc := Instr.nop.encoding, op := opOf .nop, last := opRepeat r (r.count - 1) .nop })
      else ({ enc := Instr.nop.encoding, op := opOf .nop, last := opOf .nop } : Issue)) = {} := by
    intro n
    split
    · split <;> rfl
    · rfl
  have hrep : r.targets 1 = false := targets_outside (.inl (by decide))
  simp only [bundleSlots, repBundle, List.mapIdx_cons, List.mapIdx_nil, hnop, hrep, Nat.zero_add, Nat.reduceAdd]
  rfl

/-- Every slot but S1 and V0 is empty. -/
theorem repSlots_getD (h1 : k ≠ 1) (h2 : k ≠ 2) : (repSlots g e).getD k {} = {} := by
  match k with
  | 0 | 3 | 4 | 5 | 6 | 7 => rfl
  | n + 8 => rfl

/-- The only operation that names destinations or rows to write is that of V0. -/
theorem repSlots_writesNothing (h : k ≠ 2) : ((repSlots g e).getD k {}).op.dests = [] ∧ ((repSlots g e).getD k {}).op.wrows = [] := by
  by_cases h1 : k = 1
  · subst h1
    exact ⟨rfl, rfl⟩
  · rw [repSlots_getD h1 h]
    exact ⟨rfl, rfl⟩

theorem conflictSlot_repSlots (h : repeatsConflict r (repSlots g e) 2 = false) : conflictSlot r (repSlots g e) = none := by
  have hrepeats : ∀ n, repeatsConflict r (repSlots g e) n = false := by
    intro n
    by_cases hn : n = 2
    · rw [hn, h]
    · rw [repeatsConflict]
      simp only [repSlots_writesNothing hn, List.isEmpty_nil, Bool.not_true, List.any_nil, ite_self, Bool.and_false]
  have hpair : ∀ n m, n < m → slotsConflict r (repSlots g e) n m = false := by
    intro n m hnm
    rw [slotsConflict]
    by_cases hn : n = 2
    · simp only [repSlots_writesNothing (show m ≠ 2 by omega)]
      simp
    · simp only [repSlots_writesNothing hn]
      simp
  rw [conflictSlot, List.find?_eq_none]
  intro n _
  simp only [hrepeats, Bool.false_or, List.any_eq_true, Bool.and_eq_true, decide_eq_true_eq, not_exists, not_and]
  intro m _ hnm
  rw [hpair n m hnm]
  exact Bool.false_ne_true

/-- The rows that V0 names, now and in the last repetition, are in the allotment (R25, R132). -/
def RowsAllotted (s : State) (q addr size : Nat) (r : Rep) (e : Issue) : Prop :=
  (r.targets 2 && leavesFile r e.enc) = false ∧
    ∀ n ∈ e.op.rows { q := q, slot := 2, addr := addr, size := size } s ++ e.last.rows { q := q, slot := 2, addr := addr, size := size } s,
      inAllotment s q n = true

theorem allotmentSlot_repSlots (h : RowsAllotted s q addr size r e) : allotmentSlot s q addr size r (repSlots g e) = none := by
  rw [allotmentSlot, List.find?_eq_none]
  intro n _
  by_cases h2 : n = 2
  · subst h2
    have : (slotCtx q addr size (repSlots g e) 2) = { q := q, slot := 2, addr := addr, size := size } := rfl
    simp only [this, show (repSlots g e).getD 2 {} = e from rfl, h.1, Bool.false_or, List.any_eq_true, Bool.not_eq_true', not_exists, not_and]
    exact fun m hm => by rw [h.2 m hm]; exact Bool.noConfusion
  · by_cases h1 : n = 1
    · subst h1
      rw [targets_outside (.inl (by decide))]
      exact Bool.false_ne_true
    · simp only [repSlots_getD h1 h2]
      simp [leavesFile]

theorem limitSlot_repSlots (h : e.op.nres = 0 ∨ inFlightCount s q + e.op.nres ≤ Config.inFlightLimit) : limitSlot s q (repSlots g e) = none := by
  rw [limitSlot, List.find?_eq_none]
  intro n _
  by_cases h2 : n = 2
  · subst h2
    have hsum : (((repSlots g e).take 3).map (fun i => i.op.nres)).sum = e.op.nres := by simp [repSlots, opRep]
    have hown : ((repSlots g e).getD 2 {}).op.nres = e.op.nres := rfl
    simp only [hown, hsum, Bool.and_eq_true, decide_eq_true_eq]
    omega
  · have : ((repSlots g e).getD n {}).op.nres = 0 := by
      by_cases h1 : n = 1
      · subst h1; rfl
      · rw [repSlots_getD h1 h2]
    simp only [this, Nat.lt_irrefl, decide_false, Bool.false_and]
    exact Bool.false_ne_true

/-- What the operation of V0 may do beside the REP: it has no cause, names no bundle to follow, and LOOPP allows it. -/
structure Repeatable (s : State) (q addr size : Nat) (e : Issue) : Prop where
  noCause : e.op.cause { q := q, slot := 2, addr := addr, size := size } s = none
  follows : e.op.next { q := q, slot := 2, addr := addr, size := size } s = .seq
  pass : looppIllegal e.enc = false

/-- A slot that neither its operation, nor LOOPP, nor a target stops. -/
theorem slotCause_none {l : List Issue} (hc : (l.getD k {}).op.cause (slotCtx q addr size l k) s = none)
    (hn : (l.getD k {}).op.next (slotCtx q addr size l k) s = .seq) (hp : looppIllegal (l.getD k {}).enc = false) :
    slotCause s q addr size none l k = none := by
  rw [slotCause]
  simp only [hc, hn, hp, Bool.and_false]
  rfl

theorem slotCause_repSlots (hc : (opRep g).cause { q := q, slot := 1, addr := addr, size := size } s = none) (he : Repeatable s q addr size e) :
    slotCause s q addr size none (repSlots g e) k = none := by
  by_cases h1 : k = 1
  · subst h1
    exact slotCause_none hc rfl rfl
  · by_cases h2 : k = 2
    · subst h2
      exact slotCause_none he.noCause he.follows he.pass
    · exact slotCause_empty (repSlots_getD h1 h2)

theorem issueFault_repSlots (hrep : repRefused r (fun n => ((repSlots g e).getD n {}).enc) = false)
    (hconf : repeatsConflict r (repSlots g e) 2 = false) (hrows : RowsAllotted s q addr size r e)
    (hroom : e.op.nres = 0 ∨ inFlightCount s q + e.op.nres ≤ Config.inFlightLimit)
    (hc : (opRep g).cause { q := q, slot := 1, addr := addr, size := size } s = none) (he : Repeatable s q addr size e) :
    issueFault s q addr size r (repSlots g e) = none := by
  rw [issueFault, hrep, conflictSlot_repSlots hconf, allotmentSlot_repSlots hrows, limitSlot_repSlots hroom]
  simp only [Bool.false_eq_true, if_false]
  rw [List.findSome?_eq_none_iff]
  intro n _
  rw [slotCause_repSlots hc he]
  rfl

theorem slotActs_repSlots (hf : ∀ n, (s.rowOf (q / 4) n).flip = 0) :
    slotActs s q addr size (repSlots g e) = e.op.acts { q := q, slot := 2, addr := addr, size := size } s := by
  rw [slotActs, rowFlips_none hf]
  simp [repSlots, opRep, slotCtx, leavesOwn]

theorem nextOf_repSlots : nextOf s q addr size (repSlots g e) = .seq := rfl

/-! The outcome of the bundle. -/

/-- The REP of the bundle at the cursor, its count read at issue (R130). -/
def repAt (g : RP) (s : State) : Rep := repFields g (repCount g (atS1 s) s)

theorem exec_repBundle (hs : Settled s) : exec (.bundleIssue .nop (.rep g) v .nop .nop .nop .nop .nop) s =
    done (issueActs s s.cur.q (s.seqOf s.cur.q).pc (sizeAt s s.cur.q) (repAt g s) (repSlots g (repeatedIssue (repAt g s) v)) ++ [bump]) s := by
  have hexec : exec (.bundleIssue .nop (.rep g) v .nop .nop .nop .nop .nop) s = done (bundleActs s s.cur.q (repBundle g v) ++ [bump]) s := rfl
  have hrep : bundleRep s s.cur.q (s.seqOf s.cur.q).pc (sizeAt s s.cur.q) (repBundle g v) = repAt g s := rfl
  rw [hexec, bundleActs, armLatches_of_settled hs]
  simp only [applyActs_nil, hrep, bundleSlots_repBundle]

/-- A bundle whose checks find no fault does the operation of V0 now and leaves the rest of its repetitions to come. -/
theorem repSlots_goesOn (hs : Settled s)
    (hf : issueFault s s.cur.q (s.seqOf s.cur.q).pc (sizeAt s s.cur.q) r (repSlots g e) = none) :
    done (issueActs s s.cur.q (s.seqOf s.cur.q).pc (sizeAt s s.cur.q) r (repSlots g e) ++ [bump]) s =
      goesOn (atS1 s) (e.op.acts { q := s.cur.q, slot := 2, addr := (s.seqOf s.cur.q).pc, size := sizeAt s s.cur.q } s ++
        startRep s.cur.q (s.seqOf s.cur.q).pc r) s := by
  rw [issueActs, armLatches_of_settled hs]
  simp only [applyActs_nil, hf, slotActs_repSlots hs.2, nextOf_repSlots, List.nil_append]
  rfl

theorem repSlots_refused (hs : Settled s) (h : repRefused r (fun n => ((repSlots g e).getD n {}).enc) = true) :
    done (issueActs s s.cur.q (s.seqOf s.cur.q).pc (sizeAt s s.cur.q) r (repSlots g e) ++ [bump]) s = traps s 1 0x04 := by
  have hf : issueFault s s.cur.q (s.seqOf s.cur.q).pc (sizeAt s s.cur.q) r (repSlots g e) = some (1, cIllegalEncoding) := by
    rw [issueFault, h]
    rfl
  rw [issueActs, armLatches_of_settled hs]
  simp only [applyActs_nil, hf]
  rfl

theorem startRep_repAt : startRep q addr (repAt g s) = if 2 ≤ repCount g (atS1 s) s ∧ g.mask ≠ 0 then
    [.seq q (fun y => { y with rep := some ⟨repCount g (atS1 s) s - 1, g.mask.toNat, g.sd.toInt, g.sa.toInt, g.sb.toInt, addr, 1⟩ })] else [] := by
  have hmask : g.mask.toNat ≠ 0 ↔ g.mask ≠ 0 := by simp [BitVec.toNat_eq]
  refine if_congr ?_ rfl rfl
  rw [Bool.and_eq_true, decide_eq_true_iff, decide_eq_true_iff]
  exact and_congr_right fun _ => hmask

theorem opRep_cause {x : Ctx} (h : g.imm12 = 0xFFF → (x.scalar s g.a.toNat 0).poison = false ∧ (x.scalar s g.a.toNat 0).val.toNat < 2 ^ 24) :
    (opRep g).cause x s = none := by
  refine (lowestCause_false ?_).trans (lowestCause_false (decide_and_eq_false fun hi => (h hi).1))
  rw [Bool.and_assoc]
  exact decide_and_eq_false fun hi => by rw [decide_eq_false (Nat.not_le.mpr (h hi).2), Bool.and_false]

/-! A REP beside no other operation. -/

theorem repeatedIssue_nop : repeatedIssue r .nop = {} := by
  rw [repeatedIssue]
  split
  · split <;> rfl
  · rfl

theorem empty_repeatable : Repeatable s q addr size {} := ⟨rfl, rfl, rfl⟩

theorem empty_rowsAllotted : RowsAllotted s q addr size r {} := by
  refine ⟨?_, fun n hn => absurd hn List.not_mem_nil⟩
  rw [show leavesFile r ({} : Issue).enc = false from rfl, Bool.and_false]

theorem repRefused_of_mask_zero {slots : Nat → Option Encoding} (h : r.mask = 0) : repRefused r slots = false := by
  simp [repRefused, Rep.targets, h]

/-- Empty slots are refused for a stride only: they have no field to advance (R132). -/
theorem repRefused_of_strides_zero (hd : r.sd = 0) (ha : r.sa = 0) (hb : r.sb = 0) :
    repRefused r (fun n => ((repSlots g {}).getD n {}).enc) = false := by
  rw [repRefused, List.any_eq_false]
  intro n _
  by_cases h1 : n = 1
  · rw [h1, targets_outside (.inl (by decide))]
    exact Bool.false_ne_true
  · have henc : ((repSlots g {}).getD n {}).enc = none := by
      by_cases h2 : n = 2
      · rw [h2]; rfl
      · rw [repSlots_getD h1 h2]
    simp only [henc, hd, ha, hb]
    simp [unrepeatable]

theorem mask_testBit {m : BitVec 4} (h : m ≠ 0) : ∃ i, i < 4 ∧ m.toNat.testBit i = true := by
  by_contra hn
  refine h (BitVec.eq_of_getLsbD_eq fun i hi => ?_)
  have hbit : m.getLsbD i = false := Bool.eq_false_iff.mpr fun hb => hn ⟨i, hi, hb⟩
  rw [hbit]
  exact BitVec.getLsbD_zero.symm

theorem repRefused_of_stride (hm : g.mask ≠ 0) (hr : r.mask = g.mask.toNat) (h : r.sd ≠ 0 ∨ r.sa ≠ 0 ∨ r.sb ≠ 0) :
    repRefused r (fun n => ((repSlots g {}).getD n {}).enc) = true := by
  obtain ⟨i, hi, hbit⟩ := mask_testBit hm
  have hnone : ((repSlots g {}).getD (i + 2) {}).enc = none := by
    by_cases h2 : i = 0
    · rw [h2]; rfl
    · rw [repSlots_getD (by omega) (by omega)]
  have htarget : r.targets (i + 2) = true := by
    rw [Rep.targets, Nat.add_sub_cancel, hr, hbit]
    simp only [Bool.and_true, Bool.and_eq_true, decide_eq_true_eq]
    omega
  rw [repRefused, List.any_eq_true]
  refine ⟨i + 2, List.mem_range.mpr (by omega), ?_⟩
  simp only [htarget, hnone, vectorFields, Bool.true_and, Bool.not_false, Bool.and_true, Bool.or_eq_true, decide_eq_true_eq]
  obtain h | h | h := h
  · exact .inl (.inl (.inl h))
  · exact .inl (.inl (.inr h))
  · exact .inl (.inr h)

theorem toInt_ne_zero {w : Nat} {b : BitVec w} (h : b ≠ 0) : b.toInt ≠ 0 := fun h0 => h (BitVec.eq_of_toInt_eq (by simpa using h0))

theorem exec_rep (hs : Settled s) : exec (.rep g) s =
    done (issueActs s s.cur.q (s.seqOf s.cur.q).pc (sizeAt s s.cur.q) (repAt g s) (repSlots g {}) ++ [bump]) s := by
  have h : exec (.rep g) s = exec (.bundleIssue .nop (.rep g) .nop .nop .nop .nop .nop .nop) s := rfl
  rw [h, exec_repBundle hs, repeatedIssue_nop]

/-- A REP with nothing to advance leaves its repetitions to come (R131). -/
theorem rep_goesOn (hs : Settled s) (hc : (opRep g).cause (atS1 s) s = none) (h : g.mask = 0 ∨ g.sd = 0 ∧ g.sa = 0 ∧ g.sb = 0) :
    exec (.rep g) s = goesOn (atS1 s) (startRep s.cur.q (s.seqOf s.cur.q).pc (repAt g s)) s := by
  have hrep : repRefused (repAt g s) (fun n => ((repSlots g {}).getD n {}).enc) = false := by
    obtain h | ⟨hd, ha, hb⟩ := h
    · exact repRefused_of_mask_zero (by simp [repAt, repFields, h])
    · exact repRefused_of_strides_zero (by simp [repAt, repFields, hd]) (by simp [repAt, repFields, ha]) (by simp [repAt, repFields, hb])
  have hconf : repeatsConflict (repAt g s) (repSlots g {}) 2 = false := by
    rw [repeatsConflict]
    simp [repSlots]
  rw [exec_rep hs, repSlots_goesOn hs (issueFault_repSlots hrep hconf empty_rowsAllotted (.inl rfl) hc empty_repeatable)]
  rfl

theorem rep_refused (hs : Settled s) (hm : g.mask ≠ 0) (h : g.sd ≠ 0 ∨ g.sa ≠ 0 ∨ g.sb ≠ 0) : exec (.rep g) s = traps s 1 0x04 := by
  rw [exec_rep hs]
  exact repSlots_refused hs (repRefused_of_stride hm rfl (h.imp toInt_ne_zero (Or.imp toInt_ne_zero toInt_ne_zero)))

/-! A REP of an integer addition in V0. -/

variable {h : VR}

/-- The register fields of an operation of format VR, read back from its encoding (R80). -/
theorem vrPack_fields (h : VR) : h.pack.extractLsb' 23 9 = h.d ∧ h.pack.extractLsb' 14 9 = h.a ∧ h.pack.extractLsb' 5 9 = h.b := by
  have hpack : h.pack = (h.m ++ h.nf ++ h.rm ++ h.d ++ h.a ++ h.b ++ h.aux : BitVec (4 + 1 + 3 + 9 + 9 + 9 + 5)) := rfl
  simp only [hpack]
  refine ⟨?_, ?_, ?_⟩
  · rw [BitVec.extractLsb'_append_eq_of_le (by decide), BitVec.extractLsb'_append_eq_of_le (by decide), BitVec.extractLsb'_append_eq_of_le (by decide)]
    exact BitVec.extractLsb'_append_eq_right
  · rw [BitVec.extractLsb'_append_eq_of_le (by decide), BitVec.extractLsb'_append_eq_of_le (by decide)]
    exact BitVec.extractLsb'_append_eq_right
  · rw [BitVec.extractLsb'_append_eq_of_le (by decide)]
    exact BitVec.extractLsb'_append_eq_right

/-- VIADD.I32 uses its d, a and b fields as vector registers, whatever they hold. -/
theorem vectorFields_viaddI32 : vectorFields (Instr.viaddI32 h).encoding = (true, true, true) := by
  have hbits : ∀ w : BitVec 40, vectorFields (some ⟨.v, 0x23, w, 0xF0FFFFFFE0, 0, true⟩) = (true, true, true) := by
    intro w
    have hd : (0xF0FFFFFFE0 : BitVec 40).extractLsb' 23 9 = BitVec.allOnes 9 := by decide
    have ha : (0xF0FFFFFFE0 : BitVec 40).extractLsb' 14 9 = BitVec.allOnes 9 := by decide
    have hb : (0xF0FFFFFFE0 : BitVec 40).extractLsb' 5 9 = BitVec.allOnes 9 := by decide
    simp only [vectorFields, hd, ha, hb]
    simp
  exact hbits h.pack

/-- A register field in a repetition whose row lies in the file (R131). -/
theorem advance9_toNat {b : BitVec 9} {n row : Nat} {st : Int} (hr : (row : Int) = b.toNat + n * st) (hlt : row < 512) :
    (advance9 b n st).toNat = row := by
  have hb : b = BitVec.ofInt 9 b.toNat := by simp
  have : advance9 b n st = BitVec.ofNat 9 row := by
    rw [advance9, ← BitVec.ofInt_natCast, hr, BitVec.ofInt_add, ← hb]
  rw [this, BitVec.toNat_ofNat, Nat.mod_eq_of_lt hlt]

/-- The first repetition advances nothing. -/
theorem advance9_zero {b : BitVec 9} {st : Int} : advance9 b 0 st = b := by simp [advance9]

theorem vr_zero (r : Rep) (h : VR) : r.vr 0 h = h := by simp only [Rep.vr, advance9_zero]

/-- In every repetition of r the registers d, a and b of an operation name rows of the file that q is allotted (R25, R132). -/
def RowsInReach (s : State) (q : Nat) (r : Rep) (h : VR) : Prop :=
  ∀ (k : Nat) (b : BitVec 9) (st : Int), k < r.count → (b, st) ∈ [(h.d, r.sd), (h.a, r.sa), (h.b, r.sb)] →
    ∃ row : Nat, (row : Int) = b.toNat + k * st ∧ row < 512 ∧ inAllotment s q row = true

theorem RowsInReach.allots (hr : RowsInReach s q r h) (hk : k < r.count) : ∀ n ∈ vrRows (r.vr k h) {} true, inAllotment s q n = true := by
  have field : ∀ (b : BitVec 9) (st : Int), (b, st) ∈ [(h.d, r.sd), (h.a, r.sa), (h.b, r.sb)] → inAllotment s q (advance9 b k st).toNat = true := by
    intro b st hb
    obtain ⟨row, heq, hlt, hin⟩ := hr k b st hk hb
    rw [advance9_toNat heq hlt, hin]
  have hrows : vrRows (r.vr k h) {} true = [(advance9 h.d k r.sd).toNat, (advance9 h.a k r.sa).toNat, (advance9 h.b k r.sb).toNat] := rfl
  rw [hrows]
  simp only [List.forall_mem_cons]
  exact ⟨field _ _ (by simp), field _ _ (by simp), field _ _ (by simp), fun n hn => absurd hn List.not_mem_nil⟩

/-- No field leaves the file after the repetitions (R132). -/
theorem RowsInReach.leavesFile (hr : RowsInReach s q r h) (h0 : 0 < r.count) : leavesFile r (Instr.viaddI32 h).encoding = false := by
  have near : ∀ (b : BitVec 9) (st : Int), (b, st) ∈ [(h.d, r.sd), (h.a, r.sa), (h.b, r.sb)] →
      (decide ((b.toNat : Int) + (r.count - 1 : Nat) * st < 0) || decide (511 < (b.toNat : Int) + (r.count - 1 : Nat) * st)) = false := by
    intro b st hb
    obtain ⟨row, heq, hlt, -⟩ := hr (r.count - 1) b st (by omega) hb
    rw [← heq]
    simp only [Bool.or_eq_false_iff, decide_eq_false_iff_not]
    omega
  obtain ⟨hd, ha, hb⟩ := vrPack_fields h
  have henc : (Instr.viaddI32 h).encoding = some ⟨.v, 0x23, h.pack, 0xF0FFFFFFE0, 0x0, true⟩ := rfl
  have hfields := vectorFields_viaddI32 (h := h)
  rw [henc] at hfields ⊢
  simp only [Machine.leavesFile, hfields, hd, ha, hb, near _ _ (show (h.d, r.sd) ∈ _ by simp), near _ _ (show (h.a, r.sa) ∈ _ by simp),
    near _ _ (show (h.b, r.sb) ∈ _ by simp), Bool.and_false, Bool.or_false]

/-- V0's slot under a REP of it. -/
theorem repeatedIssue_viaddI32 (ht : r.targets 2 = true) (h0 : 0 < r.count) : repeatedIssue r (.viaddI32 h) =
    { enc := (Instr.viaddI32 h).encoding, op := opViaddI32 h, last := opViaddI32 (r.vr (r.count - 1) h) } := by
  rw [repeatedIssue, if_pos ht, if_neg (by omega)]
  rfl

/-- A REP of V0 alone is refused for none of its strides where V0's operation uses all three fields. -/
theorem repRefused_v0 {e : Issue} (hm : r.mask = 1) (hf : vectorFields e.enc = (true, true, true)) (hu : unrepeatable e.enc = false) :
    repRefused r (fun n => ((repSlots g e).getD n {}).enc) = false := by
  have htarget : ∀ n, n ≠ 2 → r.targets n = false := by
    intro n hn
    simp only [Rep.targets, hm, Bool.and_eq_true, decide_eq_true_eq, Bool.eq_false_iff, ne_eq,
      Nat.testBit_one_eq_true_iff_self_eq_zero]
    omega
  rw [repRefused, List.any_eq_false]
  intro n _
  by_cases h2 : n = 2
  · subst h2
    simp only [show (repSlots g e).getD 2 {} = e from rfl, hf, hu]
    simp
  · rw [htarget n h2]
    exact Bool.false_ne_true

/-- One row written, and a stride that is not 0: no two repetitions write one row (R132). -/
theorem repeatsConflict_one_row {e : Issue} {n : Nat} (hd : r.sd ≠ 0) (hw : e.op.wrows = [n]) : repeatsConflict r (repSlots g e) 2 = false := by
  rw [repeatsConflict, show (repSlots g e).getD 2 {} = e from rfl, hw]
  simp [hd]

/-- A REP of an addition in V0 does it now and leaves its repetitions to come (R131). -/
theorem rep_viaddI32_goesOn (hroom : Room s) (hc : (opRep g).cause (atS1 s) s = none) (hm : g.mask = 1) (hd : g.sd ≠ 0)
    (h0 : 0 < (repAt g s).count) (hslot : (atV s).slot = 2) (hmask : ((atV s).mask s h.m.toNat 0).poison = false)
    (hrows : RowsInReach s s.cur.q (repAt g s) h) : exec (.bundleIssue .nop (.rep g) (.viaddI32 h) .nop .nop .nop .nop .nop) s =
      goesOn (atV s) ((opViaddI32 h).acts (atV s) s ++ startRep s.cur.q (s.seqOf s.cur.q).pc (repAt g s)) s := by
  obtain ⟨hs, hlimit⟩ := hroom
  have hrm : (repAt g s).mask = 1 := by rw [repAt, repFields, hm]; rfl
  have hx : ({ q := s.cur.q, slot := 2, addr := (s.seqOf s.cur.q).pc, size := sizeAt s s.cur.q } : Ctx) = atV s := by rw [← hslot]; rfl
  rw [exec_repBundle hs, repeatedIssue_viaddI32 (by rw [Rep.targets, hrm]; rfl) h0]
  refine (repSlots_goesOn hs (issueFault_repSlots (repRefused_v0 hrm vectorFields_viaddI32 rfl) (repeatsConflict_one_row (toInt_ne_zero hd) rfl)
    ⟨?_, fun n hn => ?_⟩ (.inr ?_) hc ⟨?_, rfl, rfl⟩)).trans ?_
  · rw [hrows.leavesFile h0, Bool.and_false]
  · obtain hn | hn := List.mem_append.mp hn
    · exact hrows.allots h0 n (by rw [vr_zero]; exact hn)
    · exact hrows.allots (Nat.sub_lt h0 Nat.one_pos) n hn
  · exact Nat.succ_le_of_lt hlimit
  · rw [hx]
    exact maskCause_none hmask
  · rw [hx]
    rfl

/-! The statement. -/

theorem fits_count {imm : BitVec 12} {a : BitVec 6} {x : SReg} {b : Nat}
    (h : imm = 0xFFF → a ≠ 0 ∧ x.poison = false ∧ (if imm = 0xFFF then x.val.toNat else imm.toNat) < b) (hi : imm = 0xFFF) :
    x.poison = false ∧ x.val.toNat < b := by
  obtain ⟨-, hp, hlt⟩ := h hi
  rw [if_pos hi] at hlt
  exact ⟨hp, hlt⟩

theorem rowsInReach_repAt (hr : ∀ (k : Nat) (b : BitVec 9) (st : BitVec 6), k < (repAt g s).count → (b, st) ∈ [(h.d, g.sd), (h.a, g.sa), (h.b, g.sb)] →
    ∃ row : Nat, (row : Int) = b.toNat + k * st.toInt ∧ row < 512 ∧ inAllotment s q row = true) : RowsInReach s q (repAt g s) h := by
  intro k b st hk hb
  have hmap : [(h.d, (repAt g s).sd), (h.a, (repAt g s).sa), (h.b, (repAt g s).sb)] =
      [(h.d, g.sd), (h.a, g.sa), (h.b, g.sb)].map (fun e => (e.1, e.2.toInt)) := rfl
  rw [hmap] at hb
  obtain ⟨e, he, heq⟩ := List.mem_map.mp hb
  obtain ⟨rfl, rfl⟩ := Prod.mk.inj heq
  exact hr k e.1 e.2 hk he

/-- Settles O21: LOOP, LOOPP and LEXIT by the causes that stop them, REP by the checks of its bundle. -/
theorem loopResults : Obligations.LoopResults := by
  refine ⟨fun f s hs => ⟨fun hp hoff hn => ?_, fun hp hoff ha hr hlt => ?_, fun hleaves ht hl => ?_, fun hleaves ht hl => ?_, fun ha hr h0 => ?_⟩,
    fun g s hs => ?_⟩
  · have hn' : f.imm12 = 0xFFF → ((atS1 s).scalar s f.a.toNat 0).poison = false ∧ loopCount f.imm12 ((atS1 s).scalar s f.a.toNat 0) < 2 ^ 32 :=
      fun h => (hn h).2
    exact ⟨loop_pushes hs hp hoff hn', loop_skips hs hp hoff hn', loop_overflows hs hp hoff hn'⟩
  · exact ⟨loopp_pushes hs hp hoff hr hlt, loopp_skips hs hp hoff hr hlt, loopp_overflows hs hp hoff hr hlt, loopp_reenters hs hp hoff hr hlt⟩
  · exact lexit_leaves hs hleaves ht hl
  · exact lexit_underflows hs hleaves ht hl
  · exact lexit_stays hs ha hr h0
  · intro x q c n more hn
    have hcause : (opRep g).cause (atS1 s) s = none := opRep_cause (fits_count hn)
    have hmore : more = startRep q (s.seqOf q).pc (repAt g s) := startRep_repAt.symm
    refine ⟨fun h => ?_, rep_refused hs, fun h hm hd h0 hroom hslot hmask hrows => ?_⟩
    · rw [hmore]
      exact rep_goesOn hs hcause h
    · rw [hmore]
      exact rep_viaddI32_goesOn hroom hcause hm hd h0 hslot hmask (rowsInReach_repAt hrows)

end Sys2Proof.Machine
end

section
/-! PROOFS. Decoding and encoding: the fields of each format, the operations that share an opcode, one slot, a bundle (04 R68, R69, R79 to R90). -/

namespace Sys2Proof

/-! Each format reads its own fields back (R79 to R82). -/

@[simp] theorem SR.unpack_pack (f : SR) : SR.unpack f.pack = f := by
  simp (disch := decide) only [SR.pack, SR.unpack, BitVec.extractLsb'_append_eq_of_le, Nat.reduceSub,
    BitVec.extractLsb'_append_eq_right, BitVec.extractLsb'_eq_self]
@[simp] theorem SI.unpack_pack (f : SI) : SI.unpack f.pack = f := by
  simp (disch := decide) only [SI.pack, SI.unpack, BitVec.extractLsb'_append_eq_of_le, Nat.reduceSub,
    BitVec.extractLsb'_append_eq_right, BitVec.extractLsb'_eq_self]
@[simp] theorem SB.unpack_pack (f : SB) : SB.unpack f.pack = f := by
  simp (disch := decide) only [SB.pack, SB.unpack, BitVec.extractLsb'_append_eq_of_le, Nat.reduceSub,
    BitVec.extractLsb'_append_eq_right, BitVec.extractLsb'_eq_self]
@[simp] theorem SL.unpack_pack (f : SL) : SL.unpack f.pack = f := by
  simp (disch := decide) only [SL.pack, SL.unpack, BitVec.extractLsb'_append_eq_of_le, Nat.reduceSub,
    BitVec.extractLsb'_append_eq_right, BitVec.extractLsb'_eq_self]
@[simp] theorem RP.unpack_pack (f : RP) : RP.unpack f.pack = f := by
  simp (disch := decide) only [RP.pack, RP.unpack, BitVec.extractLsb'_append_eq_of_le, Nat.reduceSub,
    BitVec.extractLsb'_append_eq_right, BitVec.extractLsb'_eq_self]
@[simp] theorem SX.unpack_pack (f : SX) : SX.unpack f.pack = f := by
  simp (disch := decide) only [SX.pack, SX.unpack, BitVec.extractLsb'_append_eq_of_le, Nat.reduceSub,
    BitVec.extractLsb'_append_eq_right, BitVec.extractLsb'_eq_self]
@[simp] theorem VR.unpack_pack (f : VR) : VR.unpack f.pack = f := by
  simp (disch := decide) only [VR.pack, VR.unpack, BitVec.extractLsb'_append_eq_of_le, Nat.reduceSub,
    BitVec.extractLsb'_append_eq_right, BitVec.extractLsb'_eq_self]
@[simp] theorem VI.unpack_pack (f : VI) : VI.unpack f.pack = f := by
  simp (disch := decide) only [VI.pack, VI.unpack, BitVec.extractLsb'_append_eq_of_le, Nat.reduceSub,
    BitVec.extractLsb'_append_eq_right, BitVec.extractLsb'_eq_self]
@[simp] theorem XC.unpack_pack (f : XC) : XC.unpack f.pack = f := by
  simp (disch := decide) only [XC.pack, XC.unpack, BitVec.extractLsb'_append_eq_of_le, Nat.reduceSub,
    BitVec.extractLsb'_append_eq_right, BitVec.extractLsb'_eq_self]
@[simp] theorem XD.unpack_pack (f : XD) : XD.unpack f.pack = f := by
  simp (disch := decide) only [XD.pack, XD.unpack, BitVec.extractLsb'_append_eq_of_le, Nat.reduceSub,
    BitVec.extractLsb'_append_eq_right, BitVec.extractLsb'_eq_self]
@[simp] theorem XZ.unpack_pack (f : XZ) : XZ.unpack f.pack = f := by
  simp (disch := decide) only [XZ.pack, XZ.unpack, BitVec.extractLsb'_append_eq_of_le, Nat.reduceSub,
    BitVec.extractLsb'_append_eq_right, BitVec.extractLsb'_eq_self]
@[simp] theorem XU.unpack_pack (f : XU) : XU.unpack f.pack = f := by
  simp (disch := decide) only [XU.pack, XU.unpack, BitVec.extractLsb'_append_eq_of_le, Nat.reduceSub,
    BitVec.extractLsb'_append_eq_right, BitVec.extractLsb'_eq_self]
@[simp] theorem MA.unpack_pack (f : MA) : MA.unpack f.pack = f := by
  simp (disch := decide) only [MA.pack, MA.unpack, BitVec.extractLsb'_append_eq_of_le, Nat.reduceSub,
    BitVec.extractLsb'_append_eq_right, BitVec.extractLsb'_eq_self]
@[simp] theorem MI.unpack_pack (f : MI) : MI.unpack f.pack = f := by
  simp (disch := decide) only [MI.pack, MI.unpack, BitVec.extractLsb'_append_eq_of_le, Nat.reduceSub,
    BitVec.extractLsb'_append_eq_right, BitVec.extractLsb'_eq_self]
@[simp] theorem MC.unpack_pack (f : MC) : MC.unpack f.pack = f := by
  simp (disch := decide) only [MC.pack, MC.unpack, BitVec.extractLsb'_append_eq_of_le, Nat.reduceSub,
    BitVec.extractLsb'_append_eq_right, BitVec.extractLsb'_eq_self]
@[simp] theorem MS.unpack_pack (f : MS) : MS.unpack f.pack = f := by
  simp (disch := decide) only [MS.pack, MS.unpack, BitVec.extractLsb'_append_eq_of_le, Nat.reduceSub,
    BitVec.extractLsb'_append_eq_right, BitVec.extractLsb'_eq_self]
@[simp] theorem MH.unpack_pack (f : MH) : MH.unpack f.pack = f := by
  simp (disch := decide) only [MH.pack, MH.unpack, BitVec.extractLsb'_append_eq_of_le, Nat.reduceSub,
    BitVec.extractLsb'_append_eq_right, BitVec.extractLsb'_eq_self]
@[simp] theorem MJ.unpack_pack (f : MJ) : MJ.unpack f.pack = f := by
  simp (disch := decide) only [MJ.pack, MJ.unpack, BitVec.extractLsb'_append_eq_of_le, Nat.reduceSub,
    BitVec.extractLsb'_append_eq_right, BitVec.extractLsb'_eq_self]

variable {i j : Instr} {e : Encoding} {c : SlotClass} {op n : Nat} {w : BitVec 40} {x : SlotWord} {l : List Instr}

/-- The opcode of a slot operation; NOP's is 0 (R69). -/
def Instr.opcode (i : Instr) : Nat := match i.encoding with | some e => e.op.toNat | none => 0

/-- Two operations of one opcode are told apart by bits that one of them fixes and the other does not name, or fixes otherwise. -/
def Instr.apart (i j : Instr) : Bool :=
  match i.encoding, j.encoding with
  | some ⟨_, _, _, used, fixed, _⟩, some ⟨_, _, _, used', fixed', _⟩ => fixed &&& ~~~used' != fixed' &&& ~~~used
  | _, _ => false

/-- The operations all have the opcode op, and no two of them are encoded alike. -/
def readsAs (op : Nat) : List Instr → Bool
  | [] => true
  | i :: l => i.opcode == op && l.all i.apart && readsAs op l

theorem opcode_of_encoding (h : i.encoding = some e) : i.opcode = e.op.toNat := by rw [Instr.opcode, h]

/-! What the tables of R86 to R89 list. -/

/-- A slot operation is among those that share its class and opcode, read from the bits of its own fields. -/
theorem mem_candidates (h : i.encoding = some e) : i ∈ candidates e.cls e.op.toNat e.bits := by
  cases i <;> cases h <;> (conv => enter [1]; whnf) <;> simp

theorem assigned_opcode (h : i.encoding = some e) : assigned e.cls e.op.toNat = true := by
  cases i <;> cases h <;> rfl

/-- No two operations of an opcode are encoded alike: every row of the tables computes to it. -/
theorem candidates_readsAs : readsAs op (candidates c op w) = true := by
  cases c <;> delta candidates candidatesS candidatesV candidatesX candidatesM <;> dsimp only
  all_goals
    split
    case h_1 => split <;> rfl
    all_goals rfl

theorem opcode_of_mem (hl : readsAs op l = true) (h : i ∈ l) : i.opcode = op := by
  induction l with
  | nil => exact absurd h List.not_mem_nil
  | cons j l ih =>
    simp only [readsAs, Bool.and_eq_true, beq_iff_eq] at hl
    obtain rfl | h := List.mem_cons.mp h
    · exact hl.1.1
    · exact ih hl.2 h

/-! One slot. -/

/-- A slot operation other than NOP is well formed when its class is the slot's, the bits outside its fields are those its entry fixes, and its codes are
legal (R85, R90). -/
theorem wfSlot_iff (hn : i ≠ .nop) :
    i.wfSlot c = true ↔ ∃ e, i.encoding = some e ∧ e.cls = c ∧ e.bits &&& ~~~e.used = e.fixed ∧ e.codes = true := by
  unfold Instr.wfSlot
  split
  · exact absurd rfl hn
  · cases i.encoding with
    | none => simp
    | some e => simp [and_assoc]

theorem apart_nop : i.apart .nop = false := by
  rw [Instr.apart]
  cases i.encoding <;> rfl

/-- No bits of a slot are those of two well-formed operations that are told apart. -/
theorem not_apart (hi : i.wfSlot c = true) (hj : j.wfSlot c = true) (hwi : i.holds w = true) (hwj : j.holds w = true) : i.apart j = false := by
  by_cases hni : i = .nop
  · rw [hni]; rfl
  by_cases hnj : j = .nop
  · rw [hnj, apart_nop]
  obtain ⟨e, he, -, hfe, -⟩ := (wfSlot_iff hni).mp hi
  obtain ⟨d, hd, -, hfd, -⟩ := (wfSlot_iff hnj).mp hj
  simp only [Instr.holds, he, hd, decide_eq_true_eq] at hwi hwj
  simp only [Instr.apart, he, hd, ← hfe, ← hfd, hwi, hwj, bne_eq_false_iff_eq]
  rw [BitVec.and_assoc, BitVec.and_assoc, BitVec.and_comm (~~~e.used)]

/-- Of operations that are told apart a slot's bits are those of one well-formed one at most. -/
theorem find?_holds (hl : readsAs op l = true) (h : i ∈ l) (hi : i.wfSlot c = true) (hw : i.holds w = true) :
    l.find? (fun k => k.wfSlot c && k.holds w) = some i := by
  induction l with
  | nil => exact absurd h List.not_mem_nil
  | cons j l ih =>
    simp only [readsAs, Bool.and_eq_true, List.all_eq_true] at hl
    obtain ⟨⟨-, hapart⟩, hrest⟩ := hl
    obtain rfl | h := List.mem_cons.mp h
    · rw [List.find?_cons_of_pos (by simp [hi, hw])]
    · rw [List.find?_cons_of_neg, ih hrest h]
      intro hj
      obtain ⟨hj, hwj⟩ := Bool.and_eq_true_iff.mp hj
      exact absurd (hapart i h) (by simp [not_apart hj hi hwj hw])

/-- The word of a slot is that of an operation exactly when its opcode is the operation's and its low 40 bits are the operation's fields (R68). -/
theorem encodeSlot_eq_iff : encodeSlot i = x ↔ i.opcode = (x.extractLsb' 40 8).toNat ∧ i.holds (x.extractLsb' 0 40) = true := by
  have hx : x.extractLsb' 40 8 ++ x.extractLsb' 0 40 = x :=
    (BitVec.extractLsb'_append_extractLsb'_eq_extractLsb' rfl).trans BitVec.extractLsb'_eq_self
  rw [encodeSlot, Instr.opcode, Instr.holds]
  cases i.encoding with
  | none =>
    simp only [decide_eq_true_eq]
    constructor
    · rintro rfl
      exact ⟨rfl, rfl⟩
    · rintro ⟨hop, hbits⟩
      rw [← hx, hbits, BitVec.eq_of_toNat_eq (y := 0#8) hop.symm]
      rfl
  | some e =>
    simp only [decide_eq_true_eq, BitVec.toNat_inj]
    constructor
    · rintro rfl
      exact ⟨BitVec.extractLsb'_append_eq_left.symm, BitVec.extractLsb'_append_eq_right.symm⟩
    · rintro ⟨hop, hbits⟩
      rw [hop, hbits, hx]

theorem opcode_encodeSlot : ((encodeSlot i).extractLsb' 40 8).toNat = i.opcode := (encodeSlot_eq_iff.mp rfl).1.symm

/-- The decoder finds a well-formed operation in its word. -/
theorem decodeSlot_encodeSlot (hi : i.wfSlot c = true) : decodeSlot c (encodeSlot i) = .ok i := by
  have hholds : i.holds ((encodeSlot i).extractLsb' 0 40) = true := (encodeSlot_eq_iff.mp rfl).2
  by_cases hn : i = .nop
  · subst hn
    cases c <;> rfl
  obtain ⟨e, he, hcls, -⟩ := (wfSlot_iff hn).mp hi
  have hbits : (encodeSlot i).extractLsb' 0 40 = e.bits := by
    rw [encodeSlot, he]
    exact BitVec.extractLsb'_append_eq_right
  subst hcls
  rw [decodeSlot, opcode_encodeSlot, opcode_of_encoding he, assigned_opcode he, if_pos rfl]
  rw [hbits] at hholds ⊢
  rw [find?_holds candidates_readsAs (mem_candidates he) hi hholds]

/-- Whatever the decoder reads is well formed, and its word is the one read. -/
theorem encodeSlot_of_decodeSlot (h : decodeSlot c x = .ok i) : i.wfSlot c = true ∧ encodeSlot i = x := by
  rw [decodeSlot] at h
  split at h
  · split at h
    · next k hk =>
      obtain rfl := Except.ok.inj h
      obtain ⟨hwf, hholds⟩ := Bool.and_eq_true_iff.mp (List.find?_some (p := fun i : Instr => i.wfSlot c && i.holds (x.extractLsb' 0 40)) hk)
      exact ⟨hwf, encodeSlot_eq_iff.mpr ⟨opcode_of_mem candidates_readsAs (List.mem_of_find?_eq_some hk), hholds⟩⟩
    · exact absurd h (by simp)
  · exact absurd h (by simp)

theorem decodeSlot_ok_iff : decodeSlot c x = .ok i ↔ i.wfSlot c = true ∧ encodeSlot i = x :=
  ⟨encodeSlot_of_decodeSlot, fun ⟨hi, hx⟩ => hx ▸ decodeSlot_encodeSlot hi⟩

/-! The eight slots of a bundle (R68). -/

section Bundle

variable {s0 s1 v0 v1 v2 x m0 m1 : Instr} {b : BundleWord}

theorem forall_lt_eight {p : Nat → Prop} : (∀ n, n < 8 → p n) ↔ p 0 ∧ p 1 ∧ p 2 ∧ p 3 ∧ p 4 ∧ p 5 ∧ p 6 ∧ p 7 := by
  constructor
  · intro h
    exact ⟨h 0 (by decide), h 1 (by decide), h 2 (by decide), h 3 (by decide), h 4 (by decide), h 5 (by decide), h 6 (by decide), h 7 (by decide)⟩
  · rintro ⟨h0, h1, h2, h3, h4, h5, h6, h7⟩ n hn
    interval_cases n <;> assumption

theorem slotWord_encode (hn : n < 8) :
    slotWord (encode (.bundleIssue s0 s1 v0 v1 v2 x m0 m1)) n = encodeSlot ([s0, s1, v0, v1, v2, x, m0, m1].getD n .nop) := by
  simp only [slotWord, encode]
  interval_cases n <;>
    simp (disch := decide) only [BitVec.extractLsb'_append_eq_of_le, Nat.reduceSub, Nat.reduceMul, BitVec.extractLsb'_append_eq_right,
      BitVec.extractLsb'_eq_self] <;>
    rfl

theorem slotWords_append (b : BundleWord) : slotWord b 0 ++ slotWord b 1 ++ slotWord b 2 ++ slotWord b 3 ++ slotWord b 4 ++ slotWord b 5 ++ slotWord b 6 ++
    slotWord b 7 = b := by
  simp (disch := decide) only [slotWord, Nat.reduceSub, Nat.reduceMul, BitVec.extractLsb'_append_extractLsb'_eq_extractLsb']
  exact BitVec.extractLsb'_eq_self

/-- A bundle's word is that of eight operations exactly when each slot's word is that of its own. -/
theorem encode_eq_iff : encode (.bundleIssue s0 s1 v0 v1 v2 x m0 m1) = b ↔
    ∀ n, n < 8 → encodeSlot ([s0, s1, v0, v1, v2, x, m0, m1].getD n .nop) = slotWord b n := by
  constructor
  · rintro rfl n hn
    exact (slotWord_encode hn).symm
  · intro h
    calc encode (.bundleIssue s0 s1 v0 v1 v2 x m0 m1)
        = slotWord b 0 ++ slotWord b 1 ++ slotWord b 2 ++ slotWord b 3 ++ slotWord b 4 ++ slotWord b 5 ++ slotWord b 6 ++ slotWord b 7 := by
          rw [← h 0 (by decide), ← h 1 (by decide), ← h 2 (by decide), ← h 3 (by decide), ← h 4 (by decide), ← h 5 (by decide), ← h 6 (by decide),
            ← h 7 (by decide)]
          rfl
      _ = b := slotWords_append b

/-! Illegal slots (R69, R89). -/

/-- The three ways in which a slot is illegal by its opcode: an S1 opcode in S0, PROBE beside a branch in S1, PROBE twice. -/
theorem slotIllegal_false_iff {branch : Bool} : (∀ n, n < 8 → slotIllegal b branch n = false) ↔
    ¬ (0x30 ≤ slotOpcode b 0 ∧ slotOpcode b 0 ≤ 0x47) ∧ ¬ ((slotOpcode b 6 = 0x0F ∨ slotOpcode b 7 = 0x0F) ∧ branch = true) ∧
      ¬ (slotOpcode b 6 = 0x0F ∧ slotOpcode b 7 = 0x0F) := by
  rw [forall_lt_eight]
  simp [slotIllegal]
  grind

/-- A well-formed operation other than NOP is among those of its opcode. -/
theorem mem_candidates_of_wfSlot (hi : i.wfSlot c = true) (hn : i ≠ .nop) : ∃ w, i ∈ candidates c i.opcode w := by
  obtain ⟨e, he, rfl, -⟩ := (wfSlot_iff hn).mp hi
  exact ⟨e.bits, opcode_of_encoding he ▸ mem_candidates he⟩

/-- PROBE is the one operation of its opcode (R89). -/
theorem isProbe_iff (hi : i.wfSlot .m = true) : i.isProbe = true ↔ i.opcode = 0x0F := by
  constructor
  · intro h
    unfold Instr.isProbe at h
    split at h
    · rfl
    · exact absurd h (by simp)
  · intro h
    obtain ⟨w, hw⟩ := mem_candidates_of_wfSlot hi fun hn => absurd (hn ▸ h) (by decide)
    rw [h] at hw
    obtain rfl := List.mem_singleton.mp hw
    rfl

theorem s1Only_iff (hi : i.wfSlot .s = true) : i.s1Only = true ↔ 0x30 ≤ i.opcode ∧ i.opcode ≤ 0x47 := by
  by_cases hn : i = .nop
  · subst hn
    decide
  · obtain ⟨e, he, hcls, -⟩ := (wfSlot_iff hn).mp hi
    simp [Instr.s1Only, opcode_of_encoding he, he, hcls]

/-! The bundle. -/

/-- A bundle is well formed when its eight operations are and no slot of its word is illegal (R68, R69, R89). -/
theorem wf_bundle_iff (hb : encode (.bundleIssue s0 s1 v0 v1 v2 x m0 m1) = b) : (Instr.bundleIssue s0 s1 v0 v1 v2 x m0 m1).wf = true ↔
    (∀ n, n < 8 → ([s0, s1, v0, v1, v2, x, m0, m1].getD n .nop).wfSlot (slotClass n) = true) ∧ ∀ n, n < 8 → slotIllegal b s1.isBranch n = false := by
  have hop : ∀ n, n < 8 → slotOpcode b n = ([s0, s1, v0, v1, v2, x, m0, m1].getD n .nop).opcode := fun n hn => by
    rw [slotOpcode, ← encode_eq_iff.mp hb n hn, opcode_encodeSlot]
  have hwf : (Instr.bundleIssue s0 s1 v0 v1 v2 x m0 m1).wf = true ↔
      (s0.wfSlot .s = true ∧ s1.wfSlot .s = true ∧ v0.wfSlot .v = true ∧ v1.wfSlot .v = true ∧ v2.wfSlot .v = true ∧ x.wfSlot .x = true ∧
        m0.wfSlot .m = true ∧ m1.wfSlot .m = true) ∧ ¬ s0.s1Only = true ∧ ¬ ((m0.isProbe = true ∨ m1.isProbe = true) ∧ s1.isBranch = true) ∧
        ¬ (m0.isProbe = true ∧ m1.isProbe = true) := by
    simp only [Instr.wf, Bool.and_eq_true, Bool.or_eq_true, Bool.not_eq_true', Bool.eq_false_iff, ne_eq, and_assoc]
  rw [hwf, slotIllegal_false_iff, hop 0 (by decide), hop 6 (by decide), hop 7 (by decide), forall_lt_eight]
  refine and_congr_right fun ⟨h0, _, _, _, _, _, h6, h7⟩ => ?_
  rw [s1Only_iff h0, isProbe_iff h6, isProbe_iff h7]
  rfl

/-- No slot of a bundle has a fault exactly when each holds an operation and none is illegal (R90). -/
theorem firstSlotFault_none {ds : Nat → Except SlotFault Instr} (h1 : ds 1 = .ok s1) :
    firstSlotFault b ds = none ↔ ∀ n, n < 8 → (∃ i, ds n = .ok i) ∧ slotIllegal b s1.isBranch n = false := by
  simp only [firstSlotFault, List.findSome?_eq_none_iff, List.mem_range, Option.map_eq_none_iff]
  refine forall₂_congr fun n hn => ?_
  rw [slotFault, h1]
  cases ds n with
  | error f =>
    cases f with
    | undefinedOpcode => simp
    | illegalSlot => simp
    | illegalEncoding =>
      simp
      split <;> simp
  | ok i => simp

theorem decodeBundle_ok_iff : decodeBundle b = .ok (.bundleIssue s0 s1 v0 v1 v2 x m0 m1) ↔
    (∀ n, n < 8 → decodeSlot (slotClass n) (slotWord b n) = .ok ([s0, s1, v0, v1, v2, x, m0, m1].getD n .nop)) ∧
      ∀ n, n < 8 → slotIllegal b s1.isBranch n = false := by
  rw [decodeBundle]
  generalize hds : (fun n => decodeSlot (slotClass n) (slotWord b n)) = ds
  simp only [fun n => congrFun hds n]
  constructor
  · intro h
    split at h
    · exact absurd h (by simp)
    · next hnone =>
      split at h
      · next a0 a1 a2 a3 a4 a5 a6 a7 h0 h1 h2 h3 h4 h5 h6 h7 =>
        obtain ⟨rfl, rfl, rfl, rfl, rfl, rfl, rfl, rfl⟩ := Instr.bundleIssue.inj (Except.ok.inj h)
        exact ⟨forall_lt_eight.mpr ⟨h0, h1, h2, h3, h4, h5, h6, h7⟩, fun n hn => ((firstSlotFault_none h1).mp hnone n hn).2⟩
      · exact absurd h (by simp)
  · rintro ⟨hs, hl⟩
    have hnone : firstSlotFault b ds = none := (firstSlotFault_none (hs 1 (by decide))).mpr fun n hn => ⟨⟨_, hs n hn⟩, hl n hn⟩
    obtain ⟨h0, h1, h2, h3, h4, h5, h6, h7⟩ := forall_lt_eight.mp hs
    simp only [hnone, h0, h1, h2, h3, h4, h5, h6, h7]
    rfl

theorem decodeBundle_bundle (h : decodeBundle b = .ok i) : ∃ s0 s1 v0 v1 v2 x m0 m1, i = .bundleIssue s0 s1 v0 v1 v2 x m0 m1 := by
  rw [decodeBundle] at h
  split at h
  · exact absurd h (by simp)
  · split at h
    · exact ⟨_, _, _, _, _, _, _, _, (Except.ok.inj h).symm⟩
    · exact absurd h (by simp)

/-- A bundle's word decodes to the bundle exactly when the bundle is well formed and the word is its encoding. -/
theorem decodeBundle_iff : decodeBundle b = .ok (.bundleIssue s0 s1 v0 v1 v2 x m0 m1) ↔
    (Instr.bundleIssue s0 s1 v0 v1 v2 x m0 m1).wf = true ∧ encode (.bundleIssue s0 s1 v0 v1 v2 x m0 m1) = b := by
  rw [decodeBundle_ok_iff]
  simp only [decodeSlot_ok_iff]
  constructor
  · rintro ⟨hs, hl⟩
    have hb := encode_eq_iff.mpr fun n hn => (hs n hn).2
    exact ⟨(wf_bundle_iff hb).mpr ⟨fun n hn => (hs n hn).1, hl⟩, hb⟩
  · rintro ⟨hwf, hb⟩
    obtain ⟨hs, hl⟩ := (wf_bundle_iff hb).mp hwf
    exact ⟨fun n hn => ⟨hs n hn, encode_eq_iff.mp hb n hn⟩, hl⟩

end Bundle

/-- Settles O52: a bundle's word decodes to the bundle exactly when the bundle is well formed and the word is its encoding. -/
theorem decodeEncode : Obligations.DecodeEncode := by
  refine ⟨fun s0 s1 v0 v1 v2 x m0 m1 hwf => decodeBundle_iff.mpr ⟨hwf, rfl⟩, fun b i h => ?_⟩
  obtain ⟨s0, s1, v0, v1, v2, x, m0, m1, rfl⟩ := decodeBundle_bundle h
  exact decodeBundle_iff.mp h

/-- A word of an unassigned opcode is undefined (R90). -/
theorem decodeSlot_unassigned {c : SlotClass} {x : SlotWord} (h : assigned c (x.extractLsb' 40 8).toNat = false) : decodeSlot c x = .error .undefinedOpcode := by
  rw [decodeSlot, h]
  rfl

/-- Settles O60: each word is the encoding of a well-formed operation; the last two have a reserved bit set and an unassigned opcode. -/
theorem decodedWords : Obligations.DecodedWords := by
  refine ⟨decodeSlot_ok_iff.mpr ⟨rfl, rfl⟩, decodeSlot_ok_iff.mpr ⟨rfl, rfl⟩, decodeSlot_ok_iff.mpr ⟨rfl, rfl⟩, decodeSlot_ok_iff.mpr ⟨rfl, rfl⟩,
    decodeSlot_ok_iff.mpr ⟨rfl, rfl⟩, decodeSlot_ok_iff.mpr ⟨rfl, rfl⟩, decodeSlot_ok_iff.mpr ⟨rfl, rfl⟩, decodeSlot_ok_iff.mpr ⟨rfl, rfl⟩,
    decodeSlot_ok_iff.mpr ⟨rfl, rfl⟩, ?_, decodeSlot_unassigned (by decide)⟩
  rfl

end Sys2Proof
end

section
/-! PROOFS. What a step does in each phase: the turn of a core, by what its stream holds, and the steps that are due (02 R16, 04 R73, 06 R131). -/

namespace Sys2Proof.Machine

variable {s : State} {q pc n k c d code : Nat} {b : BundleWord} {i : Instr} {l : List Act}

/-! What the stream holds at an address. -/

theorem fetch_decoded (h : fetchBundle s (q / 4) pc = some (b, n)) (hf : decodeFault b = none) (hd : decodeBundle b = .ok i) : fetch s q pc = .ok i := by
  simp only [fetch, h, hf, hd]

theorem fetch_faulty (h : fetchBundle s (q / 4) pc = some (b, n)) (hf : decodeFault b = some (k, code)) : fetch s q pc = .error (precise code k pc) := by
  simp only [fetch, h, hf]

theorem fetch_outside (h : fetchBundle s (q / 4) pc = none) : fetch s q pc = .error (precise cIllegalStream 0 pc) := by simp only [fetch, h]

/-! The turn of a sequencer. -/

theorem seqTurn_trap (h : boundaryTrap s q = some (l, i)) : seqTurn s q = exec i (applyActs l s) := by simp only [seqTurn, h]

theorem seqTurn_repeat {p : RepState} (h : boundaryTrap s q = none) (hr : (s.seqOf q).rep = some p) (hf : fetch s q p.addr = .ok i) :
    seqTurn s q = performs (repeatActs s q p (slotsOf i)) s := by
  simp only [seqTurn, h, hr, hf]
  rfl

theorem seqTurn_issue (h : boundaryTrap s q = none) (hr : (s.seqOf q).rep = none) (hf : fetch s q (s.seqOf q).pc = .ok i) : seqTurn s q = exec i s := by
  simp only [seqTurn, h, hr, hf]

theorem seqTurn_refused {cause : Cause} (h : boundaryTrap s q = none) (hr : (s.seqOf q).rep = none) (hf : fetch s q (s.seqOf q).pc = .error cause) :
    seqTurn s q = exec (.trapEntry q cause) s := by
  simp only [seqTurn, h, hr, hf]

/-! The phases. -/

theorem step_turn (hp : s.phase = .issue c) (hn : nextTurn s c = some d) : step s = seqTurn (atTurn s d) (turnSeq s d) := by
  simp only [step, hp, issuePhase, hn]

theorem step_issued (hp : s.phase = .issue c) (hn : nextTurn s c = none) : step s = .next { s with phase := .close } := by
  simp only [step, hp, issuePhase, hn]

theorem step_reads (hp : s.phase = .reads) : step s = readPhase s := by simp only [step, hp]

theorem step_events (hp : s.phase = .events) : step s = eventPhase s := by simp only [step, hp]

theorem step_close (hp : s.phase = .close) : step s = closePhase s := by simp only [step, hp]

/-- Settles O51, phase by phase. -/
theorem stepRunsDecoded : Obligations.StepRunsDecoded := by
  intro s
  refine ⟨fun c d hp hn => ?_, ?_, ?_, ?_, fun c hp hn => step_issued hp hn, ?_, ?_, ?_, ?_⟩
  · rw [step_turn hp hn]
    refine ⟨fun l i h => seqTurn_trap h, fun h p b n i hr hb hf hd => seqTurn_repeat h hr (fetch_decoded hb hf hd), fun h hr => ⟨?_, ?_, ?_⟩⟩
    · exact fun b n i hb hf hd => seqTurn_issue h hr (fetch_decoded hb hf hd)
    · exact fun b n k code hb hf => seqTurn_refused h hr (fetch_faulty hb hf)
    · exact fun hb => seqTurn_refused h hr (fetch_outside hb)
  · intro i hp hs hd
    simp [step_reads hp, readPhase, hs, hd]
  · intro hp hd
    obtain hs | hs := hd <;> simp [step_reads hp, readPhase, hs]
  · intro l i hp hs hn
    rw [step_events hp, eventPhase, if_pos hs, hn]
    rfl
  · intro l i hp hs hd
    simp [step_events hp, eventPhase, hs, hd]
  · intro hp hs hd
    simp [step_events hp, eventPhase, hs, hd]
  · intro i hp hd
    simp [step_close hp, closePhase, hd]
  · intro hp hd
    simp [step_close hp, closePhase, hd, done_eq]

end Sys2Proof.Machine
end

section
/-! PROOFS. An operation that stands alone traps or takes its effect; how a sequencer moves past its bundle (04 R76, R91, 06 R121). -/

namespace Sys2Proof.Machine

variable {c : SlotClass} {op n k code q addr size : Nat} {o : Op} {s : State}

/-! Causes. -/

theorem firstCause_single {b : Bool} {d : Nat} (h : firstCause [(b, d)] = some code) : code = d := by
  cases b
  · exact absurd h (by simp [firstCause])
  · exact (Option.some.inj h).symm

/-- The lower of two causes is one of them. -/
theorem minCause_eq_some {a b : Option Nat} (h : minCause a b = some code) : a = some code ∨ b = some code := by
  cases a with
  | none => exact .inr h
  | some i =>
    cases b with
    | none => exact .inl h
    | some j =>
      obtain hm | hm := min_choice i j <;> simp only [minCause, hm] at h
      · exact .inl h
      · exact .inr h

theorem lowestCause_eq (l : List (Bool × Nat)) : lowestCause l = l.foldl (fun a e => if e.1 then minCause a (some e.2) else a) none := by
  rw [lowestCause]
  congr
  funext a e
  cases a <;> rfl

theorem foldl_minCause_mem {l : List (Bool × Nat)} {a : Option Nat}
    (h : l.foldl (fun a e => if e.1 then minCause a (some e.2) else a) a = some code) : a = some code ∨ (true, code) ∈ l := by
  induction l generalizing a with
  | nil => exact .inl h
  | cons e l ih =>
    obtain ⟨b, d⟩ := e
    obtain h | h := ih h
    · cases b
      · exact .inl h
      · obtain h | h := minCause_eq_some h
        · exact .inl h
        · obtain rfl : d = code := Option.some.inj h
          exact .inr List.mem_cons_self
    · exact .inr (List.mem_cons_of_mem _ h)

/-- The lowest cause of a list is among them. -/
theorem lowestCause_mem {l : List (Bool × Nat)} (h : lowestCause l = some code) : (true, code) ∈ l :=
  (foldl_minCause_mem ((lowestCause_eq l).symm.trans h)).resolve_left (by simp)

/-! What stops an operation alone. -/

/-- An operation that goes on in the stream, whose causes name its slot, and whose trap does nothing else. -/
structure Plain (o : Op) : Prop where
  next : o.next = fun _ _ => .seq
  cause : ∀ x s, o.cause x s ≠ some cIllegalStream
  onTrap : o.onTrap = fun _ _ _ => []

/-- The fault of a plain operation alone belongs to a slot (R295). -/
theorem issueFault_lone_ne (ho : Plain o) (hn : n < 8) (h : issueFault s q addr size {} (loneSlot c op o n) = some (k, code)) : code ≠ cIllegalStream := by
  have hrep : repRefused {} (fun k => ((loneSlot c op o n).getD k {}).enc) = false := by simp [repRefused, targets_none]
  rw [issueFault, hrep, conflictSlot_lone hn] at h
  simp only [Bool.false_eq_true, if_false] at h
  split at h
  · rw [← (Prod.mk.inj (Option.some.inj h)).2]
    decide
  · obtain ⟨m, -, hm⟩ := List.exists_of_findSome?_eq_some h
    obtain ⟨d, hd, hmk⟩ := Option.map_eq_some_iff.mp hm
    rw [← (Prod.mk.inj hmk).2]
    rw [slotCause, loneSlot_op hn] at hd
    have hnext : (if m = n then o else {}).next = fun _ _ => Next.seq := by split; exacts [ho.next, rfl]
    obtain hd | hd := minCause_eq_some hd
    · rintro rfl
      split at hd
      · exact ho.cause _ _ hd
      · exact absurd hd (by simp)
    · have hmem := lowestCause_mem hd
      simp only [hnext, targetBad, Next.target, List.mem_cons, Prod.mk.injEq, List.not_mem_nil, or_false, Bool.true_eq_false, false_and, false_or] at hmem
      rintro rfl
      simp [cIllegalStream, cIllegalSlot, cLoopEscape, cInFlight] at hmem

/-- A plain operation that stands alone traps, or takes its effect and goes on in the stream (R70, R91). -/
theorem runSlot_traps_or_goesOn (hs : Settled s) (ho : Plain o) : (∃ slot code, runSlot c op o s = traps s slot code) ∨
    runSlot c op o s = goesOn (standing c op s) (o.acts (standing c op s) s) s := by
  have hlt : slotFor c op s.cur.slot < 8 := slotFor_lt
  rw [runSlot, done_eq, issueActs, armLatches_of_settled hs, applyActs_nil]
  cases hf : issueFault s s.cur.q (s.seqOf s.cur.q).pc (sizeAt s s.cur.q) {} (loneSlot c op o (slotFor c op s.cur.slot)) with
  | some e =>
    obtain ⟨k, code⟩ := e
    have htrap : ((loneSlot c op o (slotFor c op s.cur.slot)).getD k {}).op.onTrap = fun _ _ _ => [] := by
      rw [loneSlot_op hlt]
      split
      exacts [ho.onTrap, rfl]
    refine .inl ⟨k, code, ?_⟩
    simp only [htrap, traps, precise, if_neg (issueFault_lone_ne ho hlt hf), List.nil_append]
  | none =>
    refine .inr ?_
    have hnx : o.next { q := s.cur.q, slot := slotFor c op s.cur.slot, addr := (s.seqOf s.cur.q).pc, size := sizeAt s s.cur.q } s = .seq := by rw [ho.next]
    simp only [slotActs_lone hlt hs.2, nextOf_lone hlt (.inr (.inr (.inr hnx))), hnx, goesOn, issued, List.nil_append,
      show startRep s.cur.q (s.seqOf s.cur.q).pc {} = [] from rfl, List.append_nil]
    rfl

/-! The move past a bundle. -/

/-- What the move past a bundle changes of its sequencer. -/
def Moved (y z : Seq) : Prop :=
  ∃ pc loops window rolledBack passEnd, z = { y with pc := pc, loops := loops, window := window, rolledBack := rolledBack, passEnd := passEnd }

/-- A sequencer that holds no stores moves past a bundle of the stream by its counter and loop state alone; no access is made (R121, R125). -/
theorem advance_seq (hw : (s.seqOf q).window = []) : ∃ y m, Moved (s.seqOf q) y ∧
    applyActs (advance s q addr size .seq) s = { s with seqs := SMap.set {} s.seqs q y, work := { s.work with nextId := m } } := by
  rw [advance]
  dsimp only
  split
  · exact ⟨_, s.work.nextId, ⟨_, _, _, _, _, rfl⟩, rfl⟩
  · split
    · exact ⟨_, s.work.nextId, ⟨_, _, _, _, _, rfl⟩, rfl⟩
    · rw [hw]
      exact ⟨_, s.work.nextId, ⟨_, _, _, _, _, rfl⟩, rfl⟩

/-- Where no LOOPP pass ends, the move sets the counter and the loop stack (R121). -/
theorem advance_plain (h : (endChecks addr (s.seqOf q).loops.reverse ((addr + size) % 2 ^ 32)).2.2 = none) :
    advance s q addr size .seq = [.seq q (fun y => { y with
      pc := (endChecks addr (s.seqOf q).loops.reverse ((addr + size) % 2 ^ 32)).2.1
      loops := (endChecks addr (s.seqOf q).loops.reverse ((addr + size) % 2 ^ 32)).1.reverse })] := by
  rw [advance]
  dsimp only
  rw [h]

end Sys2Proof.Machine
end

section
/-! PROOFS. An operation whose one effect is a result in registers: it changes nothing else (04 R70, 02 R27, 06 R108, 07 R156). -/

namespace Sys2Proof.Machine

variable {c : SlotClass} {n : Nat} {o : Op} {i : Instr} {s t : State}

/-- A plain operation whose one effect is a result. -/
structure GivesResult (o : Op) : Prop extends Plain o where
  acts : ∀ x s, ∃ d v bound fl, o.acts x s = [result x s d v bound fl]

/-- A result adds itself to the results in flight and its flags to those to come (R27, R43). -/
theorem result_state (x : Ctx) (s : State) (d : Dest) (v : Value) (bound : Nat) (fl : FlagSet) : ∃ f m posts, f.q = x.q ∧
    applyActs [result x s d v bound fl] s = { s with work := { s.work with flights := s.work.flights ++ [f], nextId := m, flagPosts := posts } } := by
  rw [result, applyActs_cons, applyActs_nil, applyAct_work, Work.raise]
  split
  · exact ⟨_, _, s.work.flagPosts, rfl, rfl⟩
  · exact ⟨_, _, _, rfl, rfl⟩

theorem issued_result_state {x : Ctx} {d : Dest} {v : Value} {bound : Nat} {fl : FlagSet} (hw : (s.seqOf x.q).window = []) : ∃ y f m posts free,
    Moved (s.seqOf x.q) y ∧ f.q = x.q ∧ issued x .seq [result x s d v bound fl] s = { s with
      seqs := SMap.set {} s.seqs x.q y
      work := { s.work with flights := s.work.flights ++ [f], nextId := m, flagPosts := posts, free := free } } := by
  obtain ⟨f, m, posts, hf, hres⟩ := result_state x s d v bound fl
  obtain ⟨y, m', hy, hadv⟩ := advance_seq (s := applyActs [result x s d v bound fl] s) (addr := x.addr) (size := x.size)
    (show ((applyActs [result x s d v bound fl] s).seqOf x.q).window = [] by rw [hres]; exact hw)
  rw [issued, applyActs_append, applyActs_append, hadv, hres]
  refine ⟨y, f, m', posts, _, ?_, hf, rfl⟩
  rw [hres] at hy
  exact hy

/-- The state that a result alone leaves differs by the result in flight and by the move of its sequencer. -/
theorem resultOnly_issued {x : Ctx} {d : Dest} {v : Value} {bound : Nat} {fl : FlagSet} (hs : Canonical s) (hw : (s.seqOf s.cur.q).window = [])
    (hx : x.q = s.cur.q) : ResultOnly s (issued x .seq [result x s d v bound fl] s) := by
  rw [← hx] at hw
  obtain ⟨y, f, m, posts, free, ⟨pc, loops, window, rolledBack, passEnd, hy⟩, hf, hstate⟩ := issued_result_state (d := d) (v := v) (bound := bound) (fl := fl) hw
  rw [hx] at hy hstate hf
  rw [hstate]
  refine ⟨?_, rfl, rfl, rfl, rfl, fun r hr => SMap.get_set_other hr, ⟨pc, loops, window, rolledBack, passEnd, ?_⟩,
    ⟨[f], rfl, le_refl _, fun g hg => ?_⟩, rfl, rfl, rfl, rfl, rfl, rfl, rfl⟩
  · simp [SameStores]
  · exact (SMap.get_set_same hs.seqs).trans hy
  · rw [List.mem_singleton.mp hg, hf]

/-- An operation that gives a result traps, or leaves all but its result as it was. -/
theorem runSlot_traps_or_resultOnly {op : Nat} (ho : GivesResult o) (hs : Canonical s) (hset : Settled s) (hw : (s.seqOf s.cur.q).window = [])
    (h : runSlot c op o s = .next t) : (∃ slot code, runSlot c op o s = traps s slot code) ∨ ResultOnly s t := by
  refine (runSlot_traps_or_goesOn hset ho.toPlain).imp_right fun hgo => ?_
  obtain ⟨d, v, bound, fl, hacts⟩ := ho.acts (standing c op s) s
  rw [hgo, hacts] at h
  rw [← Host.Outcome.next.inj h]
  exact resultOnly_issued hs hw rfl

/-! The operations of the list (R108, R156), by what stops them: nothing of their own, a field, a poisoned mask, the shape of FMT.ACT. -/

/-- An instruction that issues alone as an operation which gives a result. -/
def RegisterForm (i : Instr) : Prop := ∃ c n o, (∀ s, exec i s = runSlot c n o s) ∧ GivesResult o

section Forms

variable (hi : ∀ s, exec i s = runSlot c n o s) (hn : o.next = fun _ _ => .seq) (ht : o.onTrap = fun _ _ _ => [])
  (ha : ∀ x s, ∃ d v bound fl, o.acts x s = [result x s d v bound fl])

include hi hn ht ha

theorem RegisterForm.uncaused (hc : o.cause = fun _ _ => none) : RegisterForm i :=
  ⟨c, n, o, hi, ⟨hn, fun x s => by simp [hc], ht⟩, ha⟩

theorem RegisterForm.checked {b : Ctx → State → Bool} (hc : o.cause = fun x s => firstCause [(b x s, cIllegalEncoding)]) : RegisterForm i :=
  ⟨c, n, o, hi, ⟨hn, fun x s h => absurd (firstCause_single (hc ▸ h)) (by decide), ht⟩, ha⟩

theorem RegisterForm.masked {m : Nat} (hc : o.cause = fun x s => maskCause m x s) : RegisterForm i :=
  ⟨c, n, o, hi, ⟨hn, fun x s h => absurd (firstCause_single (hc ▸ h)) (by decide), ht⟩, ha⟩

theorem RegisterForm.shaped {b : Ctx → State → Bool} {m : Nat}
    (hc : o.cause = fun x s => lowestCause [(b x s, cIllegalEncoding), ((x.mask s m 0).poison, cPoison)]) : RegisterForm i :=
  ⟨c, n, o, hi, ⟨hn, fun x s h => absurd (lowestCause_mem (hc ▸ h)) (by simp [cIllegalStream, cIllegalEncoding, cPoison]), ht⟩, ha⟩

end Forms

/-- Every operation of the list gives a result; the runs follow the order of the list. -/
theorem registerForms_registerForm (f : SR) (g : SI) (h : VR) (k : VI) : ∀ i ∈ registerForms f g h k, RegisterForm i := by
  simp only [registerForms, List.forall_mem_cons]
  and_intros
  iterate 23 exact .uncaused (fun _ => rfl) rfl rfl (fun _ _ => ⟨_, _, _, _, rfl⟩) rfl -- SADD to SSEL
  iterate 3 exact .checked (fun _ => rfl) rfl rfl (fun _ _ => ⟨_, _, _, _, rfl⟩) rfl -- SEXT and SINS
  iterate 26 exact .uncaused (fun _ => rfl) rfl rfl (fun _ _ => ⟨_, _, _, _, rfl⟩) rfl -- SFADD to SLIH
  iterate 46 exact .masked (fun _ => rfl) rfl rfl (fun _ _ => ⟨_, _, _, _, rfl⟩) rfl -- VADD to VICMP
  iterate 6 exact .shaped (fun _ => rfl) rfl rfl (fun _ _ => ⟨_, _, _, _, rfl⟩) rfl -- VAND to VSRA
  iterate 13 exact .masked (fun _ => rfl) rfl rfl (fun _ _ => ⟨_, _, _, _, rfl⟩) rfl -- VFXADD to VSPLIT3
  exact .shaped (fun _ => rfl) rfl rfl (fun _ _ => ⟨_, _, _, _, rfl⟩) rfl -- VMOV
  iterate 2 exact .masked (fun _ => rfl) rfl rfl (fun _ _ => ⟨_, _, _, _, rfl⟩) rfl -- VBCAST
  exact .checked (fun _ => rfl) rfl rfl (fun _ _ => ⟨_, _, _, _, rfl⟩) rfl -- VEXTR
  iterate 38 exact .masked (fun _ => rfl) rfl rfl (fun _ _ => ⟨_, _, _, _, rfl⟩) rfl -- VSLIDE to VIDX
  exact List.forall_mem_nil _

/-- Settles O56: such an operation meets its fault before any effect, and its effect is one result in flight. -/
theorem registerResultFrame : Obligations.RegisterResultFrame := by
  intro f g h k i s t hi hs hset hw hexec
  obtain ⟨c, n, o, hrun, ho⟩ := registerForms_registerForm f g h k i hi
  rw [hrun] at hexec ⊢
  exact runSlot_traps_or_resultOnly ho hs hset hw hexec

end Sys2Proof.Machine
end

section
/-! PROOFS. A bundle of one operation, a bundle of NOPs, and the first bundle after a RETT (04 R69, R70, R76, 06 R121, R143). -/

namespace Sys2Proof.Machine

variable {c : SlotClass} {op n k q addr size : Nat} {o : Op} {i : Instr} {e : Encoding} {enc : Option Encoding} {s t : State} {l l' : List Issue}

/-! What an issue without a REP reads of its slots: their operations, and whether LOOPP allows their encodings. -/

/-- What an issue without a REP reads of a slot. -/
def Issue.read (e : Issue) : Op × Op × Bool := (e.op, e.last, looppIllegal e.enc)

theorem slotCtx_eq : slotCtx q addr size l n = { q := q, slot := n, addr := addr, size := size, prior := if n = 7 then (l.getD 6 {}).op.share else [] } := by
  rw [slotCtx, List.getD_eq_getElem?_getD]
  cases l[6]? <;> rfl

section Alike

variable (h : l.map Issue.read = l'.map Issue.read)
include h

theorem read_getD (k : Nat) : (l.getD k {}).read = (l'.getD k {}).read := by
  have hget : ∀ l : List Issue, (l.getD k {}).read = (l.map Issue.read).getD k (Issue.read {}) := fun l => (List.getD_map _ _ _).symm
  rw [hget, hget, h]

theorem op_getD (k : Nat) : (l.getD k {}).op = (l'.getD k {}).op := congrArg Prod.fst (read_getD h k)

theorem last_getD (k : Nat) : (l.getD k {}).last = (l'.getD k {}).last := congrArg (fun p => p.2.1) (read_getD h k)

theorem looppIllegal_getD (k : Nat) : looppIllegal (l.getD k {}).enc = looppIllegal (l'.getD k {}).enc := congrArg (fun p => p.2.2) (read_getD h k)

theorem slotCtx_alike : slotCtx q addr size l n = slotCtx q addr size l' n := by rw [slotCtx_eq, slotCtx_eq, op_getD h]

theorem limitSlot_alike : limitSlot s q l = limitSlot s q l' := by
  have hlen : l.length = l'.length := by simpa using congrArg List.length h
  have hnres : l.map (fun e => e.op.nres) = l'.map (fun e => e.op.nres) := by
    have := congrArg (List.map fun p => p.1.nres) h
    rw [List.map_map, List.map_map] at this
    exact this
  simp only [limitSlot, hlen, List.map_take, hnres, op_getD h]

theorem issueFault_alike : issueFault s q addr size {} l = issueFault s q addr size {} l' := by
  have hrep : ∀ l : List Issue, repRefused {} (fun k => (l.getD k {}).enc) = false := fun l => by simp [repRefused, targets_none]
  simp only [issueFault, hrep, conflictSlot, repeatsConflict, slotsConflict, allotmentSlot, slotCause, targets_none, Bool.false_and, Bool.false_or, op_getD h,
    last_getD h, looppIllegal_getD h, slotCtx_alike h, limitSlot_alike h]

theorem slotActs_alike : slotActs s q addr size l = slotActs s q addr size l' := by
  simp only [slotActs, rowFlips, op_getD h, slotCtx_alike h]

theorem nextOf_alike : nextOf s q addr size l = nextOf s q addr size l' := by simp only [nextOf, op_getD h, slotCtx_alike h]

theorem issueActs_alike : issueActs s q addr size {} l = issueActs s q addr size {} l' := by
  simp only [issueActs, issueFault_alike h, slotActs_alike h, nextOf_alike h, op_getD h, slotCtx_alike h]

end Alike

/-! A bundle with one operation. -/

/-- An instruction with a slot encoding, other than REP, issues alone as its operation. -/
theorem exec_eq_runSlot (h : i.encoding = some e) (hr : ∀ f, i ≠ .rep f) : exec i s = runSlot e.cls e.op.toNat (opOf i) s := by
  cases i <;> cases h
  case rep f => exact absurd rfl (hr f)
  all_goals rfl

/-- The slots of a bundle that holds i in slot n, and NOPs else. -/
def bundleWith (n : Nat) (i : Instr) : List Instr := (List.range 8).map (fun k => if n = k then i else .nop)

theorem looppIllegal_congr (e : Encoding) : looppIllegal (some ⟨e.cls, BitVec.ofNat 8 e.op.toNat, 0, 0, 0, true⟩) = looppIllegal (some e) := by
  rw [BitVec.ofNat_toNat, BitVec.setWidth_eq]
  rfl

/-- Without a REP the slots of a bundle that holds one operation read as that of the operation alone. -/
theorem bundleWith_read : (bundleSlots {} (bundleWith n i)).map Issue.read =
    (List.range 8).map (fun k => if n = k then (opOf i, opOf i, looppIllegal i.encoding) else (({} : Op), ({} : Op), false)) := by
  apply List.ext_getElem
  · simp [bundleSlots, bundleWith]
  · intro k _ _
    simp only [bundleSlots, bundleWith, targets_none, List.getElem_map, List.getElem_mapIdx, List.getElem_range, Bool.false_eq_true, if_false]
    split <;> rfl

theorem loneSlot_read (h : looppIllegal enc = looppIllegal (some ⟨c, BitVec.ofNat 8 op, 0, 0, 0, true⟩)) : (loneSlot c op o n).map Issue.read =
    (List.range 8).map (fun k => if n = k then (o, o, looppIllegal enc) else (({} : Op), ({} : Op), false)) := by
  rw [loneSlot, List.map_map]
  refine List.map_congr_left fun k _ => ?_
  by_cases hk : k = n
  · simp [hk, Issue.read, h]
  · rw [if_neg (Ne.symm hk), Function.comp, if_neg hk]
    rfl

/-- The slots of a bundle of one operation issue as the operation alone does. -/
theorem bundleWith_alike (h : i.encoding = some e) :
    (bundleSlots {} (bundleWith n i)).map Issue.read = (loneSlot e.cls e.op.toNat (opOf i) n).map Issue.read := by
  rw [bundleWith_read, loneSlot_read (looppIllegal_congr e).symm, h]

theorem nops_alike : (bundleSlots {} (bundleWith n .nop)).map Issue.read = (loneSlot .s 0 {} n).map Issue.read := by
  rw [bundleWith_read, loneSlot_read (enc := none) rfl]
  rfl

theorem slotFor_eq (hn : n < 8) (hc : slotClass n = c) (hs1 : c = .s → 0x30 ≤ op → op ≤ 0x47 → n = 1) : slotFor c op n = n := by
  unfold slotFor
  split
  · next h =>
    simp only [Bool.and_eq_true, decide_eq_true_eq] at h
    exact (hs1 h.1.1 h.1.2 h.2).symm
  · rw [if_pos (by simp [hn, hc])]

/-- A bundle without a REP in S1 repeats nothing. -/
theorem bundleRep_none {slots : List Instr} (h : ∀ f, slots.getD 1 .nop ≠ .rep f) : bundleRep s q addr size slots = {} := by
  rw [bundleRep]
  split
  · next f hf => exact absurd hf (h f)
  · rfl

/-- A bundle of one operation does what the operation does alone in its slot (R70). -/
theorem bundle_eq_lone (h : i.encoding = some e) (hn : s.cur.slot < 8) (hc : slotClass s.cur.slot = e.cls) (hs1 : i.s1Only = true → s.cur.slot = 1)
    (hr : ∀ f, i ≠ .rep f) : done (bundleActs s s.cur.q (bundleWith s.cur.slot i) ++ [bump]) s = exec i s := by
  have hrep : ∀ q addr size (t : State), bundleRep t q addr size (bundleWith s.cur.slot i) = {} := fun q addr size t => bundleRep_none fun f => by
    show (if s.cur.slot = 1 then i else .nop) ≠ _
    split
    · exact hr f
    · simp
  have hslot : slotFor e.cls e.op.toNat s.cur.slot = s.cur.slot := slotFor_eq hn hc fun h1 h2 h3 => hs1 (by simp [Instr.s1Only, h, h1, h2, h3])
  rw [exec_eq_runSlot h hr, runSlot, hslot, bundleActs]
  simp only [hrep]
  rw [issueActs_alike (bundleWith_alike h)]

/-- A bundle of NOPs does what one NOP does (R69). -/
theorem nops_eq_nop : exec (.bundleIssue .nop .nop .nop .nop .nop .nop .nop .nop) s = exec .nop s := by
  have hbundle : exec (.bundleIssue .nop .nop .nop .nop .nop .nop .nop .nop) s =
      done (issueActs s s.cur.q (s.seqOf s.cur.q).pc (sizeAt s s.cur.q) {} (bundleSlots {} (bundleWith (slotFor .s 0 s.cur.slot) .nop)) ++ [bump]) s := by
    have hb : bundleWith (slotFor .s 0 s.cur.slot) .nop = [.nop, .nop, .nop, .nop, .nop, .nop, .nop, .nop] := by simp [bundleWith, List.range_succ]
    rw [hb]
    rfl
  rw [hbundle, issueActs_alike nops_alike]
  rfl

/-! The first bundle after a RETT (R143). -/

/-- What an issue reads of its sequencer before the latches of a frame are counted again. -/
structure SameTurn (q : Nat) (s t : State) : Prop where
  cur : t.cur = s.cur
  cores : t.cores = s.cores
  pc : (t.seqOf q).pc = (s.seqOf q).pc
  rearm : (t.seqOf q).rearm = (s.seqOf q).rearm

theorem SameTurn.refl : SameTurn q s s := ⟨rfl, rfl, rfl, rfl⟩

theorem SameTurn.trans {u : State} (h : SameTurn q s t) (h' : SameTurn q t u) : SameTurn q s u :=
  ⟨h'.cur.trans h.cur, h'.cores.trans h.cores, h'.pc.trans h.pc, h'.rearm.trans h.rearm⟩

theorem SameTurn.of_seqs (hcur : t.cur = s.cur) (hcores : t.cores = s.cores) (hseqs : t.seqs = s.seqs) : SameTurn q s t :=
  ⟨hcur, hcores, by rw [State.seqOf, State.seqOf, hseqs], by rw [State.seqOf, State.seqOf, hseqs]⟩

/-- A landing changes no more of a sequencer than FMT. -/
theorem landing_seq {f : Flight} {r : Nat} {g : Seq → Seq} (h : .seq r g ∈ landing s f) : ∃ v, g = fun y => { y with fmt := v } := by
  rw [landing] at h
  split at h
  case h_5 => exact ⟨_, (Act.seq.inj (List.mem_singleton.mp h)).2⟩
  case h_2 => split at h <;> simp at h
  case h_3 =>
    obtain ⟨e, -, he⟩ := List.mem_filterMap.mp h
    split at he <;> simp at he
  all_goals simp at h

theorem landing_sameTurn {f : Flight} {a : Act} (ht : Canonical t) (h : a ∈ landing s f) : SameTurn q t (applyAct a t) := by
  cases landing_kinds h with
  | scalar r k v => rw [applyAct_scalar]; split <;> exact .of_seqs rfl rfl rfl
  | mask r k v => rw [applyAct_mask]; split <;> exact .of_seqs rfl rfl rfl
  | row => exact .of_seqs rfl rfl rfl
  | glint => exact .of_seqs rfl rfl rfl
  | seq r g =>
    obtain ⟨v, rfl⟩ := landing_seq h
    by_cases hr : q = r
    · subst hr
      have hsame := seqOf_seq_same (q := q) (f := fun y => { y with fmt := v }) ht.seqs
      exact ⟨rfl, rfl, by rw [hsame], by rw [hsame]⟩
    · have hother := seqOf_seq_other (s := t) (f := fun y => { y with fmt := v }) hr
      exact ⟨rfl, rfl, by rw [hother], by rw [hother]⟩

theorem landAll_sameTurn {fs : List Flight} (hs : Canonical s) : SameTurn q s (applyActs (landAll fs s) s) := by
  induction fs generalizing s with
  | nil => exact .refl
  | cons f fs ih =>
    rw [landAll, applyActs_append]
    refine SameTurn.trans (t := applyActs _ s) ?_ (ih (applyActs_canonical hs _))
    refine applyActs_holds hs .refl fun a ha t ht hP => hP.trans ?_
    obtain ha | ha := List.mem_append.mp ha
    · exact landing_sameTurn ht ha
    · obtain rfl := List.mem_singleton.mp ha
      exact .of_seqs rfl rfl rfl

theorem seqOf_work_seq {f : Work → Work} {g : Seq → Seq} (hs : Canonical s) : (applyActs [.work f, .seq q g] s).seqOf q = g (s.seqOf q) :=
  SMap.get_set_same hs.seqs

/-- The state in which the latches of a frame have been counted again. -/
def armed (s : State) (q : Nat) : State := applyActs (armLatches s q) s

/-- Once the latches have been counted again the sequencer stands where it stood, and none wait to be counted. -/
theorem armed_turn (hs : Canonical s) : (armed s q).cur = s.cur ∧ (armed s q).cores = s.cores ∧ ((armed s q).seqOf q).pc = (s.seqOf q).pc ∧
    ((armed s q).seqOf q).rearm = false := by
  rw [armed, armLatches]
  split
  · rw [applyActs_append]
    have h := fun f g fs => landAll_sameTurn (q := q) (fs := fs) (applyActs_canonical hs [.work f, .seq q g])
    exact ⟨(h _ _ _).cur, (h _ _ _).cores, (h _ _ _).pc.trans (by rw [seqOf_work_seq hs]), (h _ _ _).rearm.trans (by rw [seqOf_work_seq hs])⟩
  · next h => exact ⟨rfl, rfl, rfl, eq_false_of_ne_true h⟩

theorem armLatches_armed (hs : Canonical s) : armLatches (armed s q) q = [] := by
  rw [armLatches, (armed_turn hs).2.2.2]
  rfl

theorem sizeAt_armed (hs : Canonical s) : sizeAt (armed s q) q = sizeAt s q := by
  obtain ⟨-, hcores, hpc, -⟩ := armed_turn (q := q) hs
  simp only [sizeAt, State.coreOf, hcores, hpc]
  rfl

/-- An issue counts the latches and then does what it does once they have been counted. -/
theorem issueActs_armed {r : Rep} (hs : Canonical s) :
    applyActs (issueActs s q addr size r l ++ [bump]) s = applyActs (issueActs (armed s q) q addr size r l ++ [bump]) (armed s q) := by
  have harm : applyActs (armLatches s q) s = armed s q := rfl
  simp only [issueActs, armLatches_armed hs, harm, applyActs_nil, List.nil_append]
  split <;> simp only [List.append_assoc, applyActs_append, harm]

theorem runSlot_armed (hs : Canonical s) : runSlot c op o s = runSlot c op o (armed s s.cur.q) := by
  obtain ⟨hcur, -, hpc, -⟩ := armed_turn (q := s.cur.q) hs
  simp only [runSlot, done_eq, hcur, hpc, sizeAt_armed hs]
  exact congrArg _ (issueActs_armed hs)

theorem bundle_armed {slots : List Instr} (hs : Canonical s) : done (bundleActs s s.cur.q slots ++ [bump]) s =
    done (bundleActs (armed s s.cur.q) (armed s s.cur.q).cur.q slots ++ [bump]) (armed s s.cur.q) := by
  obtain ⟨hcur, -, hpc, -⟩ := armed_turn (q := s.cur.q) hs
  have harm : applyActs (armLatches s s.cur.q) s = armed s s.cur.q := rfl
  simp only [bundleActs, done_eq, hcur, hpc, sizeAt_armed hs, armLatches_armed hs, harm, applyActs_nil]
  exact congrArg _ (issueActs_armed hs)

/-- The first bundle after a RETT issues as if its latches had been counted from it (R143). -/
theorem exec_armed (h : i.encoding = some e) (hs : Canonical s) : exec i s = exec i (armed s s.cur.q) := by
  by_cases hr : ∃ f, i = .rep f
  · obtain ⟨f, rfl⟩ := hr
    exact bundle_armed hs
  · have hr : ∀ f, i ≠ .rep f := fun f hf => hr ⟨f, hf⟩
    rw [exec_eq_runSlot h hr, exec_eq_runSlot h hr]
    exact runSlot_armed hs

/-! NOP hands the counter on (R69, R76, R121). -/

theorem exec_nop (hs : Settled s) : exec .nop s = goesOn (atS s) [] s :=
  runSlot_goesOn (c := .s) (op := 0) (o := {}) hs (fun _ h => absurd h List.not_mem_nil) rfl
    (by rw [show looppIllegal _ = false from rfl, Bool.and_false]) (.inl rfl) rfl

/-- Where the counter goes from the end of a bundle at addr, n being the next in the stream: no loop ends there. -/
theorem endChecks_stays {loops : List LoopEntry} (h : ∀ x, loops.getLast? = some x → n ≠ x.stop) :
    endChecks addr loops.reverse n = (loops.reverse, n, none) := by
  rw [← List.head?_reverse] at h
  generalize loops.reverse = r at h ⊢
  cases r with
  | nil => rfl
  | cons x l => simp [endChecks, h x rfl]

variable {ls : List LoopEntry} {x : LoopEntry}

/-- The end of a turn of the innermost loop with turns left: back to its start (R121). -/
theorem endChecks_again (hp : x.pipe = false) (ha : x.start ≤ addr) (hb : addr < x.stop) (hi : x.index + 1 < x.count) :
    endChecks addr (ls ++ [x]).reverse x.stop = ((ls ++ [{ x with index := x.index + 1 }]).reverse, x.start, none) := by
  simp [endChecks, hp, ha, hb, hi]

/-- The end of the last turn of the innermost loop: past it, out of the loop (R121). -/
theorem endChecks_leaves (hp : x.pipe = false) (ha : x.start ≤ addr) (hb : addr < x.stop) (hi : x.count ≤ x.index + 1)
    (hl : ∀ y, ls.getLast? = some y → y.stop ≠ x.stop) : endChecks addr (ls ++ [x]).reverse x.stop = (ls.reverse, x.stop, none) := by
  simp [endChecks, hp, ha, hb, Nat.not_lt.mpr hi, endChecks_stays fun y hy => (hl y hy).symm]

/-- A NOP moves the counter and the loop stack to where no LOOPP pass ends, and leaves the rest (R69). -/
theorem nop_moves (hs : Canonical s) (hset : Settled s)
    (h : endChecks (s.seqOf s.cur.q).pc (s.seqOf s.cur.q).loops.reverse (((s.seqOf s.cur.q).pc + sizeAt s s.cur.q) % 2 ^ 32) = (ls.reverse, n, none)) :
    ∃ t, exec .nop s = .next t ∧ t.seqOf s.cur.q = { s.seqOf s.cur.q with pc := n, loops := ls } ∧ SameStores s t ∧ t.chip = s.chip := by
  have hadv := advance_plain (s := s) (congrArg (fun r => r.2.2) h)
  rw [h, List.reverse_reverse] at hadv
  refine ⟨_, exec_nop hset, ?_⟩
  have hstate : issued (atS s) .seq [] s = applyActs (advance s s.cur.q (s.seqOf s.cur.q).pc (sizeAt s s.cur.q) .seq ++ [bump]) s := rfl
  rw [hstate, hadv]
  exact ⟨SMap.get_set_same hs.seqs, by simp [SameStores], rfl⟩

/-- Settles O50: a bundle's slots issue as its one operation does alone; the latches of a frame are counted at its start; a NOP only moves the counter. -/
theorem bundleIssues : Obligations.BundleIssues := by
  refine ⟨fun i e s h hn hc hs1 => ?_, fun s => nops_eq_nop, fun i e s hs h => exec_armed h hs, fun s hs hset => ?_⟩
  · by_cases hr : ∃ f, i = .rep f
    · obtain ⟨f, rfl⟩ := hr
      simp only [hs1 rfl]
      rfl
    · exact bundle_eq_lone h hn hc hs1 fun f hf => hr ⟨f, hf⟩
  · refine ⟨fun hl => ?_, fun l e hl hp ha hb => ⟨fun hn => ?_, fun hn hi => ?_, fun hn hi hlast => ?_⟩⟩
    · obtain ⟨t, ht, hq, hstores, hchip⟩ := nop_moves hs hset (endChecks_stays (by simp [hl]))
      exact ⟨t, ht, hq, hstores, hchip⟩
    · obtain ⟨t, ht, hq, -⟩ := nop_moves hs hset (endChecks_stays (by simpa [hl] using hn))
      exact ⟨t, ht, hq⟩
    · obtain ⟨t, ht, hq, -⟩ := nop_moves hs hset (by rw [hl, hn]; exact endChecks_again hp ha hb hi)
      exact ⟨t, ht, hq⟩
    · obtain ⟨t, ht, hq, -⟩ := nop_moves hs hset (by rw [hl, hn]; exact endChecks_leaves hp ha hb hi hlast)
      exact ⟨t, ht, hq⟩

end Sys2Proof.Machine
end

section
/-! PROOFS. Scalar operations that stand alone, by the shape of their operation (06 R108, R109). -/

namespace Sys2Proof.Machine

variable {op bound : Nat} {s : State} {v : Word} {fl : LaneFlags}

/-- A scalar operation whose one effect is a result, and that nothing of its own stops, gives it. -/
theorem runSlot_scalar {o : Op} (hs : Room s) (hn : o.nres = 1) (hr : ∀ x s, o.rows x s = []) (hc : o.cause (atS s) s = none)
    (hnx : o.next (atS s) s = .seq) (hx : standing .s op s = atS s)
    (hp : looppIllegal (some ⟨.s, BitVec.ofNat 8 op, 0, 0, 0, true⟩) = false) : runSlot .s op o s = goesOn (atS s) (o.acts (atS s) s) s :=
  runSlot_alone (atS s) hx hs (le_of_eq hn) (by rw [hr]; exact fun n hn => absurd hn List.not_mem_nil) hc hp hnx

section Forms

variable (hs : Room s)

include hs

/-- An operation on a and b that raises no flags gives its value. -/
theorem srOp_plain {f : SR} {g : Word → Word → Word} (hv : g ((atS s).scalar s f.a.toNat 0).val ((atS s).scalar s f.b.toNat 1).val = v)
    (hx : standing .s op s = atS s := by rfl) (hp : looppIllegal (some ⟨.s, BitVec.ofNat 8 op, 0, 0, 0, true⟩) = false := by rfl) :
    runSlot .s op (srOp f bound false (plain g)) s =
      scalarGives s f.d (((atS s).scalar s f.a.toNat 0).poison || ((atS s).scalar s f.b.toNat 1).poison) bound v := by
  subst hv
  exact runSlot_scalar hs rfl (fun _ _ => rfl) rfl rfl hx hp

/-- An operation on a and b gives its value and its flags. -/
theorem srOp_flags {f : SR} {g : Word → Word → Word × LaneFlags}
    (hv : g ((atS s).scalar s f.a.toNat 0).val ((atS s).scalar s f.b.toNat 1).val = (v, fl))
    (hx : standing .s op s = atS s := by rfl) (hp : looppIllegal (some ⟨.s, BitVec.ofNat 8 op, 0, 0, 0, true⟩) = false := by rfl) :
    runSlot .s op (srOp f bound true g) s =
      scalarFlags s f.d (((atS s).scalar s f.a.toNat 0).poison || ((atS s).scalar s f.b.toNat 1).poison) bound f.nf v fl := by
  rw [runSlot_scalar hs rfl (fun _ _ => rfl) rfl rfl hx hp]
  simp only [srOp, hv]
  rfl

/-- An operation on a alone that raises no flags gives its value. -/
theorem srOp1_plain {f : SR} {g : Word → Word} (hv : g ((atS s).scalar s f.a.toNat 0).val = v)
    (hx : standing .s op s = atS s := by rfl) (hp : looppIllegal (some ⟨.s, BitVec.ofNat 8 op, 0, 0, 0, true⟩) = false := by rfl) :
    runSlot .s op (srOp1 f bound false (fun a => (g a, 0))) s = scalarGives s f.d ((atS s).scalar s f.a.toNat 0).poison bound v := by
  subst hv
  exact runSlot_scalar hs rfl (fun _ _ => rfl) rfl rfl hx hp

/-- An operation on a and the immediate gives its value. -/
theorem siOp_gives {f : SI} {g : Word → Word} (hv : g ((atS s).scalar s f.a.toNat 0).val = v)
    (hx : standing .s op s = atS s := by rfl) (hp : looppIllegal (some ⟨.s, BitVec.ofNat 8 op, 0, 0, 0, true⟩) = false := by rfl) :
    runSlot .s op (siOp f g) s = scalarGives s f.d ((atS s).scalar s f.a.toNat 0).poison 1 v := by
  subst hv
  exact runSlot_scalar hs rfl (fun _ _ => rfl) rfl rfl hx hp

end Forms

end Sys2Proof.Machine
end

section
/-! PROOFS. The values of the scalar integer operations are those of R111 to R114 on exact integers, reduced to 64 bits (06 R111 to R114). -/

namespace Sys2Proof.Machine

variable {a b old : Word} {n w p k : Nat}

/-! Sums, products and shifts. -/

theorem sub_eq_ofInt : a - b = BitVec.ofInt 64 (a.toInt - b.toInt) := by
  apply BitVec.eq_of_toInt_eq
  rw [BitVec.toInt_sub, BitVec.toInt_ofInt]

theorem mul_eq_ofInt : a * b = BitVec.ofInt 64 (a.toInt * b.toInt) := by
  apply BitVec.eq_of_toInt_eq
  rw [BitVec.toInt_mul, BitVec.toInt_ofInt]

theorem add_eq_ofInt : a + b = BitVec.ofInt 64 (a.toInt + b.toInt) := by
  apply BitVec.eq_of_toInt_eq
  rw [BitVec.toInt_add, BitVec.toInt_ofInt]

theorem shl_eq_ofNat : shl a n = BitVec.ofNat 64 (a.toNat * 2 ^ (n % 64)) := by
  apply BitVec.eq_of_toNat_eq
  rw [shl, BitVec.toNat_shiftLeft, BitVec.toNat_ofNat, Nat.shiftLeft_eq]

theorem shr_eq_ofNat : shr a n = BitVec.ofNat 64 (a.toNat / 2 ^ (n % 64)) := by
  apply BitVec.eq_of_toNat_eq
  have hlt : a.toNat / 2 ^ (n % 64) < 2 ^ 64 := lt_of_le_of_lt (Nat.div_le_self _ _) a.isLt
  rw [shr, BitVec.toNat_ushiftRight, BitVec.toNat_ofNat, Nat.shiftRight_eq_div_pow, Nat.mod_eq_of_lt hlt]

theorem sra_eq_ofInt : sra a n = BitVec.ofInt 64 (a.toInt / 2 ^ (n % 64)) := by
  rw [sra, BitVec.sshiftRight, Int.shiftRight_eq_div_pow]
  norm_cast

/-! The lesser and the greater. -/

theorem minS_eq_ofInt : minS a b = BitVec.ofInt 64 (min a.toInt b.toInt) := by
  rw [minS, min_def]
  split <;> rw [BitVec.ofInt_toInt]

theorem maxS_eq_ofInt : maxS a b = BitVec.ofInt 64 (max a.toInt b.toInt) := by
  rw [maxS, max_def]
  split <;> rw [BitVec.ofInt_toInt]

theorem minU_eq_ofNat : minU a b = BitVec.ofNat 64 (min a.toNat b.toNat) := by
  rw [minU, min_def]
  split <;> rw [BitVec.ofNat_toNat, BitVec.setWidth_eq]

theorem maxU_eq_ofNat : maxU a b = BitVec.ofNat 64 (max a.toNat b.toNat) := by
  rw [maxU, max_def]
  split <;> rw [BitVec.ofNat_toNat, BitVec.setWidth_eq]

/-! Conditions (R84). -/

theorem truth_decide {q : Prop} [Decidable q] : truth (decide q) = if q then 1 else 0 := by simp only [truth, decide_eq_true_eq]

theorem icond_eq : icond 64 0 a.toNat b.toNat = decide (a = b) := decide_eq_decide.mpr BitVec.toNat_inj

theorem icond_ne : icond 64 1 a.toNat b.toNat = decide (a ≠ b) := decide_eq_decide.mpr (not_congr BitVec.toNat_inj)

/-- The four signed orders of R84 compare the words' signed values. -/
theorem icond_signed : icond 64 2 a.toNat b.toNat = decide (a.toInt < b.toInt) ∧ icond 64 3 a.toNat b.toNat = decide (a.toInt ≤ b.toInt) ∧
    icond 64 4 a.toNat b.toNat = decide (b.toInt < a.toInt) ∧ icond 64 5 a.toNat b.toNat = decide (b.toInt ≤ a.toInt) := by
  simp only [icond, BitVec.ofNat_toNat, BitVec.setWidth_eq, and_self]

/-! Counts. -/

theorem clz_eq_ofNat : ∃ n, clz a = BitVec.ofNat 64 n ∧ n ≤ 64 ∧ a.toNat < 2 ^ (64 - n) ∧ (n < 64 → 2 ^ (63 - n) ≤ a.toNat) := by
  by_cases h : a = 0
  · exact ⟨64, if_pos h, le_refl _, by simp [h], fun h => absurd h (lt_irrefl _)⟩
  · have h0 : a.toNat ≠ 0 := fun h0 => h (BitVec.eq_of_toNat_eq h0)
    have hlog : Nat.log2 a.toNat < 64 := (Nat.log2_lt h0).mpr a.isLt
    refine ⟨63 - Nat.log2 a.toNat, if_neg h, by omega, ?_, fun _ => ?_⟩
    · rw [show 64 - (63 - Nat.log2 a.toNat) = Nat.log2 a.toNat + 1 by omega]
      exact Nat.lt_log2_self
    · rw [show 63 - (63 - Nat.log2 a.toNat) = Nat.log2 a.toNat by omega]
      exact Nat.log2_self_le h0

theorem popCountTo_eq_countP (n k : Nat) : popCountTo n k = (List.range k).countP (fun i => n.testBit i) := by
  induction k with
  | zero => rfl
  | succ k ih => rw [popCountTo, ih, List.range_succ, List.countP_append, List.countP_singleton]

theorem popc_eq_ofNat : popc a = BitVec.ofNat 64 ((List.range 64).countP (fun k => a.getLsbD k)) := by
  rw [popc, popCountTo_eq_countP]
  rfl

/-! Bit fields (R113). -/

/-- The field of w bits at p, as a number. -/
theorem extractLsb'_eq_ofNat : a.extractLsb' p w = BitVec.ofNat w ((a >>> p).toNat % 2 ^ w) := by
  apply BitVec.eq_of_toNat_eq
  rw [BitVec.extractLsb'_toNat, BitVec.toNat_ofNat, BitVec.toNat_ushiftRight, Nat.mod_mod]

theorem extract_unsigned : extract false p w a = BitVec.ofNat 64 (a.toNat / 2 ^ p % 2 ^ w) := by
  rw [extract, BitVec.toNat_ushiftRight, Nat.shiftRight_eq_div_pow]
  rfl

theorem extract_signed : extract true p w a = BitVec.ofInt 64 (a.extractLsb' p w).toInt := by
  rw [extractLsb'_eq_ofNat]
  rfl

/-- A bit of a mask of w ones at p. -/
theorem ones_testBit : ((2 ^ w - 1) * 2 ^ p).testBit k = decide (p ≤ k ∧ k < p + w) := by
  rw [Nat.testBit_mul_two_pow, Nat.testBit_two_pow_sub_one, ← Bool.decide_and]
  exact decide_eq_decide.mpr (by omega)

/-- A bit of a word with a field put in: the field's inside it, the word's outside. -/
theorem insert_getLsbD (hk : k < 64) :
    (insert p w old a).getLsbD k = if p ≤ k ∧ k < p + w then a.getLsbD (k - p) else old.getLsbD k := by
  simp only [insert, BitVec.getLsbD_or, BitVec.getLsbD_and, BitVec.getLsbD_not, BitVec.getLsbD_shiftLeft, BitVec.getLsbD_ofNat, ones_testBit, hk]
  by_cases h : p ≤ k ∧ k < p + w
  · simp [h, Nat.not_lt.mpr h.1]
  · simp [h]

end Sys2Proof.Machine
end

section
/-! PROOFS. The scalar integer operations (06 R111, R113). -/

namespace Sys2Proof.Machine

variable {op : Nat} {s : State} {f : SR}

/-- SCMP under code n of R84 gives 1 where its condition q holds, else 0. -/
theorem scmp_gives {q : Prop} [Decidable q] {n : Nat} (hs : Room s) (hn : f.sub.toNat = n)
    (h : icond 64 n ((atS s).scalar s f.a.toNat 0).val.toNat ((atS s).scalar s f.b.toNat 1).val.toNat = decide q) : exec (.scmp f) s =
      scalarGives s f.d (((atS s).scalar s f.a.toNat 0).poison || ((atS s).scalar s f.b.toNat 1).poison) 1 (if q then 1 else 0) :=
  srOp_plain hs (by rw [hn, h, truth_decide])

theorem ssel_gives (hs : Room s) : 
    let a := (atS s).scalar s f.a.toNat 0
    let b := (atS s).scalar s f.b.toNat 1
    let c := (atS s).scalar s f.c.toNat 2
    let sel := if c.val = 0 then b else a
    exec (.ssel f) s = scalarGives s f.d (c.poison || sel.poison) 1 sel.val :=
  runSlot_scalar (o := opSsel f) hs rfl (fun _ _ => rfl) rfl rfl rfl rfl

theorem fieldTooWide_false (h : f.b.toNat + (f.c.toNat + 1) ≤ 64) : firstCause [(fieldTooWide f, cIllegalEncoding)] = none := by
  rw [fieldTooWide, decide_eq_false (Nat.not_lt.mpr h)]
  rfl

/-- SEXT of a field within the word gives it, extended. -/
theorem opSext_gives {sgn : Bool} {v : Word} (hs : Room s) (h : f.b.toNat + (f.c.toNat + 1) ≤ 64)
    (hv : extract sgn f.b.toNat (f.c.toNat + 1) ((atS s).scalar s f.a.toNat 0).val = v) (hx : standing .s op s = atS s := by rfl)
    (hp : looppIllegal (some ⟨.s, BitVec.ofNat 8 op, 0, 0, 0, true⟩) = false := by rfl) :
    runSlot .s op (opSext sgn f) s = scalarGives s f.d ((atS s).scalar s f.a.toNat 0).poison 1 v := by
  subst hv
  exact runSlot_scalar hs rfl (fun _ _ => rfl) (fieldTooWide_false h) rfl hx hp

theorem sins_gives (hs : Room s) (h : f.b.toNat + (f.c.toNat + 1) ≤ 64) :
    exec (.sins f) s = scalarGives s f.d (((atS s).scalar s f.a.toNat 0).poison || ((atS s).scalar s f.d.toNat 1).poison) 1
      (insert f.b.toNat (f.c.toNat + 1) ((atS s).scalar s f.d.toNat 1).val ((atS s).scalar s f.a.toNat 0).val) :=
  runSlot_scalar (o := opSins f) hs rfl (fun _ _ => rfl) (fieldTooWide_false h) rfl rfl rfl

/-- Settles O1: each operation's result is its value, which is that of R111 or R113. -/
theorem scalarIntegerResults : Obligations.ScalarIntegerResults := by
  refine ⟨fun f s hs => ⟨srOp_plain hs (BitVec.add_def _ _), srOp_plain hs sub_eq_ofInt, srOp_plain hs mul_eq_ofInt, srOp_plain hs rfl, srOp_plain hs rfl,
    srOp_plain hs rfl, srOp_plain hs rfl, srOp_plain hs rfl, srOp_plain hs shl_eq_ofNat, srOp_plain hs shr_eq_ofNat, srOp_plain hs sra_eq_ofInt,
    srOp_plain hs minS_eq_ofInt, srOp_plain hs maxS_eq_ofInt, srOp_plain hs minU_eq_ofNat, srOp_plain hs maxU_eq_ofNat, ?_⟩, fun f s hs => ?_⟩
  · have code : ∀ {k : BitVec 4}, f.sub = k → f.sub.toNat = k.toNat := congrArg BitVec.toNat
    obtain ⟨hlt, hle, hgt, hge⟩ := icond_signed (a := ((atS s).scalar s f.a.toNat 0).val) (b := ((atS s).scalar s f.b.toNat 1).val)
    exact ⟨fun h => scmp_gives hs (code h) icond_eq, fun h => (scmp_gives hs (code h) icond_ne).trans (by rw [ite_not]),
      fun h => scmp_gives hs (code h) hlt, fun h => scmp_gives hs (code h) hle, fun h => scmp_gives hs (code h) hgt,
      fun h => scmp_gives hs (code h) hge, fun h => scmp_gives hs (code h) rfl, fun h => scmp_gives hs (code h) rfl,
      fun h => scmp_gives hs (code h) rfl, fun h => scmp_gives hs (code h) rfl⟩
  · obtain ⟨n, hn, hle, hlt, hge⟩ := clz_eq_ofNat (a := ((atS s).scalar s f.a.toNat 0).val)
    refine ⟨⟨n, srOp1_plain hs hn, hle, hlt, hge⟩, srOp1_plain hs popc_eq_ofNat, fun hc => ?_, fun hc => ?_, fun hw => opSext_gives hs hw extract_unsigned,
      fun hw => opSext_gives hs hw extract_signed, fun hw => ⟨_, sins_gives hs hw, fun k hk => insert_getLsbD hk⟩⟩
    · rw [ssel_gives hs, if_neg hc]
    · rw [ssel_gives hs, if_pos hc]

end Sys2Proof.Machine
end

section
/-! PROOFS. The scalar immediate operations, and division (06 R112, R114). -/

namespace Sys2Proof.Machine

variable {s : State} {a b : Word} {i : BitVec 24} {n k : Nat}

/-! Values of the immediate operations. -/

theorem add_signExtend_eq_ofInt : a + i.signExtend 64 = BitVec.ofInt 64 (a.toInt + i.toInt) := by
  rw [add_eq_ofInt, BitVec.toInt_signExtend_of_le (by decide)]

theorem and_setWidth_eq_ofNat : a &&& i.setWidth 64 = BitVec.ofNat 64 (a.toNat &&& i.toNat) := by
  rw [BitVec.ofNat_and, BitVec.ofNat_toNat, BitVec.ofNat_toNat, BitVec.setWidth_eq]

theorem or_setWidth_eq_ofNat : a ||| i.setWidth 64 = BitVec.ofNat 64 (a.toNat ||| i.toNat) := by
  rw [BitVec.ofNat_or, BitVec.ofNat_toNat, BitVec.ofNat_toNat, BitVec.setWidth_eq]

theorem xor_setWidth_eq_ofNat : a ^^^ i.setWidth 64 = BitVec.ofNat 64 (a.toNat ^^^ i.toNat) := by
  rw [BitVec.ofNat_xor, BitVec.ofNat_toNat, BitVec.ofNat_toNat, BitVec.setWidth_eq]

/-- A bit of a word whose n-th 16 bits are replaced: the immediate's there, the word's elsewhere (R114). -/
theorem insert_half_getLsbD (hn : n < 4) (hk : k < 64) :
    (insert (16 * (n % 4)) 16 a (i.setWidth 64)).getLsbD k = if k / 16 = n then i.getLsbD (k % 16) else a.getLsbD k := by
  rw [insert_getLsbD hk]
  refine if_ctx_congr (by omega) (fun h => ?_) (fun _ => rfl)
  rw [BitVec.getLsbD_setWidth, decide_eq_true (by omega), Bool.true_and]
  exact congrArg i.getLsbD (by omega)

theorem sli_gives {f : SI} (hs : Room s) : exec (.sli f) s = scalarGives s f.d false 1 (BitVec.ofInt 64 f.imm24.toInt) :=
  runSlot_scalar (o := opSli f) hs rfl (fun _ _ => rfl) rfl rfl rfl rfl

/-- Settles O2: each operation's result is its value, which is that of R114. -/
theorem scalarImmediateResults : Obligations.ScalarImmediateResults := fun _ _ hs =>
  ⟨siOp_gives hs add_signExtend_eq_ofInt, siOp_gives hs and_setWidth_eq_ofNat, siOp_gives hs or_setWidth_eq_ofNat, siOp_gives hs xor_setWidth_eq_ofNat,
    siOp_gives hs shl_eq_ofNat, siOp_gives hs shr_eq_ofNat, siOp_gives hs sra_eq_ofInt, sli_gives hs,
    fun hn _ => ⟨_, siOp_gives hs rfl, fun _ hk => insert_half_getLsbD hn hk⟩⟩

/-- Settles O3: the four operations by whether the divisor is zero. -/
theorem scalarDivisionResults : Obligations.ScalarDivisionResults := fun _ _ hs =>
  ⟨fun hb => ⟨srOp_flags hs (if_neg hb), srOp_flags hs (if_neg hb), srOp_flags hs (if_neg hb), srOp_flags hs (if_neg hb)⟩,
    fun hb => ⟨srOp_flags hs (if_pos hb), srOp_flags hs (if_pos hb), srOp_flags hs (if_pos hb), srOp_flags hs (if_pos hb)⟩⟩

end Sys2Proof.Machine
end

section
/-! PROOFS. The scalar floating-point operations (06 R115 to R118). -/

namespace Sys2Proof.Machine

variable {op : Nat} {s : State} {f : SR}

section Forms

variable (hs : Room s)

include hs

/-- An operation on the low 32 bits of a and b gives its value rounded by FMT.RND, and its flags (R116). -/
theorem sfOp_gives {g : Rounding → Nat → Nat → Flagged} (hx : standing .s op s = atS s := by rfl)
    (hp : looppIllegal (some ⟨.s, BitVec.ofNat 8 op, 0, 0, 0, true⟩) = false := by rfl) :
    let a := (atS s).scalar s f.a.toNat 0
    let b := (atS s).scalar s f.b.toNat 1
    let r := g (rounding (s.fmt s.cur.q) 0) (a.val.toNat % 2 ^ 32) (b.val.toNat % 2 ^ 32)
    runSlot .s op (sfOp f g) s = scalarFlags s f.d (a.poison || b.poison) 3 f.nf (BitVec.ofNat 64 r.bits) r.flags :=
  runSlot_scalar hs rfl (fun _ _ => rfl) rfl rfl hx hp

/-- A conversion of a gives its value rounded by its own rm, and its flags (R117). -/
theorem sfcvtOp_gives {g : Rounding → Word → Flagged} (hx : standing .s op s = atS s := by rfl)
    (hp : looppIllegal (some ⟨.s, BitVec.ofNat 8 op, 0, 0, 0, true⟩) = false := by rfl) :
    let a := (atS s).scalar s f.a.toNat 0
    let r := g (rounding (s.fmt s.cur.q) (f.c.toNat % 8)) a.val
    runSlot .s op (sfcvtOp f g) s = scalarFlags s f.d a.poison 3 f.nf (BitVec.ofNat 64 r.bits) r.flags :=
  runSlot_scalar hs rfl (fun _ _ => rfl) rfl rfl hx hp

theorem sfma_gives :
    let a := (atS s).scalar s f.a.toNat 0
    let b := (atS s).scalar s f.b.toNat 1
    let c := (atS s).scalar s f.c.toNat 2
    let r := ffma fp32 (rounding (s.fmt s.cur.q) 0) (a.val.toNat % 2 ^ 32) (b.val.toNat % 2 ^ 32) (c.val.toNat % 2 ^ 32)
    exec (.sfma f) s = scalarFlags s f.d (a.poison || b.poison || c.poison) 3 f.nf (BitVec.ofNat 64 r.bits) r.flags :=
  runSlot_scalar (o := opSfma f) hs rfl (fun _ _ => rfl) rfl rfl rfl rfl

end Forms

/-- Settles O4: each operation by its form, FMT.RND's or its own rounding. -/
theorem scalarFloatResults : Obligations.ScalarFloatResults := fun _ _ hs =>
  ⟨sfOp_gives hs, sfOp_gives hs, sfOp_gives hs, sfma_gives hs, sfOp_gives hs, sfOp_gives hs, srOp_flags hs rfl, sfcvtOp_gives hs, sfcvtOp_gives hs,
    sfcvtOp_gives hs, sfcvtOp_gives hs, sfcvtOp_gives hs, sfcvtOp_gives hs, sfcvtOp_gives hs, sfcvtOp_gives hs, sfcvtOp_gives hs, sfcvtOp_gives hs⟩

end Sys2Proof.Machine
end

section
/-! PROOFS. An operation that stands alone in slot S1, by the bundle that follows it (04 R76, 06 R119, R122). -/

namespace Sys2Proof.Machine

variable {op code : Nat} {o : Op} {s : State} {nx : Next} {t : Int}

/-- The bundle nx can follow at the cursor: its target, if it names one, is in the stream, and a branch that a loop may not let escape stays in it. -/
def Reachable (s : State) : Next → Prop
  | .seq | .zeroLoop _ => True
  | .branch t => InStream s t ∧ InLoop s t
  | .free t | .lexit _ t | .resume t => InStream s t

theorem Reachable.targetBad (h : Reachable s nx) : targetBad s (s.cur.q / 4) nx = false := by
  cases nx with
  | seq => rfl
  | zeroLoop t => rfl
  | branch t => exact targetBad_of_inStream rfl h.1
  | free t => exact targetBad_of_inStream rfl h
  | lexit k t => exact targetBad_of_inStream rfl h
  | resume t => exact targetBad_of_inStream rfl h

/-- A branch into the innermost loop, or to its end, does not escape it (R122). -/
theorem escapes_of_inLoop (h : InLoop s t) : escapes (s.seqOf s.cur.q) (.branch t) = false := by
  cases he : (s.seqOf s.cur.q).loops.getLast? with
  | none => simp only [escapes, he]
  | some e =>
    obtain ⟨h1, h2⟩ := h e he
    simp only [escapes, he, Bool.or_eq_false_iff, decide_eq_false_iff_not]
    omega

theorem Reachable.escapes (h : Reachable s nx) : escapes (s.seqOf s.cur.q) nx = false := by
  cases nx with
  | branch t => exact escapes_of_inLoop h.2
  | _ => rfl

section Alone

variable (hs : Settled s) (hnx : o.next (atS1 s) s = nx) (hr : Reachable s nx)
  (hpass : Unpipelined s ∨ looppIllegal (some ⟨.s, BitVec.ofNat 8 op, 0, 0, 0, true⟩) = false)

include hs hnx hr hpass

theorem unhindered_of_reachable (h1 : 0x30 ≤ op) (h2 : op ≤ 0x47) (hrows : Allotted s (o.rows (atS1 s) s))
    (hres : o.nres = 0 ∨ inFlightCount s s.cur.q + o.nres ≤ Config.inFlightLimit) : Unhindered .s op o s where
  settled := hs
  rows := by rw [standing_s1 h1 h2]; exact hrows
  pass := by
    obtain h | h := hpass
    · rw [show passOf (s.seqOf s.cur.q) = none from h]; rfl
    · rw [h, Bool.and_false]
  target := by rw [standing_s1 h1 h2, hnx]; exact hr.targetBad
  stays := by rw [standing_s1 h1 h2, hnx]; exact hr.escapes
  room := hres

/-- An operation of S1 without a cause of its own takes its effect and hands the counter on. -/
theorem s1_goesTo (hc : o.cause (atS1 s) s = none) (hrows : Allotted s (o.rows (atS1 s) s) := by exact fun _ h => absurd h List.not_mem_nil)
    (hres : o.nres = 0 ∨ inFlightCount s s.cur.q + o.nres ≤ Config.inFlightLimit := by exact .inl rfl)
    (h1 : 0x30 ≤ op := by decide) (h2 : op ≤ 0x47 := by decide) : runSlot .s op o s = goesTo (atS1 s) nx (o.acts (atS1 s) s) s :=
  runSlot_s1_goesTo h1 h2 (unhindered_of_reachable hs hnx hr hpass h1 h2 hrows hres) hc hnx

/-- An operation of S1 traps with its own cause. -/
theorem s1_traps (hc : o.cause (atS1 s) s = some code) (hcode : code ≠ cIllegalStream) (ho : ∀ x, o.onTrap code x s = [] := by exact fun _ => rfl)
    (hrows : Allotted s (o.rows (atS1 s) s) := by exact fun _ h => absurd h List.not_mem_nil)
    (hres : o.nres = 0 ∨ inFlightCount s s.cur.q + o.nres ≤ Config.inFlightLimit := by exact .inl rfl)
    (h1 : 0x30 ≤ op := by decide) (h2 : op ≤ 0x47 := by decide) : runSlot .s op o s = traps s 1 code :=
  runSlot_s1_traps h1 h2 (unhindered_of_reachable hs hnx hr hpass h1 h2 hrows hres) hc hcode ho

end Alone

theorem firstCause_false {b : Bool} {c : Nat} {l : List (Bool × Nat)} (h : b = false) : firstCause ((b, c) :: l) = firstCause l := by
  rw [h]
  rfl

theorem firstCause_true {b : Bool} {c : Nat} {l : List (Bool × Nat)} (h : b = true) : firstCause ((b, c) :: l) = some c := by
  rw [h]
  rfl

end Sys2Proof.Machine
end

section
/-! PROOFS. The branches and the poison checks (06 R119, R139, R140). -/

namespace Sys2Proof.Machine

variable {f : SB} {x : Ctx} {s : State} {b : Bool}

/-! Branches. -/

section Branch

variable {reads : Ctx → State → List SReg} {taken : List SReg → Bool} {target : Ctx → List SReg → Int} {leaves : Bool}

theorem branchOp_cause (h : ∀ r ∈ reads x s, r.poison = false) : (branchOp reads taken target leaves).cause x s = none :=
  firstCause_false (List.any_eq_false.mpr fun r hr => Bool.eq_false_iff.mp (h r hr))

theorem branchOp_next_stays (h : taken (reads x s) = false) : (branchOp reads taken target leaves).next x s = .seq :=
  if_neg (Bool.eq_false_iff.mp h)

theorem branchOp_next_branch (h : taken (reads x s) = true) : (branchOp reads taken target false).next x s = .branch (target x (reads x s)) := if_pos h

end Branch

/-! Poison checks. -/

/-- Whether the register that CHK looks at is poisoned (R139). -/
def Checks (f : SB) (x : Ctx) (s : State) (b : Bool) : Prop :=
  f.cond = 0 ∧ (x.scalar s f.a.toNat 0).poison = b ∨ f.cond ≠ 0 ∧ (x.mask s (f.a.toNat % 16) 0).poison = b

theorem Checks.poison (h : Checks f x s b) :
    (if f.cond = 0 then (x.scalar s f.a.toNat 0).poison else (x.mask s (f.a.toNat % 16) 0).poison) = b := by
  obtain ⟨hc, h⟩ | ⟨hc, h⟩ := h
  · rw [if_pos hc, h]
  · rw [if_neg hc, h]

theorem opChk_next_poisoned (h : Checks f x s true) : (opChk f).next x s = .free (relTarget x f.off24.toInt) := if_pos h.poison

theorem opChk_next_sound (h : Checks f x s false) : (opChk f).next x s = .seq := if_neg (Bool.eq_false_iff.mp h.poison)

/-- CHKM finds its mask or a lane that it enables poisoned (R140). -/
def ChecksRow (f : SB) (x : Ctx) (s : State) : Prop :=
  let lw := actWidth (fmtAct (s.fmt x.q))
  let m := x.mask s f.cond.toNat 0
  m.poison = true ∨ ∃ i, Enabled m.val (laneCount lw) i ∧ (x.row s (f.b.toNat % 8 * 64 + f.a.toNat) lw 1).lanePoison lw i = true

theorem checksRow_iff : ((x.mask s f.cond.toNat 0).poison || (List.range (laneCount (actWidth (fmtAct (s.fmt x.q))))).any (fun i =>
    (x.mask s f.cond.toNat 0).val.getLsbD i && (x.row s (f.b.toNat % 8 * 64 + f.a.toNat) (actWidth (fmtAct (s.fmt x.q))) 1).lanePoison
      (actWidth (fmtAct (s.fmt x.q))) i)) = true ↔ ChecksRow f x s := by
  simp only [Bool.or_eq_true, List.any_eq_true, List.mem_range, Bool.and_eq_true, ChecksRow, Enabled, and_assoc]

theorem opChkm_next_poisoned (h : ChecksRow f x s) : (opChkm f).next x s = .free (relTarget x f.off24.toInt) := if_pos (checksRow_iff.mpr h)

theorem opChkm_next_sound (h : ¬ ChecksRow f x s) : (opChkm f).next x s = .seq := if_neg fun hc => h (checksRow_iff.mp hc)

/-- Settles O20: each operation by the bundle that it names. -/
theorem branchResults : Obligations.BranchResults := by
  refine fun f s hs => ⟨fun ht hl => s1_goesTo hs rfl ⟨ht, hl⟩ (.inr rfl) rfl, fun ha hb => ?_, fun ha ht hl => ?_, fun hroom hp ht => ?_,
    fun hlink ht => ?_, fun hc ht => ?_, fun hc => ?_, fun hrows => ⟨fun hb ht => ?_, fun hb => ?_⟩⟩
  · have hc : (opBrc f).cause (atS1 s) s = none := branchOp_cause (by simp [ha, hb])
    exact ⟨fun hi ht hl => s1_goesTo hs (branchOp_next_branch hi) ⟨ht, hl⟩ (.inr rfl) hc,
      fun hi => s1_goesTo hs (branchOp_next_stays hi) trivial (.inr rfl) hc⟩
  · exact s1_goesTo hs rfl ⟨ht, hl⟩ (.inr rfl) (branchOp_cause (by simp [ha]))
  · exact s1_goesTo (o := opCall f) hs rfl ht (.inl hp) rfl (hres := .inr hroom.2)
  · exact s1_goesTo (o := opRet f) hs rfl ht (.inr rfl) (branchOp_cause (by simp [hlink]))
  · exact s1_goesTo hs (opChk_next_poisoned hc) ht (.inr rfl) rfl
  · exact s1_goesTo hs (opChk_next_sound hc) trivial (.inr rfl) rfl
  · exact s1_goesTo hs (opChkm_next_poisoned hb) ht (.inr rfl) rfl (hrows := hrows)
  · exact s1_goesTo hs (opChkm_next_sound hb) trivial (.inr rfl) rfl (hrows := hrows)

end Sys2Proof.Machine
end

section
/-! PROOFS. SPAWN, YIELD, HALT and TRAP (06 R134 to R138, R141, 13 R285, R303). -/

namespace Sys2Proof.Machine

variable {f : SL} {g : SX} {x : Ctx} {s t : State} {q r m : Nat} {a : Act}

/-! SPAWN. -/

/-- A SPAWN whose arguments and sibling the manual allows is stopped by a sibling that is not idle only (R134). -/
theorem opSpawn_cause (hn : f.imm12.toNat % 16 ≤ 8) (ha : f.imm12.toNat % 16 ≠ 0 → f.a.toNat + f.imm12.toNat % 16 ≤ 64)
    (h0 : f.a ≠ 0 → f.imm12.toNat % 16 ≠ 0) (hsib : f.sub.toNat % 4 ≠ x.seqId) (hw : f.sub.toNat % 4 < (s.coreOf x.core).width) :
    (opSpawn f).cause x s = if (s.seqOf (4 * x.core + f.sub.toNat % 4)).run ≠ .idle then some cSpawnBusy else none := by
  have hform : (8 < f.imm12.toNat % 16 || (f.imm12.toNat % 16 ≠ 0 && 63 < f.a.toNat + f.imm12.toNat % 16 - 1) ||
      (f.a ≠ 0 && f.imm12.toNat % 16 = 0) || f.sub.toNat % 4 = x.seqId || (s.coreOf x.core).width ≤ f.sub.toNat % 4) = false := by
    simp only [Bool.or_eq_false_iff, decide_eq_false hsib, decide_eq_false (Nat.not_le.mpr hw), decide_eq_false (Nat.not_lt.mpr hn), and_true, true_and]
    refine ⟨decide_and_eq_false fun h => decide_eq_false ?_, decide_and_eq_false fun h => decide_eq_false (h0 h)⟩
    have := ha h
    omega
  calc (opSpawn f).cause x s = lowestCause [(decide ((s.seqOf (4 * x.core + f.sub.toNat % 4)).run ≠ .idle), cSpawnBusy)] := lowestCause_false hform
    _ = _ := by simp only [lowestCause_last, decide_eq_true_eq]

/-! YIELD. -/

/-- A YIELD outside a handler, at the end of the innermost loop's body or outside every loop, that states a run is not stopped (R136). -/
theorem opYield_cause (hh : (s.seqOf x.q).hnd = false) (h0 : f.imm12 ≠ 0)
    (hl : ∀ e, (s.seqOf x.q).loops.getLast? = some e → e.pipe = false ∧ x.addr + x.size = e.stop) : (opYield f).cause x s = none := by
  have hplace : ((s.seqOf x.q).hnd || (match (s.seqOf x.q).loops.getLast? with | some e => e.pipe || x.addr + x.size ≠ e.stop | none => false)) = false := by
    rw [hh, Bool.false_or]
    split
    · rename_i e he
      obtain ⟨hp, hs⟩ := hl e he
      rw [hp, hs]
      simp
    · rfl
  exact (firstCause_false hplace).trans (firstCause_false (decide_eq_false h0))

/-- Under a Quiesce the sequencer stops for the cut, and the lead states the queue's run (R303). -/
theorem yieldActs_quiescing (h : quiescing s (q / 4) = true) : yieldActs s q r = .seq q (fun z => { z with run := .quiesced }) ::
    (if leadOf s (q / 4) = some (q % 4) then
      (List.range 4).map (fun i => Act.seq (4 * (q / 4) + i) (fun z => if z.run = .parked then { z with run := .quiesced } else z)) ++
        stateRun (s.coreOf (q / 4)) (q / 4) r else []) := if_pos h

/-- A sibling parks (R136). -/
theorem yieldActs_sibling (h : quiescing s (q / 4) = false) (hl : leadOf s (q / 4) ≠ some (q % 4)) :
    yieldActs s q r = [.seq q (fun z => { z with run := .parked })] := by
  simp only [yieldActs, h, Bool.false_eq_true, if_false, if_pos hl]

/-- The lead whose queue has no rival, below the power cap: the parked siblings run on, and the run is stated (R285, R286). -/
theorem yieldActs_lead (h : quiescing s (q / 4) = false) (hl : leadOf s (q / 4) = some (q % 4)) (ho : (s.coreOf (q / 4)).owner = some m)
    (hr : rivalReady (s.coreOf (q / 4)) (some m) = false) (hcap : s.chip.meas ≤ s.chip.cap) : yieldActs s q r =
      (List.range 4).map (fun i => Act.seq (4 * (q / 4) + i) (fun z =>
        if z.run = .parked then z.proceed else if z.hnd then { z with released := true } else z)) ++
      [modQueue (q / 4) m (fun z => { z with run := r, sinceYield := 0, overrun := false }), .core (q / 4) (fun y => { y with stretchFor := none })] := by
  have hpower : idleGrant s (s.coreOf (q / 4)) 50002 = none := if_neg (Nat.not_lt.mpr hcap)
  simp only [yieldActs, h, hl, ho, hr, hpower, stateRun, Bool.false_eq_true, if_false, ne_eq, not_true_eq_false, Bool.not_false, Bool.or_true, if_true,
    ite_self, List.append_nil]

/-! HALT. -/

/-- The sequencer is stopped, outside every loop (R135). -/
def Stopped (y : Seq) : Prop := y.run = .idle ∧ y.loops = []

/-- The micro-operations of a HALT of q: none of a sequencer but that stops q or goes to a sibling. -/
inductive HaltAct (q : Nat) : Act → Prop
  | write (h : Home) (b : Nat) (bs : List Byte) (ps : List Bool) : HaltAct q (.write h b bs ps)
  | stop (f : Seq → Seq) (h : ∀ y, Stopped (f y)) : HaltAct q (.seq q f)
  | work (f : Work → Work) : HaltAct q (.work f)
  | sibling (k : Nat) (f : Seq → Seq) (h : k ≠ q) : HaltAct q (.seq k f)

theorem haltActs_kinds (h : a ∈ haltActs s q) : HaltAct q a := by
  simp only [haltActs, List.mem_append, List.mem_cons] at h
  obtain h | rfl | rfl | h := h
  · split at h
    · obtain rfl := List.mem_singleton.mp h
      exact .write _ _ _ _
    · simp at h
  · exact .stop _ fun _ => ⟨rfl, rfl⟩
  · exact .work _
  · split at h
    · rename_i i hi
      split at h
      · obtain rfl := List.mem_singleton.mp h
        have hne := List.find?_some hi
        simp only [Bool.and_eq_true, decide_eq_true_eq] at hne
        have hlt := List.mem_range.mp (List.mem_of_find?_eq_some hi)
        exact .sibling _ _ (by omega)
      · simp at h
    · simp at h

theorem HaltAct.keeps_stopped (h : HaltAct q a) (ht : Canonical t) (hP : Stopped (t.seqOf q)) : Stopped ((applyAct a t).seqOf q) := by
  cases h with
  | write h b bs ps => rw [State.seqOf, applyAct_write, setMem_seqs]; exact hP
  | stop f h => rw [seqOf_seq_same ht.seqs]; exact h _
  | work f => exact hP
  | sibling k f h => rw [seqOf_seq_other h.symm]; exact hP

theorem haltActs_stopped (hs : Canonical s) : Stopped ((applyActs (haltActs s q) s).seqOf q) := by
  have hmem : ∃ f, .seq q f ∈ haltActs s q ∧ ∀ y, Stopped (f y) := ⟨_, List.mem_append_right _ (.head _), fun _ => ⟨rfl, rfl⟩⟩
  obtain ⟨f, hf, hstop⟩ := hmem
  exact applyActs_holds_of_mem (P := fun t => Stopped (t.seqOf q)) hs hf (fun t ht => by rw [seqOf_seq_same ht.seqs]; exact hstop _)
    fun a ha t ht => (haltActs_kinds ha).keeps_stopped ht

theorem seqOf_bump : (applyAct bump t).seqOf q = t.seqOf q := rfl

/-- A sequencer that its own effect has stopped outside every loop stays stopped as its counter moves on. -/
theorem issued_stopped {l : List Act} (hs : Canonical s) (h : Stopped ((applyActs l s).seqOf x.q)) : Stopped ((issued x .seq l s).seqOf x.q) := by
  obtain ⟨hrun, hloops⟩ := h
  rw [issued, applyActs_bump, seqOf_bump, applyActs_append, advance_plain (by rw [hloops]; rfl), hloops, applyActs_cons, applyActs_nil,
    seqOf_seq_same (applyActs_canonical hs l).seqs]
  exact ⟨hrun, rfl⟩

theorem halt_goesOn (hs : Settled s) (hp : Unpipelined s) : exec (.halt g) s = goesOn (atS1 s) (haltActs s s.cur.q) s :=
  s1_goesTo (o := opHalt g) hs rfl trivial (.inl hp) rfl

/-! TRAP. -/

theorem boundaryTrap_sync {cause : Cause} (hs : (s.seqOf q).sync = some cause) (hr : (s.seqOf q).run = .run) (ha : asyncTrap s q = none) :
    boundaryTrap s q = some ([], .trapEntry q cause) := by
  simp only [boundaryTrap, ha, syncTrap, hr, hs, ne_eq, not_true_eq_false, if_false]

/-- Settles O22: SPAWN and YIELD by what stops them, HALT by what its effect leaves of the sequencer, TRAP by the trap at the next boundary. -/
theorem sequencerControlResults : Obligations.SequencerControlResults := by
  refine fun f g s hs => ⟨fun hp hn ha h0 hsib hw => ⟨fun hidle => ?_, fun hbusy => ?_⟩, fun hp hh h0 hl => ⟨?_, yieldActs_quiescing, yieldActs_sibling,
    fun m => yieldActs_lead⟩, fun hp => ⟨halt_goesOn hs hp, fun hcan => ?_⟩, ?_, fun _ => boundaryTrap_sync⟩
  · exact s1_goesTo (o := opSpawn f) hs rfl trivial (.inl hp) ((opSpawn_cause (x := atS1 s) hn ha h0 hsib hw).trans (if_neg fun h => h hidle))
  · exact s1_traps (o := opSpawn f) hs rfl trivial (.inl hp) ((opSpawn_cause (x := atS1 s) hn ha h0 hsib hw).trans (if_pos hbusy)) (by decide)
  · exact s1_goesTo (o := opYield f) hs rfl trivial (.inl hp) (opYield_cause hh h0 hl)
  · exact ⟨_, halt_goesOn hs hp, issued_stopped hcan (haltActs_stopped hcan)⟩
  · exact s1_goesTo (o := opTrap g) hs rfl trivial (.inr rfl) rfl

end Sys2Proof.Machine
end

section
/-! PROOFS. RETT: what stops it, and the sequencer it leaves (06 R142 to R144). -/

namespace Sys2Proof.Machine

variable {f : SX} {x : Ctx} {s t : State} {q k : Nat} {a : Act}

/-! Checks of what is read. -/

/-- The check of a unit marks it anew or posts an event (R359). -/
theorem eccUnit_kinds {fn u : Nat} {h : Home} {m : UnitMark} (ha : a ∈ eccUnit s fn h u m) : (∃ v, a = .mark h u v) ∨ ∃ g, a = .chip g := by
  have both : ∀ v g, a ∈ [Act.mark h u v, .chip g] → (∃ v, a = .mark h u v) ∨ ∃ g, a = .chip g := by
    intro v g hm
    obtain rfl | hm := List.mem_cons.mp hm
    · exact .inl ⟨_, rfl⟩
    · exact .inr ⟨_, List.mem_singleton.mp hm⟩
  unfold eccUnit at ha
  split at ha
  · exact both _ _ ha
  · exact both _ _ ha
  · exact both _ _ ha
  · exact both _ _ ha
  · exact both _ _ ha
  · exact .inl ⟨_, List.mem_singleton.mp ha⟩
  · exact absurd ha List.not_mem_nil

/-- The check of what a read finds changes no sequencer. -/
theorem eccChecks_seqs {l : List (Home × Nat × Nat)} {fn : Nat} (h : a ∈ eccChecks s l fn) (t : State) : (applyAct a t).seqs = t.seqs := by
  rw [eccChecks, List.mem_flatMap] at h
  obtain ⟨g, -, h⟩ := h
  obtain ⟨e, -, h⟩ := List.mem_flatMap.mp h
  obtain ⟨v, rfl⟩ | ⟨g, rfl⟩ := eccUnit_kinds h
  · exact setMem_seqs
  · rfl

/-! RETT. -/

/-- The sequencer as a RETT leaves it: what the frame holds, out of the handler, its latches to be counted from its next bundle (R142, R143). -/
def Returned (s : State) (q : Nat) (y : Seq) : Prop :=
  y.pc = frameEpc s q ∧ y.hnd = false ∧ y.loops = frameLoops s q ∧ y.rep = frameRep s q ∧ y.rearm = true

/-- The micro-operations of a RETT: those that change a sequencer restore it. -/
def RettAct (s : State) (q : Nat) (a : Act) : Prop :=
  (∀ t, (applyAct a t).seqs = t.seqs) ∨ ∃ f, a = .seq q f ∧ ∀ y, Returned s q (f y)

theorem RettAct.keeps_returned (h : RettAct s q a) (ht : Canonical t) (hP : Returned s q (t.seqOf q)) : Returned s q ((applyAct a t).seqOf q) := by
  obtain h | ⟨f, rfl, hf⟩ := h
  · rw [State.seqOf, h]
    exact hP
  · rw [seqOf_seq_same ht.seqs]
    exact hf _

/-- The effect of a RETT: the frame's checks, the return, and the requests of the waits it returns to, sent again. -/
def rettActs (x : Ctx) (s : State) : List Act :=
  frameChecks s x.q ++ leaveTrap s x.q ++ requestWait s x.q (frameWait s x.q).2 (x.ck 10) ++
    (frameMore s x.q).flatMap (fun w => requestWait s x.q w.wait (x.ck 11))

theorem requestWait_seqs {w : Wait} (h : a ∈ requestWait s q w k) (t : State) : (applyAct a t).seqs = t.seqs := by
  unfold requestWait at h
  split at h
  · obtain rfl := List.mem_singleton.mp h
    rfl
  · obtain rfl := List.mem_singleton.mp h
    rfl
  · simp at h

theorem leaveTrap_kinds (h : a ∈ leaveTrap s q) : RettAct s q a := by
  simp only [leaveTrap, List.mem_append, List.mem_cons, List.mem_map, List.not_mem_nil, or_false] at h
  obtain (rfl | ⟨i, -, rfl⟩) | rfl | rfl := h
  · exact .inl fun t => setMem_seqs
  · exact .inl fun t => rfl
  · exact .inl fun t => rfl
  · exact .inr ⟨_, rfl, fun y => ⟨rfl, rfl, rfl, rfl, rfl⟩⟩

theorem leaveTrap_restores (s : State) (q : Nat) : ∃ f, .seq q f ∈ leaveTrap s q ∧ ∀ y, Returned s q (f y) :=
  ⟨_, List.mem_append_right _ (.tail _ (.head _)), fun _ => ⟨rfl, rfl, rfl, rfl, rfl⟩⟩

theorem rettActs_kinds (h : a ∈ rettActs x s) : RettAct s x.q a := by
  simp only [rettActs, List.mem_append, List.mem_flatMap] at h
  obtain ((h | h) | h) | ⟨w, -, h⟩ := h
  · exact .inl (eccChecks_seqs h)
  · exact leaveTrap_kinds h
  · exact .inl (requestWait_seqs h)
  · exact .inl (requestWait_seqs h)

/-- A RETT leaves its sequencer as the frame holds it. -/
theorem rettActs_returned (hs : Canonical s) : Returned s x.q ((applyActs (rettActs x s) s).seqOf x.q) := by
  obtain ⟨f, hf, hret⟩ := leaveTrap_restores s x.q
  refine applyActs_holds_of_mem (P := fun t => Returned s x.q (t.seqOf x.q)) hs
    (List.mem_append_left _ (List.mem_append_left _ (List.mem_append_right _ hf)))
    (fun t ht => by rw [seqOf_seq_same ht.seqs]; exact hret _) fun a ha t ht => (rettActs_kinds ha).keeps_returned ht

/-- An operation that resumes leaves what its effect leaves: the counter is not moved again. -/
theorem issued_resume {l : List Act} {n : Int} : (issued x (.resume n) l s).seqOf q = (applyActs l s).seqOf q := by
  rw [issued, applyActs_bump, seqOf_bump, applyActs_append]
  rfl

theorem opRett_next (h : (s.seqOf x.q).hnd = true) : (opRett f).next x s = .resume (frameEpc s x.q) := if_pos h

theorem opRett_next_outside (h : (s.seqOf x.q).hnd = false) : (opRett f).next x s = .seq := if_neg (Bool.eq_false_iff.mp h)

theorem opRett_cause (h : (s.seqOf x.q).hnd = true) : (opRett f).cause x s = if framePoisoned s x.q then some cPoison else none := by
  refine (firstCause_false (congrArg Bool.not h)).trans ?_
  cases framePoisoned s x.q <;> rfl

section Handler

variable (hs : Settled s) (hh : (s.seqOf s.cur.q).hnd = true) (ht : InStream s (frameEpc s s.cur.q))

include hs hh ht

theorem rett_resumes (hp : framePoisoned s s.cur.q = false) :
    exec (.rett f) s = goesTo (atS1 s) (.resume (frameEpc s s.cur.q)) (rettActs (atS1 s) s) s :=
  s1_goesTo (o := opRett f) hs (opRett_next hh) ht (.inr rfl) ((opRett_cause hh).trans (if_neg (Bool.eq_false_iff.mp hp)))

theorem rett_traps_poisoned (hp : framePoisoned s s.cur.q = true) : exec (.rett f) s = traps s 1 0x07 :=
  s1_traps (o := opRett f) hs (opRett_next hh) ht (.inr rfl) ((opRett_cause hh).trans (if_pos hp)) (by decide)

end Handler

theorem rett_traps_outside (hs : Settled s) (hh : (s.seqOf s.cur.q).hnd = false) : exec (.rett f) s = traps s 1 0x04 :=
  s1_traps (o := opRett f) hs (opRett_next_outside hh) trivial (.inr rfl) (firstCause_true (congrArg Bool.not hh)) (by decide)

end Sys2Proof.Machine
end

section
/-! PROOFS. The system-register operations, SETFMT, GLCHK, FLCLR and the time base (06 R145 to R153). -/

namespace Sys2Proof.Machine

variable {f : SX} {g : SL} {x : Ctx} {s : State} {i k : Nat}

/-! SYSRD and SYSWR. -/

/-- A lane-flag register's index is assigned (R33, R36). -/
theorem sysAssigned_of_laneIndex (h : laneIndex i = some k) : sysAssigned i = true := by
  rw [laneIndex] at h
  split at h
  · rename_i hi
    rw [sysAssigned, hi, Bool.or_true]
  · simp at h

theorem opSysrd_cause (ha : sysAssigned f.sysreg.toNat = true) (hd : (laneIndex f.sysreg.toNat).isSome = true → f.d.toNat < 16) :
    (opSysrd f).cause x s = none := by
  refine firstCause_false (Bool.or_eq_false_iff.mpr ⟨congrArg Bool.not ha, ?_⟩)
  rw [Bool.and_eq_false_imp]
  exact fun h => decide_eq_false (Nat.not_le.mpr (hd h))

theorem opSysrd_acts_scalar (h : laneIndex f.sysreg.toNat = none) : (opSysrd f).acts x s =
    eccChecks s (sysFrame x.q f.sysreg.toNat) (s.fnOf x.core) ++ [scalarResult x s f.d.toNat
      ((sysFrame x.q f.sysreg.toNat).any (fun p => s.unitPoisoned p.1 p.2.1)) (sysRead x s f.sysreg.toNat) 1 true 0] := by
  simp only [opSysrd, h]

theorem opSysrd_acts_lanes (h : laneIndex f.sysreg.toNat = some k) (hd : f.d.toNat < 16) :
    (opSysrd f).acts x s = [result x s (.mask f.d.toNat) (.mask ((seenFlags x s).laneFlag x.q k) false) 1 {}] := by
  simp only [opSysrd, h, Nat.mod_eq_of_lt hd]

theorem opSyswr_cause_scalar (h : laneIndex f.sysreg.toNat = none) (ha : sysAssigned f.sysreg.toNat = true)
    (hp : (x.scalar s f.a.toNat 0).poison = false ∨ 0x080 ≤ f.sysreg.toNat ∧ f.sysreg.toNat ≤ 0x083) : (opSyswr f).cause x s = none := by
  have hpoison : (!(0x080 ≤ f.sysreg.toNat && f.sysreg.toNat ≤ 0x083) && (x.scalar s f.a.toNat 0).poison) = false := by
    obtain hp | ⟨hlo, hhi⟩ := hp
    · rw [hp, Bool.and_false]
    · rw [decide_eq_true hlo, decide_eq_true hhi]
      rfl
  simp only [opSyswr, h]
  exact (lowestCause_false (congrArg Bool.not ha)).trans (lowestCause_false (by simpa using hpoison))

theorem opSyswr_acts_scalar (h : laneIndex f.sysreg.toNat = none) : (opSyswr f).acts x s = sysWrite x s f.sysreg.toNat (x.scalar s f.a.toNat 0) := by
  simp only [opSyswr, h]

theorem opSyswr_cause_lanes (h : laneIndex f.sysreg.toNat = some k) (ha : f.a.toNat < 16) (hp : (x.mask s f.a.toNat 0).poison = false) :
    (opSyswr f).cause x s = none := by
  simp only [opSyswr, h, Nat.mod_eq_of_lt ha]
  exact (lowestCause_false (decide_eq_false (Nat.not_le.mpr ha))).trans (lowestCause_false hp)

/-- A write to a lane-flag register clears its lanes in the flags set before this cycle, WRAP's with NX (R36, R146). -/
theorem opSyswr_acts_lanes (h : laneIndex f.sysreg.toNat = some k) (ha : f.a.toNat < 16) :
    let left := fun k => (applyActs (takeEarly x s) s).laneFlag x.q k &&& ~~~(x.mask s f.a.toNat 0).val
    (opSyswr f).acts x s = takeEarly x s ++ [.lanes x.q k (left k)] ++ (if k % 6 = 4 then [.lanes x.q (k + 1) (left (k + 1))] else []) := by
  simp only [opSyswr, h, Nat.mod_eq_of_lt ha]

/-! SETFMT and GLCHK. -/

theorem opSetfmt_cause (hp : (x.scalar s f.a.toNat 0).poison = false) (hf : fmtRefused (x.scalar s f.a.toNat 0).val = false) :
    (opSetfmt f).cause x s = none := by
  refine (lowestCause_false ?_).trans (lowestCause_false hp)
  rw [hf, Bool.and_false]

theorem opGlchk_cause (hg : (s.readGlint x.q (f.sysreg.toNat - 0x080) (x.ck 59)).poison = false) (hp : (x.scalar s f.a.toNat 0).poison = false)
    (hv : (s.readGlint x.q (f.sysreg.toNat - 0x080) (x.ck 59)).val = (x.scalar s f.a.toNat 0).val) : (opGlchk f).cause x s = none :=
  firstCause_false (by rw [hg, hp, hv]; simp)

/-! The time base. -/

theorem opTwait_acts_reached (h : (x.scalar s g.a.toNat 0).val.toNat ≤ s.gtime) : (opTwait g).acts x s = [] := if_pos h

theorem opTwait_acts_waits (h : s.gtime < (x.scalar s g.a.toNat 0).val.toNat) :
    (opTwait g).acts x s = [.seq x.q (fun y => { y with run := .wait, wait := .twait (x.scalar s g.a.toNat 0).val })] := if_neg (Nat.not_le.mpr h)

section Outcomes

variable (hs : Settled s)

include hs

theorem twait_goesOn (hp : ((atS1 s).scalar s g.a.toNat 0).poison = false) : exec (.twait g) s = goesOn (atS1 s) ((opTwait g).acts (atS1 s) s) s :=
  s1_goesTo (o := opTwait g) hs rfl trivial (.inr rfl) (firstCause_false hp)

theorem sysrd_goesOn (hroom : Room s) (ha : sysAssigned f.sysreg.toNat = true) (hd : (laneIndex f.sysreg.toNat).isSome = true → f.d.toNat < 16) :
    exec (.sysrd f) s = goesOn (atS1 s) ((opSysrd f).acts (atS1 s) s) s :=
  s1_goesTo (o := opSysrd f) hs rfl trivial (.inr rfl) (opSysrd_cause ha hd) (hres := .inr hroom.2)

theorem syswr_goesOn (hc : (opSyswr f).cause (atS1 s) s = none) : exec (.syswr f) s = goesOn (atS1 s) ((opSyswr f).acts (atS1 s) s) s :=
  s1_goesTo (o := opSyswr f) hs rfl trivial (.inr rfl) hc

end Outcomes

/-- Settles O23: RETT by what the frame holds, the other operations by what stops them and the register they name. -/
theorem systemResults : Obligations.SystemResults := by
  refine ⟨fun f s hs => ⟨fun hh ht hp => ⟨rett_resumes hs hh ht hp, fun hcan => ?_⟩, rett_traps_poisoned hs, rett_traps_outside hs⟩,
    fun f g s hs => ⟨fun hroom ha hl => ?_, fun k hroom hl hd => ?_, fun ha hl hp => ?_, fun k hl ha hp => ?_, fun hroom hp hf => ?_, fun hg hp hv => ?_, ?_,
      fun hp => ⟨?_, fun ht => ?_, fun ht => ?_⟩, fun he => ?_⟩⟩
  · refine ⟨_, rett_resumes hs hh ht hp, ?_⟩
    rw [issued_resume]
    exact rettActs_returned hcan
  · rw [sysrd_goesOn hs hroom ha (by simp [hl]), opSysrd_acts_scalar hl]
    rfl
  · rw [sysrd_goesOn hs hroom (sysAssigned_of_laneIndex hl) (fun _ => hd), opSysrd_acts_lanes hl hd]
    rfl
  · rw [syswr_goesOn hs (opSyswr_cause_scalar hl ha hp), opSyswr_acts_scalar hl]
  · rw [syswr_goesOn hs (opSyswr_cause_lanes hl ha hp), opSyswr_acts_lanes hl ha]
    rfl
  · exact s1_goesTo (o := opSetfmt f) hs rfl trivial (.inr rfl) (opSetfmt_cause hp hf) (hres := .inr hroom.2)
  · exact s1_goesTo (o := opGlchk f) hs rfl trivial (.inr rfl) (opGlchk_cause hg hp hv)
  · exact s1_goesTo (o := opFlclr f) hs rfl trivial (.inr rfl) rfl
  · exact s1_goesTo (o := opSettb g) hs rfl trivial (.inr rfl) (firstCause_false hp)
  · rw [twait_goesOn hs hp, opTwait_acts_reached ht]
  · rw [twait_goesOn hs hp, opTwait_acts_waits ht]
    rfl
  · exact s1_goesTo (o := opTrealign g) hs rfl trivial (.inr rfl) (firstCause_false (decide_eq_false (Nat.not_lt.mpr he)))

end Sys2Proof.Machine
end

section
/-! PROOFS. The rollback of a LOOPP (06 R126, R127). -/

namespace Sys2Proof.Machine

variable {q p pc : Nat} {loops : List LoopEntry} {e : LoopEntry} {s : State}

theorem exec_looppRollback : exec (.looppRollback q) s = performs (rollbackActs s q) s := rfl

section Rollback

variable (hend : (s.seqOf q).passEnd = some (loops, pc)) (hp : (s.seqOf q).rollback = some p) (he : (s.seqOf q).loops.getLast? = some e)

include hend hp he

/-- With the rolled-back flag clear and the stores of pass p still held, back to the prologue for that pass. -/
theorem rollbackActs_again (hesc : (s.seqOf q).rollEsc = false) (hi : e.index ≤ p + e.stage) :
    rollbackActs s q = releaseHeld s q ((s.seqOf q).window.filter (fun h => h.pass < p)) ++
      [.seq q (fun y => { y with loops := y.loops.dropLast ++ [{ e with index := p }], pc := e.prologue, window := [], rollback := none
                                 passEnd := none, reent := true, rolledBack := true, rbPass := p }),
       post s 0x13 (s.fnOf (q / 4)) (q / 4) e.start 0] := by
  simp only [rollbackActs, hend, hp, he, hesc, decide_eq_false (Nat.not_lt.mpr hi), Bool.or_false, Bool.false_eq_true, if_false]

/-- Otherwise the poison-escalation trap at the next boundary, past the pass that has ended. -/
theorem rollbackActs_escalates (h : (s.seqOf q).rollEsc = true ∨ p + e.stage < e.index) :
    rollbackActs s q = releaseHeld s q ((s.seqOf q).window.filter (fun h => h.pass < p)) ++
      [.seq q (fun y => { y with loops := loops, pc := pc, window := [], rollback := none, rollEsc := false, passEnd := none, escalate := true }),
       post s 0x14 (s.fnOf (q / 4)) (q / 4) e.start 0] := by
  have hcond : ((s.seqOf q).rollEsc || decide (p + e.stage < e.index)) = true := by simpa using h
  simp only [rollbackActs, hend, hp, he, hcond, if_true]

end Rollback

/-- Settles O35: the two ways by whether the loop may still roll back. -/
theorem looppRollback : Obligations.LooppRollback := fun q p pc loops e s hend hp he =>
  ⟨fun hesc hi => ⟨_, by rw [exec_looppRollback, rollbackActs_again hend hp he hesc hi]; rfl, rfl⟩,
    fun h => ⟨_, by rw [exec_looppRollback, rollbackActs_escalates hend hp he h]; rfl, rfl⟩⟩

end Sys2Proof.Machine
end

section
/-! PROOFS. The ends of the waits (06 R152, R153, 08 R220 to R223). -/

namespace Sys2Proof.Machine

variable {q : Nat} {s : State}

theorem reportDue_eq_true {t : Nat} {b : Bool} (hr : (s.seqOf q).run = .wait) (h : (s.seqOf q).report = some (t, b)) (ht : t ≤ s.cyc) :
    reportDue s q = true := by
  simp only [reportDue, hr, h, ht, decide_true, Bool.and_true]

/-! Each wait, by what ends it. -/

theorem waitvActs_due {loc n c sl ad : Nat} {v : Word} (b : Bool) (hw : (s.seqOf q).wait = .waitv loc v n c sl ad) (hd : reportDue s q = true) :
    waitvActs s q b = endWait q ++ (if b then pushEvent s q { code := 0x20, slot := sl, sub := 3, faddr := ad, addr := loc } else []) := by
  simp only [waitvActs, hw, hd, if_true]

theorem twaitActs_due {t : Word} (hr : (s.seqOf q).run = .wait) (hw : (s.seqOf q).wait = .twait t) (ht : t.toNat ≤ s.gtime) :
    twaitActs s q = endWait q ++ [.seq q (fun y => { y with resumeAt := max y.resumeAt (s.cyc + 1) })] := by
  simp only [twaitActs, hr, hw, ht, if_true]

theorem trealignActs_due {k : Nat} (hr : (s.seqOf q).run = .wait) (hw : (s.seqOf q).wait = .trealign k) (hl : s.chip.tbu.lock = true)
    (hg : s.gtime % 2 ^ k = 0) : trealignActs s q = endWait q ++ [.seq q (fun y => { y with tb := BitVec.ofNat 64 s.cyc })] := by
  simp only [trealignActs, hr, hw, hl, hg, decide_true, Bool.and_self, if_true]

theorem chrecvActs_due {ch row lat sl ad : Nat} (hr : (s.seqOf q).run = .wait) (hw : (s.seqOf q).wait = .chrecv ch row lat sl ad)
    (h : 0 < chtCount (s.chtOf (q / 4) ch)) : chrecvActs s q =
      takeElement { q := q, slot := sl, addr := ad, size := 2 } s (s.chtOf (q / 4) ch) 0 row (8 * 2 ^ lat) ++
        .cht (q / 4) ch (chtTake (s.chtOf (q / 4) ch) 1) :: endWait q := by
  simp only [chrecvActs, hr, hw, h, if_true]

theorem barwaitReport_due {o sl ad : Nat} {p : Bool} (hw : (s.seqOf q).wait = .barwait o p sl ad) (hd : reportDue s q = true) :
    exec (.barwaitReport q) s = performs (endWait q) s := by
  have hexec : exec (.barwaitReport q) s = execBarwaitReport q s := rfl
  simp only [hexec, execBarwaitReport, hw, hd, if_true]
  rfl

/-- A sequencer with no further wait of its bundle runs on (R17). -/
theorem proceed_runs {y : Seq} (h : y.more = []) : y.proceed.run = .run ∧ y.proceed.wait = .none := by
  simp only [Seq.proceed, h, and_self]

/-- Settles O36: each wait by its own end. -/
theorem waitsEnd : Obligations.WaitsEnd := by
  refine fun q s hr => ⟨fun o p sl ad t b hw h ht => barwaitReport_due hw (reportDue_eq_true hr h ht),
    fun loc v n c sl ad t b hw h ht => ⟨?_, ?_⟩, fun t hw ht => ?_, fun k hw hl hg => ?_, fun ch row lat sl ad hw h => ?_,
    fun hm => ⟨Seq.proceed, rfl, proceed_runs hm⟩⟩
  · exact congrArg (performs · s) ((waitvActs_due false hw (reportDue_eq_true hr h ht)).trans (List.append_nil _))
  · exact congrArg (performs · s) (waitvActs_due true hw (reportDue_eq_true hr h ht))
  · exact congrArg (performs · s) (twaitActs_due hr hw ht)
  · exact congrArg (performs · s) (trealignActs_due hr hw hl hg)
  · exact congrArg (performs · s) (chrecvActs_due hr hw h)

end Sys2Proof.Machine
end

section
/-! PROOFS. Vector operations that stand alone, by the shape of their operation (07 R155, R156). -/

namespace Sys2Proof.Machine

variable {s : State} {op : Nat} {l k : List Nat} {f : VR}

/-! The rows of the allotment (R25). -/

theorem Allotted.mono (h : Allotted s l) (hk : k ⊆ l) : Allotted s k := fun n hn => h n (hk hn)

theorem Allotted.append (hl : Allotted s l) (hk : Allotted s k) : Allotted s (l ++ k) := fun n hn =>
  (List.mem_append.mp hn).elim (hl n) (hk n)

/-- An operation of the V class that only a poisoned execution mask stops takes its effect. -/
theorem runSlot_masked {o : Op} {m : BitVec 4} {r : List (BitVec 9)} (h : Ready (atV s) m r s) (hr : Allotted s (o.rows (atV s) s))
    (hn : o.nres = 1) (hc : o.cause = fun x s => maskCause m.toNat x s) (hnx : o.next = fun _ _ => .seq) (hx : standing .v op s = atV s) :
    runSlot .v op o s = goesOn (atV s) (o.acts (atV s) s) s :=
  runSlot_alone (atV s) hx h.1 (le_of_eq hn) hr (by rw [hc]; exact maskCause_none h.2.1) rfl (by rw [hnx])

/-! Floating lane operations. -/

section Floating

variable {fm : FloatFormat} {bound : Nat}

theorem fOp2_gives {g : Rounding → Nat → Nat → Flagged} (h : Ready (atV s) f.m [f.d, f.a, f.b] s) (hx : standing .v op s = atV s := by rfl) :
    let a := (atV s).row s f.a.toNat fm.width 1
    let b := (atV s).row s f.b.toNat fm.width 2
    runSlot .v op (fOp2 fm f bound g) s = laneGives (atV s) s f.d f.m fm.width bound (f.nf = 1) fun i =>
      .of (a.lanePoison fm.width i || b.lanePoison fm.width i)
        (g (rounding (s.fmt s.cur.q) f.rm.toNat) (a.lane fm.width i) (b.lane fm.width i)) := by
  obtain ⟨hroom, hmask, hrows⟩ := h
  exact laneOp_alone hroom hmask hrows (fun i _ => by simp [vrRead, VIn.poison]; rfl) hx

theorem fOp3_gives {g : Rounding → Nat → Nat → Nat → Flagged} (h : Ready (atV s) f.m [f.d, f.a, f.b] s)
    (hx : standing .v op s = atV s := by rfl) :
    let a := (atV s).row s f.a.toNat fm.width 1
    let b := (atV s).row s f.b.toNat fm.width 2
    let d := (atV s).row s f.d.toNat fm.width 3
    runSlot .v op (fOp3 fm f bound g) s = laneGives (atV s) s f.d f.m fm.width bound (f.nf = 1) fun i =>
      .of (a.lanePoison fm.width i || b.lanePoison fm.width i || d.lanePoison fm.width i)
        (g (rounding (s.fmt s.cur.q) f.rm.toNat) (a.lane fm.width i) (b.lane fm.width i) (d.lane fm.width i)) := by
  obtain ⟨hroom, hmask, hrows⟩ := h
  exact laneOp_alone hroom hmask (hrows.mono (by simp [vrRows])) (fun i _ => by simp [vrRead, VIn.poison]; rfl) hx

/-- A bit operation gives what v says of each pattern of the lane's width. -/
theorem fOp1_gives (fm : FloatFormat) {g : Nat → Nat} (v : Nat → Nat) {lw : Nat} (h : Ready (atV s) f.m [f.d, f.a] s) (hw : fm.width = lw)
    (hv : ∀ a, a < 2 ^ lw → g a = v a) (hx : standing .v op s = atV s := by rfl) :
    let a := (atV s).row s f.a.toNat lw 1
    runSlot .v op (fOp1 fm f g) s = laneGives (atV s) s f.d f.m lw 2 true fun i => .of (a.lanePoison lw i) ⟨v (a.lane lw i), 0⟩ := by
  subst hw
  obtain ⟨hroom, hmask, hrows⟩ := h
  exact laneOp_alone hroom hmask hrows (fun i _ => by simp [vrRead, VIn.poison, hv _ lane_lt]) hx

/-- Clearing the sign bit of a format leaves the lower bits. -/
theorem clearSign_eq {n a : Nat} (hs : fm.signBit = 2 ^ n) : clearSign fm a = a % 2 ^ n := by rw [clearSign, hs]

/-- Inverting the sign bit of a format is adding its weight. -/
theorem invertSign_eq {n a : Nat} (hs : fm.signBit = 2 ^ n) (ha : a < 2 ^ (n + 1)) : invertSign fm a = (a + 2 ^ n) % 2 ^ (n + 1) := by
  rw [invertSign, hs]
  rw [Nat.pow_succ] at ha ⊢
  split
  · exact (Nat.mod_eq_of_lt (by omega)).symm
  · rw [show a + 2 ^ n = (a - 2 ^ n) + 2 ^ n * 2 by omega, Nat.add_mod_right, Nat.mod_eq_of_lt (by omega)]

end Floating

/-- Settles O5: each operation by its form; the sign operations by what they do to a pattern. -/
theorem vectorFloatResults : Obligations.VectorFloatResults := by
  refine ⟨fun f s h => ?_, fun f s h => ?_⟩
  · exact ⟨fOp2_gives h, fOp2_gives h, fOp2_gives h, fOp2_gives h, fOp2_gives h, fOp2_gives h, fOp2_gives h, fOp2_gives h, fOp2_gives h,
      fOp3_gives h, fOp3_gives h, fOp3_gives h, fOp3_gives h, fOp3_gives h, fOp3_gives h, fOp2_gives h, fOp2_gives h, fOp2_gives h,
      fOp2_gives h, fOp2_gives h, fOp2_gives h, fOp3_gives h, fOp3_gives h, fOp3_gives h⟩
  · exact ⟨fOp1_gives fp32 (fun v => v % 2 ^ 31) h rfl fun _ _ => clearSign_eq rfl, fOp1_gives bf16 (fun v => v % 2 ^ 15) h rfl fun _ _ => clearSign_eq rfl,
      fOp1_gives fp16 (fun v => v % 2 ^ 15) h rfl fun _ _ => clearSign_eq rfl,
      fOp1_gives fp32 (fun v => (v + 2 ^ 31) % 2 ^ 32) h rfl fun _ => invertSign_eq rfl,
      fOp1_gives bf16 (fun v => (v + 2 ^ 15) % 2 ^ 16) h rfl fun _ => invertSign_eq rfl,
      fOp1_gives fp16 (fun v => (v + 2 ^ 15) % 2 ^ 16) h rfl fun _ => invertSign_eq rfl⟩

end Sys2Proof.Machine
end

section
/-! PROOFS. Comparisons of lanes into a mask, and the integer and bit operations (07 R159 to R161). -/

namespace Sys2Proof.Machine

variable {s : State} {op lw n x y : Nat} {f : VR}

/-! Packed bits, and flags. -/

/-- Bit i of a packed list of bits. -/
theorem packBits_testBit {l : List Bool} {i : Nat} : (packBits l).testBit i = l.getD i false := by
  have h := packDigits_testBit (w := 1) (i := i) (j := 0) (l := l.map Bool.toNat) Nat.zero_lt_one
  rw [Nat.mul_one, Nat.add_zero] at h
  rw [packBits, h, List.getD_eq_getElem?_getD, List.getElem?_map, List.getD_eq_getElem?_getD]
  cases l[i]? with
  | none => rfl
  | some b => cases b <;> rfl

theorem packBits_replicate_false {k : Nat} : packBits (List.replicate k false) = 0 := by
  apply Nat.eq_of_testBit_eq
  intro i
  rw [packBits_testBit, List.getD_eq_getElem?_getD, List.getElem?_replicate, Nat.zero_testBit]
  split <;> rfl

/-- Lanes that raise nothing set no flag. -/
theorem flagSet_zero {nf : Bool} {l : List LaneFlags} (h : ∀ v ∈ l, v = 0) : flagSet nf l = {} := by
  have hz : ∀ k, (0 : LaneFlags).getLsbD k = false := fun _ => BitVec.getLsbD_zero
  rw [List.eq_replicate_of_mem h, flagSet]
  simp only [List.map_replicate, hz, packBits_replicate_false]
  cases nf <;> rfl

/-- Bit i of a mask built from L lanes: the lane's, and zero above them. -/
theorem ofNat_packBits_range {L i : Nat} {g : Nat → Bool} (hi : i < 1024) :
    (BitVec.ofNat 1024 (packBits ((List.range L).map g))).getLsbD i = (decide (i < L) && g i) := by
  rw [BitVec.getLsbD_ofNat, packBits_testBit, List.getD_eq_getElem?_getD, List.getElem?_map, decide_eq_true hi, Bool.true_and]
  by_cases h : i < L
  · rw [List.getElem?_range h, decide_eq_true h]; rfl
  · rw [List.getElem?_eq_none (by simpa using h), decide_eq_false h]; rfl

/-- The mask of a comparison is what ComparesTo asks (R20, R159). -/
theorem maskResult_comparesTo {L : Nat} {en : MaskBits} {old : MReg} {bit bad : Nat → Bool} :
    ComparesTo L en old bit bad (maskResult old L en bit bad).val (maskResult old L en bit bad).poison := by
  refine ⟨fun i hi => ofNat_packBits_range hi, ?_⟩
  simp [maskResult]

theorem cmpOp_gives {nf : Bool} {g : Nat → Nat → Bool × LaneFlags} (h : Ready (atV s) f.m [f.a, f.b] s) (hx : standing .v op s = atV s := by rfl) :
    let en := ((atV s).mask s f.m.toNat 0).val
    let d := f.d.toNat % 16
    let a := (atV s).row s f.a.toNat lw 1
    let b := (atV s).row s f.b.toNat lw 2
    let bad := fun i => a.lanePoison lw i || b.lanePoison lw i
    let r := fun i => g (a.lane lw i) (b.lane lw i)
    ∃ k p, runSlot .v op (cmpOp f lw nf g) s =
        gives (atV s) s (.mask d) (.mask k p) 2 (compareFlags nf (laneCount lw) en bad (fun i => (r i).2)) ∧
      ComparesTo (laneCount lw) en ((atV s).mask s d 4) (fun i => (r i).1) bad k p := by
  intro en d a b bad r
  refine ⟨_, _, ?_, maskResult_comparesTo⟩
  rw [runSlot_masked h h.2.2 rfl rfl rfl hx]
  simp only [cmpOp, vrRead, VIn.poison, if_true, Bool.true_and, Bool.false_and, Bool.or_false]
  rfl

/-- Settles O6: the floating comparisons by their form, the integer ones with no flag to suppress. -/
theorem vectorCompareResults : Obligations.VectorCompareResults := by
  intro f s h
  have quiet : ∀ {L : Nat} {en : MaskBits} {bad : Nat → Bool}, compareFlags true L en bad (fun _ => 0) = compareFlags (f.nf = 1) L en bad (fun _ => 0) := by
    intro L en bad
    rw [compareFlags, compareFlags, flagSet_zero (by simp), flagSet_zero (by simp)]
  refine ⟨cmpOp_gives h, cmpOp_gives h, cmpOp_gives h, ?_, ?_⟩
  · obtain ⟨k, p, hexec, hk⟩ := cmpOp_gives (lw := 32) (nf := true) (g := fun a b => (icond 32 f.aux.toNat a b, 0)) (op := 0x2D) h
    exact ⟨k, p, hexec.trans (by rw [quiet]), hk⟩
  · obtain ⟨k, p, hexec, hk⟩ := cmpOp_gives (lw := 16) (nf := true) (g := fun a b => (icond 16 f.aux.toNat a b, 0)) (op := 0x2E) h
    exact ⟨k, p, hexec.trans (by rw [quiet]), hk⟩

/-! Values reduced to the lane's width (R160). -/

theorem wrapTo_natCast : wrapTo lw (x : Int) = x % 2 ^ lw := by
  rw [wrapTo, ← Int.toNat_natCast (x % 2 ^ lw)]
  push_cast
  rfl

/-- A signed value is reduced as a machine word is. -/
theorem wrapTo_eq_toNat {z : Int} : wrapTo lw z = (BitVec.ofInt lw z).toNat := by
  rw [wrapTo, BitVec.toNat_ofInt]
  push_cast
  rfl

theorem wrapTo_signedOf : wrapTo lw (signedOf lw x) = x % 2 ^ lw := by
  rw [wrapTo_eq_toNat, signedOf, BitVec.ofInt_toInt, BitVec.toNat_ofNat]

theorem isub_mod (hy : y ≤ 2 ^ lw) : isub lw x y % 2 ^ lw = wrapTo lw ((x : Int) - y) := by
  rw [isub, ← wrapTo_natCast, wrapTo, wrapTo]
  push_cast [hy]
  rw [← Int.add_sub_assoc, Int.add_comm, Int.add_sub_assoc, Int.add_emod_left]

theorem imin_mod : imin lw x y % 2 ^ lw = wrapTo lw (min (signedOf lw x) (signedOf lw y)) := by
  rw [imin, min_def, ← signedOf, ← signedOf]
  split <;> rw [wrapTo_signedOf]

theorem imax_mod : imax lw x y % 2 ^ lw = wrapTo lw (max (signedOf lw x) (signedOf lw y)) := by
  rw [imax, max_def, ← signedOf, ← signedOf]
  split <;> rw [wrapTo_signedOf]

/-- An integer operation gives what v says of each pair of patterns. -/
theorem iOp_gives {g : Nat → Nat → Nat} (v : Nat → Nat → Nat) (h : Ready (atV s) f.m [f.d, f.a, f.b] s)
    (hv : ∀ x y, y < 2 ^ lw → g x y % 2 ^ lw = v x y) (hx : standing .v op s = atV s := by rfl) :
    let a := (atV s).row s f.a.toNat lw 1
    let b := (atV s).row s f.b.toNat lw 2
    runSlot .v op (iOp f lw g) s =
      laneGives (atV s) s f.d f.m lw 2 true fun i => .of (a.lanePoison lw i || b.lanePoison lw i) ⟨v (a.lane lw i) (b.lane lw i), 0⟩ := by
  obtain ⟨hroom, hmask, hrows⟩ := h
  exact laneOp_alone hroom hmask hrows (fun i _ => by simp [vrRead, VIn.poison, hv _ _ lane_lt]) hx

/-- Settles O7: each operation's value reduced to the lane's width. -/
theorem vectorIntegerResults : Obligations.VectorIntegerResults := fun f s h =>
  ⟨iOp_gives (fun x y => wrapTo 32 (x + y)) h fun _ _ _ => wrapTo_natCast.symm, iOp_gives (fun x y => wrapTo 16 (x + y)) h fun _ _ _ => wrapTo_natCast.symm,
    iOp_gives (fun x y => wrapTo 32 (x - y)) h fun _ _ hy => isub_mod hy.le, iOp_gives (fun x y => wrapTo 16 (x - y)) h fun _ _ hy => isub_mod hy.le,
    iOp_gives (fun x y => wrapTo 32 (x * y)) h fun _ _ _ => wrapTo_natCast.symm, iOp_gives (fun x y => wrapTo 16 (x * y)) h fun _ _ _ => wrapTo_natCast.symm,
    iOp_gives (fun x y => wrapTo 32 (min (signedOf 32 x) (signedOf 32 y))) h fun _ _ _ => imin_mod,
    iOp_gives (fun x y => wrapTo 16 (min (signedOf 16 x) (signedOf 16 y))) h fun _ _ _ => imin_mod,
    iOp_gives (fun x y => wrapTo 32 (max (signedOf 32 x) (signedOf 32 y))) h fun _ _ _ => imax_mod,
    iOp_gives (fun x y => wrapTo 16 (max (signedOf 16 x) (signedOf 16 y))) h fun _ _ _ => imax_mod⟩

/-! Bit operations in the shape of FMT.ACT (R161). -/

/-- What a shift to the right does to a signed pattern. -/
theorem sshiftRight_mod : ((BitVec.ofNat lw x).sshiftRight n).toNat % 2 ^ lw = wrapTo lw (signedOf lw x / 2 ^ n) := by
  rw [Nat.mod_eq_of_lt (BitVec.isLt _), wrapTo_eq_toNat, BitVec.sshiftRight, signedOf, Int.shiftRight_eq_div_pow]
  norm_cast

/-- A bit operation gives what it says of each pair of patterns, in any lane shape. -/
theorem bitOp_gives {g : Nat → Nat → Nat} (h : Ready (atV s) f.m [f.d, f.a, f.b] s) (hx : standing .v op s = atV s := by rfl) :
    let lw := actWidth (fmtAct (s.fmt s.cur.q))
    let a := (atV s).row s f.a.toNat lw 1
    let b := (atV s).row s f.b.toNat lw 2
    runSlot .v op (bitOp f g) s =
      laneGives (atV s) s f.d f.m lw 2 true fun i => .of (a.lanePoison lw i || b.lanePoison lw i) ⟨g (a.lane lw i) (b.lane lw i), 0⟩ := by
  obtain ⟨hroom, hmask, hrows⟩ := h
  exact actOp_alone hroom hmask hrows (.inl rfl) rfl (fun i _ => by simp [vrRead, VIn.poison]) hx

/-- A shift gives what v says of a pattern and the count, where FMT.ACT is not 2. -/
theorem shiftOp_gives {g : Nat → Nat → Nat → Nat} (v : Nat → Nat → Nat → Nat) (h : Ready (atV s) f.m [f.d, f.a, f.b] s)
    (ha : fmtAct (s.fmt s.cur.q) ≠ 2) (hv : ∀ lw x n, x < 2 ^ lw → g lw x n % 2 ^ lw = v lw x n) (hx : standing .v op s = atV s := by rfl) :
    let lw := actWidth (fmtAct (s.fmt s.cur.q))
    let a := (atV s).row s f.a.toNat lw 1
    let b := (atV s).row s f.b.toNat lw 2
    runSlot .v op (shiftOp f g) s = laneGives (atV s) s f.d f.m lw 2 true fun i =>
      .of (a.lanePoison lw i || b.lanePoison lw i) ⟨v lw (a.lane lw i) (b.lane lw i % lw), 0⟩ := by
  obtain ⟨hroom, hmask, hrows⟩ := h
  exact actOp_alone hroom hmask hrows (.inr ha) rfl (fun i _ => by simp [vrRead, VIn.poison, hv _ _ _ lane_lt]) hx

/-! Traps of vector operations (R91, R156). -/

/-- An operation of the V class that names rows of the allotment only is stopped by its own cause alone. -/
theorem unhindered_v {o : Op} (hs : Room s) (hr : Allotted s (o.rows (standing .v op s) s)) (hn : o.nres ≤ 1) (hnx : o.next = fun _ _ => .seq) :
    Unhindered .v op o s where
  settled := hs.1
  rows := hr
  pass := Bool.and_false _
  target := by rw [hnx]; rfl
  stays := by rw [hnx]; rfl
  room := .inr (by have := hs.2; omega)

/-- A shift under FMT.ACT = 2 is an illegal encoding. -/
theorem shiftOp_traps {g : Nat → Nat → Nat → Nat} (h : Ready (atV s) f.m [f.d, f.a, f.b] s) (ha : fmtAct (s.fmt s.cur.q) = 2) :
    runSlot .v op (shiftOp f g) s = traps s (atV s).slot 0x04 := by
  obtain ⟨hroom, hmask, hrows⟩ := h
  have hact : fmtAct (s.fmt (standing .v op s).q) = 2 := ha
  have hm : ((standing .v op s).mask s f.m.toNat 0).poison = false := hmask
  exact runSlot_traps (unhindered_v hroom hrows (le_refl _) rfl) (by simp [shiftOp, actOp, lowestCause, hact, hm]; rfl) (by decide) rfl

/-- Settles O8: the bitwise operations in any shape; the shifts by whether FMT.ACT is 2. -/
theorem vectorBitResults : Obligations.VectorBitResults := fun f s h =>
  ⟨bitOp_gives h, bitOp_gives h, bitOp_gives h,
    fun ha => shiftOp_gives (fun lw x n => x * 2 ^ n % 2 ^ lw) h ha fun _ _ _ _ => rfl,
    fun ha => shiftOp_gives (fun _ x n => x / 2 ^ n) h ha fun _ _ _ hx => Nat.mod_eq_of_lt ((Nat.div_le_self _ _).trans_lt hx),
    fun ha => shiftOp_gives (fun lw x n => wrapTo lw (signedOf lw x / 2 ^ n)) h ha fun _ _ _ _ => sshiftRight_mod,
    fun ha => ⟨shiftOp_traps h ha, shiftOp_traps h ha, shiftOp_traps h ha⟩⟩

end Sys2Proof.Machine
end

section
/-! PROOFS. Where lane operations trap: a row outside the allotment, a poisoned execution mask (02 R25, 04 R91, 07 R156). -/

namespace Sys2Proof.Machine

variable {c : SlotClass} {s : State} {op n q addr size : Nat} {o : Op}

/-- A slot without an operation names no row, so the operation's own slot is the first that leaves the allotment. -/
theorem allotmentSlot_lone_own (hn : n < 8)
    (h : ∃ v ∈ o.rows { q := q, slot := n, addr := addr, size := size } s, inAllotment s q v = false) :
    allotmentSlot s q addr size {} (loneSlot c op o n) = some n := by
  obtain ⟨v, hv, hout⟩ := h
  rw [allotmentSlot, List.find?_range_eq_some]
  simp only [targets_none, Bool.false_and, Bool.false_or, loneSlot_op hn, loneSlot_last hn]
  refine ⟨?_, List.mem_range.mpr hn, fun j hj => ?_⟩
  · rw [if_pos trivial, slotCtx_lone hn, List.any_eq_true]
    exact ⟨v, List.mem_append_left _ hv, by rw [hout]; rfl⟩
  · rw [if_neg (Nat.ne_of_lt hj)]
    rfl

/-- An operation alone that names a row outside the allotment traps with the allotment fault, whatever its own cause is (R91). -/
theorem runSlot_allotmentTrap (hs : Settled s) (h : ∃ v ∈ o.rows (standing c op s) s, inAllotment s s.cur.q v = false)
    (ho : o.onTrap = fun _ _ _ => []) : runSlot c op o s = traps s (slotFor c op s.cur.slot) cAllotment := by
  have hlt : slotFor c op s.cur.slot < 8 := slotFor_lt
  have hfault : issueFault s s.cur.q (s.seqOf s.cur.q).pc (sizeAt s s.cur.q) {} (loneSlot c op o (slotFor c op s.cur.slot)) =
      some (slotFor c op s.cur.slot, cAllotment) := by
    have hrep : repRefused {} (fun k => ((loneSlot c op o (slotFor c op s.cur.slot)).getD k {}).enc) = false := by
      simp [repRefused, targets_none]
    rw [issueFault, hrep, conflictSlot_lone hlt, allotmentSlot_lone_own hlt h]
    rfl
  have hop : ((loneSlot c op o (slotFor c op s.cur.slot)).getD (slotFor c op s.cur.slot) {}).op = o := by rw [loneSlot_op hlt, if_pos rfl]
  have hcode : cAllotment ≠ cIllegalStream := by decide
  rw [runSlot, done_eq, traps, issueActs, armLatches_of_settled hs]
  simp only [applyActs_nil, hfault, hop, ho, precise, if_neg hcode, List.nil_append]

/-- An instruction that issues alone in a V slot as an operation which names rows d, a and b alone and which a poisoned mask stops. -/
def LaneForm (f : VR) (i : Instr) : Prop := ∃ n o, (∀ s, exec i s = runSlot .v n o s) ∧ o.nres = 1 ∧ (o.next = fun _ _ => .seq) ∧
  (o.onTrap = fun _ _ _ => []) ∧ (∀ x s r, r ∈ o.rows x s ↔ r ∈ [f.d.toNat, f.a.toNat, f.b.toNat]) ∧
  ∀ x s, (x.mask s f.m.toNat 0).poison = true → o.cause x s = some cPoison

section Forms

variable {f : VR} {i : Instr}

theorem mem_vrRows {u : VUse} (hu : u.a = true ∧ u.b = true) {r : Nat} : r ∈ vrRows f u true ↔ r ∈ [f.d.toNat, f.a.toNat, f.b.toNat] := by
  cases hd : u.d <;> simp [vrRows, hu, hd]
  tauto

variable (hi : ∀ s, exec i s = runSlot .v n o s) (hn : o.nres = 1) (hnx : o.next = fun _ _ => .seq) (ht : o.onTrap = fun _ _ _ => [])
  (hr : ∃ u : VUse, (u.a = true ∧ u.b = true) ∧ o.rows = fun _ _ => vrRows f u true)

include hi hn hnx ht hr

theorem LaneForm.masked (hc : o.cause = fun x s => maskCause f.m.toNat x s) : LaneForm f i := by
  obtain ⟨u, hu, hrows⟩ := hr
  exact ⟨n, o, hi, hn, hnx, ht, fun _ _ _ => by rw [hrows]; exact mem_vrRows hu, fun x s hm => by simp [hc, maskCause, firstCause, hm]⟩

theorem LaneForm.shaped (hc : o.cause = fun x s =>
    lowestCause [(fmtAct (s.fmt x.q) = 2 && !true, cIllegalEncoding), ((x.mask s f.m.toNat 0).poison, cPoison)]) : LaneForm f i := by
  obtain ⟨u, hu, hrows⟩ := hr
  exact ⟨n, o, hi, hn, hnx, ht, fun _ _ _ => by rw [hrows]; exact mem_vrRows hu, fun x s hm => by simp [hc, lowestCause, hm]⟩

end Forms

/-- The allotment fault ranks above the poisoned mask (R91). -/
theorem LaneForm.traps {f : VR} {i : Instr} (h : LaneForm f i) (hs : Room s) :
    ((∃ r ∈ [f.d, f.a, f.b], inAllotment s s.cur.q r.toNat = false) → exec i s = traps s (atV s).slot 0x05) ∧
    (Allotted s [f.d.toNat, f.a.toNat, f.b.toNat] → ((atV s).mask s f.m.toNat 0).poison = true → exec i s = traps s (atV s).slot 0x07) := by
  obtain ⟨n, o, hrun, hres, hnext, htrap, hrows, hcause⟩ := h
  rw [hrun]
  refine ⟨fun ⟨r, hr, hout⟩ => ?_, fun hall hm => ?_⟩
  · exact runSlot_allotmentTrap hs.1 ⟨r.toNat, (hrows _ _ _).mpr (List.mem_map_of_mem (f := BitVec.toNat) hr), hout⟩ htrap
  · exact runSlot_traps (unhindered_v hs (fun r hr => hall r ((hrows _ _ _).mp hr)) (le_of_eq hres) hnext) (hcause _ _ hm) (by decide) (by rw [htrap])

/-- Settles O57: each operation of the list names rows d, a and b and is stopped by its mask. -/
theorem laneOperationTraps : Obligations.LaneOperationTraps := by
  intro f i s hs hi
  refine LaneForm.traps ?_ hs
  revert i
  simp only [List.forall_mem_cons]
  and_intros
  iterate 28 exact .masked (fun _ => rfl) rfl rfl rfl ⟨_, ⟨rfl, rfl⟩, rfl⟩ rfl -- VADD to VISUB
  iterate 3 exact .shaped (fun _ => rfl) rfl rfl rfl ⟨_, ⟨rfl, rfl⟩, rfl⟩ rfl -- VAND, VOR, VXOR
  iterate 2 exact .masked (fun _ => rfl) rfl rfl rfl ⟨_, ⟨rfl, rfl⟩, rfl⟩ rfl -- VFXADD, VFXSUB
  exact List.forall_mem_nil _

end Sys2Proof.Machine
end

section
/-! PROOFS. FX32 lanes, conversions, the three-term split, and the moves (07 R162 to R167). -/

namespace Sys2Proof.Machine

variable {s : State} {op : Nat} {f : VR}

/-- An operation of the V class whose rows are more than those Ready names. -/
theorem Ready.rows {x : Ctx} {m : BitVec 4} {r r' : List (BitVec 9)} (h : Ready x m r s) (hr : Allotted s (r'.map BitVec.toNat)) : Ready x m r' s :=
  ⟨h.1, h.2.1, hr⟩

/-! Conversions (R163 to R165). -/

section Conversions

variable {g : Rounding → Nat → Flagged} (h : Ready (atV s) f.m [f.d, f.a] s)

include h

theorem cvtOp_gives (hx : standing .v op s = atV s := by rfl) :
    let a := (atV s).row s f.a.toNat 32 1
    runSlot .v op (cvtOp f g) s = laneGives (atV s) s f.d f.m 32 3 (f.nf = 1) fun i =>
      .of (a.lanePoison 32 i) (g (rounding (s.fmt s.cur.q) f.rm.toNat) (a.lane 32 i)) := by
  obtain ⟨hroom, hmask, hrows⟩ := h
  exact laneOp_alone hroom hmask hrows (fun i _ => by simp [vrRead, VIn.poison]; rfl) hx

/-- A narrowing conversion's lanes stand in the half that aux[4] names. -/
theorem narrowOp_gives (hx : standing .v op s = atV s := by rfl) :
    let a := (atV s).row s f.a.toNat 32 1
    let outs := enabledLanes ((atV s).mask s f.m.toNat 0).val 512 512 fun i =>
      .of (a.lanePoison 32 i) (g (rounding (s.fmt s.cur.q) f.rm.toNat) (a.lane 32 i))
    runSlot .v op (narrowOp f g) s =
      gives (atV s) s (.rows f.d.toNat) (.rows [writeLanes 16 (inHalf (f.aux.toNat / 16) outs)]) 3 (outFlags (f.nf = 1) outs) :=
  runSlot_masked (o := narrowOp f g) h h.2.2 rfl rfl rfl hx

/-- A widening conversion reads the lanes of the half that aux[4] names. -/
theorem widenOp_gives (hx : standing .v op s = atV s := by rfl) :
    let a := (atV s).row s f.a.toNat 16 1
    let half := f.aux.toNat / 16
    runSlot .v op (widenOp f g) s = laneGives (atV s) s f.d f.m 32 3 (f.nf = 1) fun i =>
      .of (a.lanePoison 16 (512 * half + i)) (g (rounding (s.fmt s.cur.q) f.rm.toNat) (a.lane 16 (512 * half + i))) :=
  runSlot_masked (o := widenOp f g) h h.2.2 rfl rfl rfl hx

theorem vsplit3_gives (hd : Allotted s [f.d.toNat + 1, f.d.toNat + 2]) :
    let a := (atV s).row s f.a.toNat 32 1
    let part := fun (g : Nat × Nat × Nat × LaneFlags → Nat) => enabledLanes ((atV s).mask s f.m.toNat 0).val 512 512 fun i =>
      .of (a.lanePoison 32 i) ⟨g (split3 (a.lane 32 i)), (split3 (a.lane 32 i)).2.2.2⟩
    let row := fun g => writeLanes 16 (inHalf (f.aux.toNat / 16) (part g))
    exec (.vsplit3 f) s = gives (atV s) s (.rows f.d.toNat) (.rows [row (fun r => r.1), row (fun r => r.2.1), row (fun r => r.2.2.1)]) 3
      (outFlags (f.nf = 1) (part (fun r => r.1))) :=
  runSlot_masked (o := opVsplit3 f) h ((h.2.2.append hd).mono (by simp [opVsplit3])) rfl rfl rfl rfl

end Conversions

/-- Settles O9: each operation by its form. -/
theorem vectorConversionResults : Obligations.VectorConversionResults := fun f s h =>
  ⟨fun hb => have hr := h.rows (r' := [f.d, f.a, f.b]) (h.2.2.append hb); ⟨fxOp_alone hr, fxOp_alone hr⟩,
    cvtOp_gives h, cvtOp_gives h, cvtOp_gives h, cvtOp_gives h, narrowOp_gives h, narrowOp_gives h, narrowOp_gives h, widenOp_gives h,
    widenOp_gives h, widenOp_gives h, vsplit3_gives h⟩

/-! Moves (R166, R167). -/

theorem signExtend_toNat {w v : Nat} {x : BitVec w} : (x.signExtend v).toNat = wrapTo v x.toInt := by
  rw [wrapTo_eq_toNat, BitVec.signExtend]

theorem wrapTo_mod {w : Nat} {z : Int} : wrapTo w z % 2 ^ w = wrapTo w z := by
  rw [wrapTo_eq_toNat, Nat.mod_eq_of_lt (BitVec.isLt _)]

/-- The lane number plus a reduced value, reduced: that of the value itself. -/
theorem add_wrapTo_mod {w i : Nat} {z : Int} : (i + wrapTo w z) % 2 ^ w = wrapTo w (z + i) := by
  have hcast : ((wrapTo w z : Nat) : Int) = z % 2 ^ w := Int.toNat_of_nonneg (Int.emod_nonneg _ (by positivity))
  rw [← wrapTo_natCast, Int.natCast_add, hcast, wrapTo, wrapTo, Int.add_emod_emod, Int.add_comm]

/-- An operation on an immediate gives what v says of each lane number. -/
theorem viOp_gives {f : VI} {g : Nat → Nat} (v : Nat → Nat) (h : Ready (atV s) f.m [f.d] s) (hv : ∀ i, g i % 2 ^ 32 = v i)
    (hx : standing .v op s = atV s := by rfl) :
    runSlot .v op (viOp f g) s = laneGives (atV s) s f.d f.m 32 2 true (fun i => { bits := v i }) := by
  rw [runSlot_masked (o := viOp f g) h h.2.2 rfl rfl rfl hx]
  simp only [viOp, hv]
  rfl

/-- A broadcast scalar is sign-extended where the lane is wider than it, else cut to the lane (R166). -/
theorem vbcastScalar_gives (h : Ready (atV s) f.m [f.d] s) :
    let lw := actWidth (fmtAct (s.fmt s.cur.q))
    let u := (atV s).scalar s (f.a.toNat % 64) 4
    exec (.vbcastScalar f) s = laneGives (atV s) s f.d f.m lw 4 true (fun _ =>
      { bits := if lw = 128 then wrapTo 128 u.val.toInt else u.val.toNat % 2 ^ lw : LaneOut }.taint u.poison) := by
  obtain ⟨hroom, hmask, hrows⟩ := h
  exact moveOp_alone hroom hmask hrows rfl fun i _ => by rw [signExtend_toNat]; rfl

/-- VEXTR reads its lane, or the half of it that aux[0] names under ACT = 2. -/
theorem vextr_gives (hs : Room s) (hr : Allotted s [f.a.toNat]) (hc : fmtAct (s.fmt s.cur.q) = 2 ∨ f.aux.toNat % 2 = 0) :
    let lw := actWidth (fmtAct (s.fmt s.cur.q))
    let a := (atV s).row s f.a.toNat lw 1
    let v := (atV s).scalar s (f.b.toNat % 64) 4
    let i := v.val.toNat % laneCount lw
    exec (.vextr f) s = goesOn (atV s) [scalarResult (atV s) s (f.d.toNat % 64) (v.poison || a.lanePoison lw i)
      (BitVec.ofNat 64 (if lw = 128 then a.lane lw i / 2 ^ (64 * (f.aux.toNat % 2)) else a.lane lw i)) 4 true 0] s := by
  refine runSlot_alone (o := opVextr f) (atV s) rfl hs (le_refl _) hr ?_ rfl rfl
  have hact : fmtAct (s.fmt (atV s).q) = 2 ∨ f.aux.toNat % 2 = 0 := hc
  obtain hact | hact := hact <;> simp [opVextr, firstCause, hact]

/-- Outside ACT = 2 a lane has no upper half for VEXTR to read (R167). -/
theorem vextr_traps (hs : Room s) (hr : Allotted s [f.a.toNat]) (ha : fmtAct (s.fmt s.cur.q) ≠ 2) (hh : f.aux.toNat % 2 = 1) :
    exec (.vextr f) s = traps s (atV s).slot 0x04 := by
  have hact : fmtAct (s.fmt (standing .v 0x3E s).q) ≠ 2 := ha
  exact runSlot_traps (o := opVextr f) (unhindered_v hs hr (le_refl _) rfl) (by simp [opVextr, firstCause, hact, hh]; rfl) (by decide) rfl

theorem actWidth_eq_128 {act : Nat} : actWidth act = 128 ↔ act = 2 := by
  rw [actWidth]
  split
  · omega
  · split <;> simp [*]

/-- Settles O10: the moves that read no row, row a, or rows a and b; VEXTR by the lane shape; the immediates. -/
theorem vectorMoveResults : Obligations.VectorMoveResults := by
  refine ⟨fun f s h => ⟨vbcastScalar_gives h, fun ha => ?_, fun hab => ?_⟩, fun f s hs hr => ?_, fun f s h => ?_⟩
  · have hrows := h.2.2.append ha
    exact ⟨actOp_alone h.1 h.2.1 hrows (.inl rfl) rfl fun _ _ => rfl, moveOp_alone h.1 h.2.1 hrows rfl fun _ _ => rfl,
      moveOp_alone h.1 h.2.1 hrows rfl fun i _ => by simp only [Bool.and_eq_true, decide_eq_true_eq]; rfl⟩
  · have hrows := h.2.2.append hab
    exact ⟨moveOp_alone h.1 h.2.1 hrows rfl fun _ _ => rfl, moveOp_alone h.1 h.2.1 hrows rfl fun _ _ => rfl⟩
  · refine ⟨fun hc => ?_, fun ha hh => vextr_traps hs hr ha hh⟩
    rw [vextr_gives hs hr hc]
    simp only [actWidth_eq_128]
    rfl
  · exact ⟨viOp_gives (fun _ => wrapTo 32 f.imm23.toInt) h fun _ => by rw [signExtend_toNat, wrapTo_mod],
      viOp_gives (fun i => wrapTo 32 (f.imm23.toInt + i)) h fun _ => by rw [signExtend_toNat, add_wrapTo_mod]⟩

end Sys2Proof.Machine
end

section
/-! PROOFS. Sums over the lanes of a row: the fixed tree and the exact sum (03 R48 to R50, R66, 07 R168, R169). -/

namespace Sys2Proof.Machine

variable {s : State} {op bound lw : Nat} {f : VR}

/-! The tree of R66. -/

section Tree

variable {α : Type} {g : α → α → α}

/-- One level of the tree combines neighbours. -/
theorem pairUp_range (h : Nat → α) (n : Nat) :
    pairUp g ((List.range (2 * n)).map h) = (List.range n).map (fun j => g (h (2 * j)) (h (2 * j + 1))) := by
  induction n generalizing h with
  | zero => rfl
  | succ n ih =>
    rw [show 2 * (n + 1) = 2 * n + 1 + 1 by omega, List.range_succ_eq_map, List.range_succ_eq_map, List.range_succ_eq_map (n := n)]
    simp only [List.map_cons, List.map_map, pairUp]
    exact congrArg _ (ih _)

/-- A tree of m levels over the nodes of a level ends in the node at the top. -/
theorem tree_levels {node : Nat → Nat → α} {N m : Nat}
    (hnode : ∀ k j, k < N → j < 2 ^ (N - 1 - k) → node (k + 1) j = g (node k (2 * j)) (node k (2 * j + 1))) (hm : m ≤ N) :
    tree g m ((List.range (2 ^ m)).map (node (N - m))) = [node N 0] := by
  induction m with
  | zero => rfl
  | succ m ih =>
    rw [← ih (by omega), tree, Nat.pow_succ', pairUp_range]
    refine congrArg _ (List.map_congr_left fun j hj => ?_)
    have hk := hnode (N - (m + 1)) j (by omega) (by rw [show N - 1 - (N - (m + 1)) = m by omega]; exact List.mem_range.mp hj)
    rw [← hk, show N - (m + 1) + 1 = N - m by omega]

end Tree

/-! Horizontal operations (R157). -/

theorem anyPoison_eq_true {m : MaskBits} {r : Row} :
    anyPoison m r lw = true ↔ ∃ i, Enabled m (laneCount lw) i ∧ r.lanePoison lw i = true := by
  simp [anyPoison, Enabled, and_assoc]

theorem anyPoison_eq_false {m : MaskBits} {r : Row} :
    anyPoison m r lw = false ↔ ∀ i, Enabled m (laneCount lw) i → r.lanePoison lw i = false := by
  simp [anyPoison, Enabled]

theorem anyPoison_eq_any {m : MaskBits} {r : Row} :
    anyPoison m r lw = ((List.range (laneCount lw)).filter (fun i => m.getLsbD i)).any (fun i => r.lanePoison lw i) := by
  rw [anyPoison, List.any_filter]

/-- A horizontal operation gives row d whole. -/
theorem horizontal_gives {g : VIn → RowWrite × FlagSet} {w : RowWrite × FlagSet} (h : Ready (atV s) f.m [f.d, f.a] s)
    (hg : g (vrRead f { b := false } (atV s) s lw) = w) (hx : standing .v op s = atV s := by rfl) :
    runSlot .v op (horizontal f bound lw g) s = rowGives s f.d w.1 bound (f.nf = 1) w.2 := by
  subst hg
  rw [runSlot_masked h h.2.2 rfl rfl rfl hx]
  simp only [rowGives, decide_eq_true_eq]
  rfl

/-! VSUMO (R168). -/

/-- The tree over the present lanes ends in the node at the top of its nine levels. -/
theorem tree_presentLanes {m : MaskBits} {r : Row} {rm : Rounding} {node : Nat → Nat → Option Flagged}
    (h0 : ∀ j, j < 512 → node 0 j = if m.getLsbD j then some ⟨r.lane 32 j, 0⟩ else none)
    (hnode : ∀ k j, k < 9 → j < 2 ^ (8 - k) → node (k + 1) j = sumNode rm (node k (2 * j)) (node k (2 * j + 1))) :
    tree (sumNode rm) 9 ((presentLanes m r 32).map (fun o => o.map (fun b => (⟨b, 0⟩ : Flagged)))) = [node 9 0] := by
  have hleaves : (presentLanes m r 32).map (fun o => o.map (fun b => (⟨b, 0⟩ : Flagged))) = (List.range (2 ^ 9)).map (node 0) := by
    rw [presentLanes, List.map_map]
    refine List.map_congr_left fun j hj => ?_
    rw [h0 j (List.mem_range.mp hj), Function.comp_apply]
    split <;> rfl
  rw [hleaves]
  exact tree_levels (N := 9) (m := 9) hnode (le_refl _)

/-- VSUMO gives the node at the top of the tree, unless an enabled lane is poisoned. -/
theorem vsumo_gives (h : Ready (atV s) f.m [f.d, f.a] s) {node : Nat → Nat → Option Flagged}
    (h0 : ∀ j, j < 512 → node 0 j = if ((atV s).mask s f.m.toNat 0).val.getLsbD j then some ⟨((atV s).row s f.a.toNat 32 1).lane 32 j, 0⟩ else none)
    (hnode : ∀ k j, k < 9 → j < 2 ^ (8 - k) →
      node (k + 1) j = sumNode (rounding (s.fmt s.cur.q) f.rm.toNat) (node k (2 * j)) (node k (2 * j + 1))) :
    let w := if anyPoison ((atV s).mask s f.m.toNat 0).val ((atV s).row s f.a.toNat 32 1) 32 then (headLanes 32 [.poisoned], {})
      else (headLanes 32 [{ bits := ((node 9 0).getD ⟨0, 0⟩).bits }], laneZeroFlags false ((node 9 0).getD ⟨0, 0⟩).flags)
    exec (.vsumo f) s = rowGives s f.d w.1 12 (f.nf = 1) w.2 := by
  have htree := tree_presentLanes (m := (vrRead f { b := false } (atV s) s 32).m.val) (r := (vrRead f { b := false } (atV s) s 32).a)
    (rm := rounding (vrRead f { b := false } (atV s) s 32).fmt f.rm.toNat) h0 hnode
  refine horizontal_gives h ?_
  simp only [htree]
  rfl

/-! VSUMX (R169). -/

/-- The exact sum of listed lanes, and the flags that their conversions raise. -/
theorem foldr_exact {anchor : Int} {en bad : Nat → Bool} {lane : Nat → Nat} (l : List Nat) :
    l.foldr (fun i (acc : Xa × List LaneFlags) =>
      if en i then ((xaOfF32 anchor (lane i)).1.add acc.1, (if bad i then 0 else (xaOfF32 anchor (lane i)).2) :: acc.2)
      else (acc.1, 0 :: acc.2)) ({}, []) =
    let terms := (l.filter en).map (fun i => (xaOfF32 anchor (lane i)).1)
    (⟨(terms.map Xa.n).sum, terms.any Xa.p, terms.any Xa.q⟩, l.map (fun i => if en i && !bad i then (xaOfF32 anchor (lane i)).2 else 0)) := by
  induction l with
  | nil => rfl
  | cons i l ih =>
    rw [List.foldr_cons, ih]
    by_cases he : en i
    · cases hb : bad i <;> simp [he, hb, Xa.add]
    · simp [he]

/-- The flags of lane 0 joined with those of the result. -/
theorem mapIdx_range_flags {n : Nat} {own : Nat → LaneFlags} {fl : LaneFlags} :
    ((List.range n).map own).mapIdx (fun i x => if i = 0 then x ||| fl else x) =
      (List.range n).map (fun i => if i = 0 then own i ||| fl else own i) := by
  apply List.ext_getElem <;> simp

/-- What VSUMX reads, summed: the terms of the enabled lanes, and the flags of those not poisoned. -/
theorem exactSum_eq {v : VIn} :
    let terms := ((List.range 512).filter (fun i => v.m.val.getLsbD i)).map (fun i => (xaOfF32 (fmtAnchor v.fmt) (v.a.lane 32 i)).1)
    exactSum v = (⟨(terms.map Xa.n).sum, terms.any Xa.p, terms.any Xa.q⟩,
      (List.range 512).map (fun i => if v.m.val.getLsbD i && !v.a.lanePoison 32 i then (xaOfF32 (fmtAnchor v.fmt) (v.a.lane 32 i)).2 else 0)) :=
  foldr_exact (List.range 512)

/-- Settles O11: the tree's levels, and the exact sum of the enabled lanes. -/
theorem sumResults : Obligations.SumResults := by
  constructor
  · intro f s h a en rm node h0 hnode top
    refine ⟨fun hbad => ?_, fun hgood => ?_⟩
    · rw [vsumo_gives h h0 hnode, if_pos (anyPoison_eq_true.mpr hbad)]
    · rw [vsumo_gives h h0 hnode, if_neg (Bool.eq_false_iff.mp (anyPoison_eq_false.mpr hgood))]
  · intro f s h a en anchor lanes terms sum bad own narrow
    have hsum : exactSum (vrRead f { b := false } (atV s) s 32) = (sum, (List.range 512).map own) := exactSum_eq
    have hbad : anyPoison (vrRead f { b := false } (atV s) s 32).m.val (vrRead f { b := false } (atV s) s 32).a 32 = bad := anyPoison_eq_any
    constructor
    · refine horizontal_gives (w := (headLanes 128 [if bad then .poisoned else { bits := sum.n.toNat, p := sum.p, q := sum.q }],
        flagSet false ((List.range 512).map own))) h ?_
      rw [hsum, hbad]
    · refine horizontal_gives (w := (headLanes 32 [if bad then .poisoned else { bits := narrow.bits }],
        flagSet false ((List.range 512).map (fun i => if i = 0 then own i ||| (if bad then 0 else narrow.flags) else own i)))) h ?_
      have hnarrow : sum.toF32 (fmtAnchor (vrRead f { b := false } (atV s) s 32).fmt)
        (rounding (vrRead f { b := false } (atV s) s 32).fmt f.rm.toNat) = narrow := rfl
      simp only [hsum, hbad, hnarrow, mapIdx_range_flags]

end Sys2Proof.Machine
end

section
/-! PROOFS. The extreme lane of a row (07 R170). -/

namespace Sys2Proof.Machine

variable {s : State} {op : Nat} {f : VR}

/-! The first lane of the greatest key. -/

theorem extreme_concat {l : List (Nat × Int)} {e : Nat × Int} :
    extreme (l ++ [e]) = match extreme l with | none => some e | some b => if b.2 < e.2 then some e else some b := by
  rw [extreme, List.foldl_append, ← extreme, List.foldl_cons, List.foldl_nil]
  cases extreme l <;> rfl

theorem extreme_mem {l : List (Nat × Int)} {b : Nat × Int} (h : extreme l = some b) : b ∈ l := by
  induction l using List.reverseRecOn generalizing b with
  | nil => exact absurd h (by simp [extreme])
  | append_singleton l e ih =>
    rw [extreme_concat] at h
    rw [List.mem_append, List.mem_singleton]
    split at h
    · exact .inr (Option.some.inj h).symm
    · next b' hb =>
      split at h
      · exact .inr (Option.some.inj h).symm
      · exact .inl (ih (hb.trans h))

/-- The lanes below n that a condition picks, with their keys. -/
def keyedLanes (en : Nat → Bool) (key : Nat → Int) (n : Nat) : List (Nat × Int) := ((List.range n).filter en).map (fun i => (i, key i))

theorem mem_keyedLanes {en : Nat → Bool} {key : Nat → Int} {n : Nat} {b : Nat × Int} (h : b ∈ keyedLanes en key n) :
    b.1 < n ∧ en b.1 = true ∧ b.2 = key b.1 := by
  obtain ⟨i, hi, rfl⟩ := List.mem_map.mp h
  obtain ⟨hlt, hen⟩ := List.mem_filter.mp hi
  exact ⟨List.mem_range.mp hlt, hen, rfl⟩

theorem keyedLanes_succ {en : Nat → Bool} {key : Nat → Int} {n : Nat} :
    keyedLanes en key (n + 1) = keyedLanes en key n ++ if en n then [(n, key n)] else [] := by
  rw [keyedLanes, keyedLanes, List.range_succ, List.filter_append, List.map_append]
  cases h : en n <;> simp [h]

/-- The lane that exceeds every earlier one and that no lane exceeds is the extreme one. -/
theorem extreme_keyedLanes {en : Nat → Bool} {key : Nat → Int} {n i : Nat} (hi : i < n) (hen : en i = true)
    (hbefore : ∀ j, j < n → en j = true → j < i → key j < key i) (hmost : ∀ j, j < n → en j = true → ¬ key i < key j) :
    extreme (keyedLanes en key n) = some (i, key i) := by
  induction n with
  | zero => exact absurd hi (Nat.not_lt_zero _)
  | succ n ih =>
    rw [keyedLanes_succ]
    obtain hlt | rfl := Nat.lt_succ_iff_lt_or_eq.mp hi
    · have hprev := ih hlt (fun j hj => hbefore j (by omega)) (fun j hj => hmost j (by omega))
      cases hn : en n with
      | false => simpa using hprev
      | true => rw [if_pos rfl, extreme_concat, hprev]; exact if_neg (hmost n (by omega) hn)
    · rw [if_pos hen, extreme_concat]
      split
      · rfl
      · next b hb =>
        obtain ⟨hlt, henb, hkey⟩ := mem_keyedLanes (extreme_mem hb)
        exact if_pos (hkey ▸ hbefore b.1 (by omega) henb hlt)

/-! The row that VMAXR and VMINR write. -/

section Row

variable (wantMax : Bool) (isFloat index : Prop) [Decidable isFloat] [Decidable index] (fm : FloatFormat) (lw : Nat)

/-- R170's order of two lanes' patterns: of their float or of their signed values. -/
def laneOrder (v : Nat) : Int := if isFloat then fm.key v else signedOf lw v

/-- The key by which maxOp searches: the order of the lanes, inverted for the least. -/
def searchKey (v : Nat) : Int := if wantMax then laneOrder isFloat fm lw v else -laneOrder isFloat fm lw v

/-- The row and the flags of maxOp, by its type, its lane width and whether it gives the index. -/
def extremeRow (v : VIn) : RowWrite × FlagSet :=
  let lanes := (List.range (laneCount lw)).filter (fun i => v.m.val.getLsbD i)
  let put := fun (o i : LaneOut) => headLanes lw (o :: if index then [i] else [])
  if lanes.any (fun i => v.a.lanePoison lw i) then (put .poisoned .poisoned, {})
  else
    match if isFloat then lanes.find? (fun i => (fm.value (v.a.lane lw i)).isNaN) else none with
    | some i =>
      (put { bits := fm.nan } { bits := i },
        laneZeroFlags false (if lanes.any (fun j => (fm.value (v.a.lane lw j)).isSignalling && j = i) then flIV else 0))
    | none =>
      match extreme (keyedLanes (fun i => v.m.val.getLsbD i) (fun i => searchKey wantMax isFloat fm lw (v.a.lane lw i)) (laneCount lw)) with
      | some e => (put { bits := v.a.lane lw e.1 } { bits := e.1 }, {})
      | none =>
        (put { bits := if isFloat then fm.inf wantMax else if wantMax then 2 ^ (lw - 1) else 2 ^ (lw - 1) - 1 } { bits := 2 ^ lw - 1 }, {})

variable {wantMax isFloat index fm lw}

theorem mem_enabled {m : MaskBits} {n i : Nat} : i ∈ (List.range n).filter (fun i => m.getLsbD i) ↔ Enabled m n i := by
  rw [List.mem_filter, List.mem_range, Enabled]

theorem extremeRow_poisoned {v : VIn} (h : ∃ i, Enabled v.m.val (laneCount lw) i ∧ v.a.lanePoison lw i = true) :
    extremeRow wantMax isFloat index fm lw v = (headLanes lw (.poisoned :: if index then [.poisoned] else []), {}) := by
  obtain ⟨i, hi, hbad⟩ := h
  exact if_pos (List.any_eq_true.mpr ⟨i, mem_enabled.mpr hi, hbad⟩)

section Good

variable {v : VIn} (hgood : ∀ i, Enabled v.m.val (laneCount lw) i → v.a.lanePoison lw i = false)

include hgood

theorem not_any_lanePoison : ¬ ((List.range (laneCount lw)).filter (fun i => v.m.val.getLsbD i)).any (fun i => v.a.lanePoison lw i) = true := by
  rw [List.any_eq_true]
  rintro ⟨i, hi, hbad⟩
  exact absurd hbad (by rw [hgood i (mem_enabled.mp hi)]; decide)

/-- The lowest enabled NaN gives the default NaN, with IV when it is signalling. -/
theorem extremeRow_nan {i : Nat} (hf : isFloat) (hi : Enabled v.m.val (laneCount lw) i) (hnan : (fm.value (v.a.lane lw i)).isNaN = true)
    (hfirst : ∀ j, Enabled v.m.val (laneCount lw) j → j < i → (fm.value (v.a.lane lw j)).isNaN = false) :
    extremeRow wantMax isFloat index fm lw v = (headLanes lw ({ bits := fm.nan } :: if index then [{ bits := i }] else []),
      laneZeroFlags false (if (fm.value (v.a.lane lw i)).isSignalling then flIV else 0)) := by
  have hfind : ((List.range (laneCount lw)).filter (fun i => v.m.val.getLsbD i)).find? (fun i => (fm.value (v.a.lane lw i)).isNaN) = some i := by
    rw [List.find?_filter, List.find?_range_eq_some]
    refine ⟨by simp [hi.2, hnan], List.mem_range.mpr hi.1, fun j hj => ?_⟩
    cases hen : v.m.val.getLsbD j with
    | false => rfl
    | true => simp [hfirst j ⟨hj.trans hi.1, hen⟩ hj]
  have hsig : (((List.range (laneCount lw)).filter (fun i => v.m.val.getLsbD i)).any
      fun j => (fm.value (v.a.lane lw j)).isSignalling && decide (j = i)) = (fm.value (v.a.lane lw i)).isSignalling := by
    rw [Bool.eq_iff_iff, List.any_eq_true]
    simp only [Bool.and_eq_true, decide_eq_true_eq]
    exact ⟨fun ⟨j, _, hp, hj⟩ => hj ▸ hp, fun hp => ⟨i, mem_enabled.mpr hi, hp, rfl⟩⟩
  rw [extremeRow]
  simp only [if_neg (not_any_lanePoison hgood), if_pos hf, hfind, hsig]

/-- With no NaN among the enabled lanes the search is by their order. -/
theorem extremeRow_ordered (hnum : isFloat → ∀ j, Enabled v.m.val (laneCount lw) j → (fm.value (v.a.lane lw j)).isNaN = false) :
    extremeRow wantMax isFloat index fm lw v =
      match extreme (keyedLanes (fun i => v.m.val.getLsbD i) (fun i => searchKey wantMax isFloat fm lw (v.a.lane lw i)) (laneCount lw)) with
      | some e => (headLanes lw ({ bits := v.a.lane lw e.1 } :: if index then [{ bits := e.1 }] else []), {})
      | none => (headLanes lw ({ bits := if isFloat then fm.inf wantMax else if wantMax then 2 ^ (lw - 1) else 2 ^ (lw - 1) - 1 } ::
          if index then [{ bits := 2 ^ lw - 1 }] else []), {}) := by
  have hfind : (if isFloat then ((List.range (laneCount lw)).filter (fun i => v.m.val.getLsbD i)).find? (fun i => (fm.value (v.a.lane lw i)).isNaN)
      else none) = none := by
    split
    · next hf => exact List.find?_eq_none.mpr fun j hj => by simp [hnum hf j (mem_enabled.mp hj)]
    · rfl
  rw [extremeRow]
  simp only [if_neg (not_any_lanePoison hgood), hfind]

end Good

/-- The search for the greatest finds the first lane that exceeds the earlier ones and that none exceeds; for the least, that lies below them. -/
theorem extreme_searchKey {m : MaskBits} {r : Row} {i : Nat} {before : Int → Int → Prop} (hb : ∀ x y, before x y ↔ if wantMax then y < x else x < y)
    (hi : Enabled m (laneCount lw) i)
    (hfirst : ∀ j, Enabled m (laneCount lw) j → j < i → before (laneOrder isFloat fm lw (r.lane lw i)) (laneOrder isFloat fm lw (r.lane lw j)))
    (hmost : ∀ j, Enabled m (laneCount lw) j → ¬ before (laneOrder isFloat fm lw (r.lane lw j)) (laneOrder isFloat fm lw (r.lane lw i))) :
    extreme (keyedLanes (fun i => m.getLsbD i) (fun i => searchKey wantMax isFloat fm lw (r.lane lw i)) (laneCount lw)) =
      some (i, searchKey wantMax isFloat fm lw (r.lane lw i)) := by
  have hkey : ∀ x y, searchKey wantMax isFloat fm lw y < searchKey wantMax isFloat fm lw x ↔
      before (laneOrder isFloat fm lw x) (laneOrder isFloat fm lw y) := by
    intro x y
    rw [hb, searchKey, searchKey]
    cases wantMax <;> simp
  exact extreme_keyedLanes hi.1 hi.2 (fun j hj hen hlt => (hkey _ _).mpr (hfirst j ⟨hj, hen⟩ hlt))
    (fun j hj hen hlt => hmost j ⟨hj, hen⟩ ((hkey _ _).mp hlt))

/-- With no lane enabled the search finds none. -/
theorem extreme_keyedLanes_none {en : Nat → Bool} {key : Nat → Int} {n : Nat} (h : ∀ i, i < n → en i = false) :
    extreme (keyedLanes en key n) = none := by
  have hnil : (List.range n).filter en = [] := List.filter_eq_nil_iff.mpr fun i hi => by simp [h i (List.mem_range.mp hi)]
  rw [keyedLanes, hnil]
  rfl

theorem laneZeroFlags_zero {nf : Bool} : laneZeroFlags nf 0 = {} := flagSet_zero (by simp)

theorem laneZeroFlags_eq_ite {nf : Bool} {fl : LaneFlags} : laneZeroFlags nf fl = if fl = 0 then {} else laneZeroFlags nf fl := by
  split
  · next h => rw [h, laneZeroFlags_zero]
  · rfl

/-- What R170 says of an outcome that gives the row and the flags of extremeRow. -/
theorem extremeRow_results {v : VIn} {o : Host.Outcome State Fault Refusal} {give : RowWrite → FlagSet → Host.Outcome State Fault Refusal}
    {before : Int → Int → Prop} {ends : Nat} (hb : ∀ x y, before x y ↔ if wantMax then y < x else x < y)
    (hends : ends = if isFloat then fm.inf wantMax else if wantMax then 2 ^ (lw - 1) else 2 ^ (lw - 1) - 1)
    (ho : ∀ w, extremeRow wantMax isFloat index fm lw v = w → o = give w.1 w.2) :
    let en := Enabled v.m.val (laneCount lw)
    let order := laneOrder isFloat fm lw
    let put := fun (x i : LaneOut) (fl : LaneFlags) => give (headLanes lw (x :: if index then [i] else [])) (if fl = 0 then {} else laneZeroFlags false fl)
    ((∃ i, en i ∧ v.a.lanePoison lw i = true) → o = put .poisoned .poisoned 0) ∧
    ((∀ i, en i → v.a.lanePoison lw i = false) →
      (∀ i, isFloat → en i → (fm.value (v.a.lane lw i)).isNaN = true → (∀ j, en j → j < i → (fm.value (v.a.lane lw j)).isNaN = false) →
        o = put { bits := fm.nan } { bits := i } (if (fm.value (v.a.lane lw i)).isSignalling then flIV else 0)) ∧
      (∀ i, (isFloat → ∀ j, en j → (fm.value (v.a.lane lw j)).isNaN = false) → en i →
        (∀ j, en j → j < i → before (order (v.a.lane lw i)) (order (v.a.lane lw j))) →
        (∀ j, en j → ¬ before (order (v.a.lane lw j)) (order (v.a.lane lw i))) → o = put { bits := v.a.lane lw i } { bits := i } 0) ∧
      ((∀ i, ¬ en i) → o = put { bits := ends } { bits := 2 ^ lw - 1 } 0)) := by
  intro en order put
  subst hends
  refine ⟨fun hbad => ho _ (extremeRow_poisoned hbad),
    fun hgood => ⟨fun i hf hi hnan hfirst => ?_, fun i hnum hi hfirst hmost => ?_, fun hempty => ?_⟩⟩
  · rw [ho _ (extremeRow_nan hgood hf hi hnan hfirst), laneZeroFlags_eq_ite]
  · refine ho (headLanes lw ({ bits := v.a.lane lw i } :: if index then [{ bits := i }] else []), {}) ?_
    rw [extremeRow_ordered hgood hnum, extreme_searchKey hb hi hfirst hmost]
  · refine ho (headLanes lw (_ :: if index then [{ bits := 2 ^ lw - 1 }] else []), {}) ?_
    rw [extremeRow_ordered hgood fun _ j hj => absurd hj (hempty j),
      extreme_keyedLanes_none fun i hi => Bool.eq_false_iff.mpr fun hen => hempty i ⟨hi, hen⟩]

end Row

/-- VMAXR and VMINR give the row and the flags of extremeRow. -/
theorem maxOp_gives {wantMax : Bool} (h : Ready (atV s) f.m [f.d, f.a] s) (hx : standing .v op s = atV s) :
    let ty := f.aux.toNat % 4
    let lw := if ty < 2 then 32 else 16
    ∀ w, extremeRow wantMax (ty % 2 = 0) (f.aux.toNat / 4 % 2 = 1) (if ty = 0 then fp32 else bf16) lw (vrRead f { b := false } (atV s) s lw) = w →
      runSlot .v op (maxOp f wantMax) s = rowGives s f.d w.1 8 (f.nf = 1) w.2 := by
  intro ty lw w hw
  have hop : maxOp f wantMax =
    horizontal f 8 lw (extremeRow wantMax (ty % 2 = 0) (f.aux.toNat / 4 % 2 = 1) (if ty = 0 then fp32 else bf16) lw) := rfl
  rw [hop]
  exact horizontal_gives h hw hx

/-- Settles O12: the greatest and the least are the two searches of one operation. -/
theorem extremeLaneResults : Obligations.ExtremeLaneResults := by
  intro f s h ty lw fm isFloat a en order put result
  have hmax := extremeRow_results (before := fun x y => y < x) (give := fun w fl => rowGives s f.d w 8 (f.nf = 1) fl) (fun _ _ => Iff.rfl)
    (if_congr Iff.rfl rfl (if_pos rfl).symm) (maxOp_gives (op := 0x44) (wantMax := true) h rfl)
  have hmin := extremeRow_results (before := fun x y => x < y) (give := fun w fl => rowGives s f.d w 8 (f.nf = 1) fl) (fun _ _ => by simp)
    (if_congr Iff.rfl rfl (if_neg Bool.false_ne_true).symm) (maxOp_gives (op := 0x45) (wantMax := false) h rfl)
  exact ⟨hmax, hmin⟩

end Sys2Proof.Machine
end

section
/-! PROOFS. Statistics triples and exact lanes (03 R47 to R50, R63 to R67, 07 R171 to R173). -/

namespace Sys2Proof.Machine

variable {s : State} {op bound : Nat} {f : VR}

/-! Triples (R171, R172). -/

/-- A triple lane as the statements have it: none for a poisoned one. -/
def unlessPoisoned (r : Bool × TripleF) : Option TripleF := if r.1 then none else some r.2

/-- A lane of two operands is poisoned by either of them. -/
theorem unlessPoisoned_two {α β : Type} (g : α → β → TripleF) {p q : Bool} {t : α} {x : β} :
    unlessPoisoned (p || q, g t x) = (if p then none else some t).bind fun t => (if q then none else some x).map fun x => g t x := by
  cases p <;> cases q <;> rfl

/-- A lane of three operands is poisoned by any of them. -/
theorem unlessPoisoned_three {α β γ : Type} (g : α → β → γ → TripleF) {p q r : Bool} {t : α} {x : β} {w : γ} :
    unlessPoisoned (p || q || r, g t x w) =
      (if p then none else some t).bind fun t => (if q then none else some x).bind fun x => (if r then none else some w).map fun w => g t x w := by
  cases p <;> cases q <;> cases r <;> rfl

/-- A statistics operation gives its triples, none for a poisoned lane. -/
theorem statOp_gives {named : List Nat} {g : Ctx → State → Nat → Bool × TripleF} {v : Nat → Option TripleF} (h : Ready (atV s) f.m [f.d] s)
    (hd : Allotted s [f.d.toNat + 1, f.d.toNat + 2]) (hr : Allotted s named) (hv : ∀ i, unlessPoisoned (g (atV s) s i) = v i)
    (hx : standing .v op s = atV s := by rfl) : runSlot .v op (statOp f bound named g) s = triplesGive s f.d f.m bound (f.nf = 1) v := by
  rw [runSlot_masked (o := statOp f bound named g) h ((h.2.2.append hd).append hr) rfl rfl rfl hx]
  refine congrArg₂ (fun outs fl => goesOn (atV s) [result (atV s) s (.rows f.d.toNat) (.rows (writeTriples outs)) bound (flagSet (f.nf = 1) fl)] s)
    ?_ ?_ <;>
  · simp only [List.map_map]
    refine List.map_congr_left fun i _ => ?_
    simp only [Function.comp_apply, ← hv]
    cases ((atV s).mask s f.m.toNat 0).val.getLsbD i
    · rfl
    · obtain ⟨_ | _, t⟩ := g (atV s) s i <;> rfl

/-- The values derived from triples (R172). -/
theorem stateOp_gives {g : Word → Triple → Chain} (h : Ready (atV s) f.m [f.d] s)
    (hr : Allotted s [f.a.toNat, f.a.toNat + 1, f.a.toNat + 2]) (hx : standing .v op s = atV s := by rfl) :
    let a := tripleRows (atV s) s f.a.toNat 1
    runSlot .v op (stateOp f g) s = laneGives (atV s) s f.d f.m 32 6 (f.nf = 1) fun i => .of (triplePoison a i)
      (let t := tripleLane a i
       if t.isInvalid then ⟨fp32.nan, flIV⟩ else if t.isEmpty then ⟨0, flIV⟩ else ⟨(g (s.fmt s.cur.q) t).bits, (g (s.fmt s.cur.q) t).flags⟩) :=
  runSlot_masked (o := stateOp f g) h (h.2.2.append hr) rfl rfl rfl hx

/-- VSTATH gives the node at the top of the merge tree of nine levels. -/
theorem vstath_gives (h : Ready (atV s) f.m [f.d] s) (hd : Allotted s [f.d.toNat + 1, f.d.toNat + 2])
    (ha : Allotted s [f.a.toNat, f.a.toNat + 1, f.a.toNat + 2]) {node : Nat → Nat → TripleF}
    (h0 : ∀ j, j < 512 →
      node 0 j = ⟨if ((atV s).mask s f.m.toNat 0).val.getLsbD j then tripleLane (tripleRows (atV s) s f.a.toNat 1) j else .empty, 0⟩)
    (hnode : ∀ k j, k < 9 → j < 2 ^ (8 - k) → node (k + 1) j = mergeNode (node k (2 * j)) (node k (2 * j + 1))) :
    let bad := (List.range 512).any (fun i => ((atV s).mask s f.m.toNat 0).val.getLsbD i && triplePoison (tripleRows (atV s) s f.a.toNat 1) i)
    exec (.vstath f) s = gives (atV s) s (.rows f.d.toNat)
      (.rows (writeTriples ((some (if bad then none else some (node 9 0).t)) :: List.replicate 511 (some (some Triple.empty))))) 12
      (laneZeroFlags (f.nf = 1) (if bad then 0 else (node 9 0).flags)) := by
  have hleaves : (List.range 512).map (fun i =>
      (⟨if ((atV s).mask s f.m.toNat 0).val.getLsbD i then tripleLane (tripleRows (atV s) s f.a.toNat 1) i else .empty, 0⟩ : TripleF)) =
      (List.range 512).map (node 0) := List.map_congr_left fun j hj => (h0 j (List.mem_range.mp hj)).symm
  have htree : tree mergeNode 9 ((List.range 512).map (node 0)) = [node 9 0] := tree_levels (m := 9) (N := 9) hnode (le_refl _)
  have hrun := runSlot_masked (o := opVstath f) (op := 0x49) h ((h.2.2.append hd).append ha) rfl rfl rfl rfl
  simp only [opVstath, hleaves, htree] at hrun
  exact hrun

/-- Settles O13: the lane-by-lane operations by what poisons a lane, the reduction by its tree, the readings by their chains. -/
theorem statisticsResults : Obligations.StatisticsResults := by
  intro f s h d a b nf en fmt at_ word old one two derive
  refine ⟨fun hd => ⟨statOp_gives h hd (fun _ hn => absurd hn List.not_mem_nil) fun _ => rfl, fun ha => ?_, fun hab => ?_, fun hab => ?_,
    fun ha node h0 hnode => vstath_gives h hd ha h0 hnode⟩, fun ha => ⟨stateOp_gives h ha, stateOp_gives h ha, stateOp_gives h ha⟩⟩
  · exact statOp_gives h hd (ha.append (h.2.2.append hd)) fun _ => unlessPoisoned_two (fun (t : Triple) x => t.update x none)
  · exact statOp_gives h hd (hab.append (h.2.2.append hd)) fun _ => unlessPoisoned_three (fun (t : Triple) x w => t.update x (some w))
  · exact statOp_gives h hd hab fun _ => unlessPoisoned_two Triple.merge

/-! Exact lanes (R173). -/

theorem vxadd_gives (h : Ready (atV s) f.m [f.d, f.a] s) (hb : Allotted s [f.b.toNat]) :
    let a := (atV s).row s f.a.toNat 128 1
    let b := (atV s).row s f.b.toNat 128 2
    exec (.vxadd f) s = laneGives (atV s) s f.d f.m 128 2 true (fun i =>
      xaLane (a.lanePoison 128 i || b.lanePoison 128 i) ((a.xa i).add (b.xa i)) 0) := by
  obtain ⟨hroom, hmask, hrows⟩ := h
  exact laneOp_alone hroom hmask (hrows.append hb) fun i _ => by simp [vrRead, VIn.poison]

theorem vxcvtXaF32_gives (h : Ready (atV s) f.m [f.d, f.a] s) :
    let w := (atV s).row s f.a.toNat 32 1
    exec (.vxcvtXaF32 f) s = laneGives (atV s) s f.d f.m 128 3 (f.nf = 1) (fun i =>
      let r := xaOfF32 (fmtAnchor (s.fmt s.cur.q)) (w.lane 32 (128 * vrQuarter f + i))
      xaLane (w.lanePoison 32 (128 * vrQuarter f + i)) r.1 r.2) :=
  runSlot_masked (o := opVxcvtXaF32 f) h h.2.2 rfl rfl rfl rfl

theorem vxcvtF32Xa_gives (h : Ready (atV s) f.m [f.d, f.a] s) :
    let a := (atV s).row s f.a.toNat 128 1
    let outs := enabledLanes ((atV s).mask s f.m.toNat 0).val 128 128 fun i =>
      .of (a.lanePoison 128 i) ((a.xa i).toF32 (fmtAnchor (s.fmt s.cur.q)) (rounding (s.fmt s.cur.q) f.rm.toNat))
    exec (.vxcvtF32Xa f) s = gives (atV s) s (.rows f.d.toNat)
      (.rows [writeLanes 32 (List.replicate (128 * vrQuarter f) none ++ outs ++ List.replicate (128 * (3 - vrQuarter f)) none)]) 3
      (outFlags (f.nf = 1) outs) :=
  runSlot_masked (o := opVxcvtF32Xa f) h h.2.2 rfl rfl rfl rfl

/-- Settles O14: the three operations. -/
theorem exactLaneResults : Obligations.ExactLaneResults := fun _ _ h => ⟨vxadd_gives h, vxcvtXaF32_gives h, vxcvtF32Xa_gives h⟩

end Sys2Proof.Machine
end

section
/-! PROOFS. Mask operations, glint sums and the counter generator (02 R20, 07 R174 to R177). -/

namespace Sys2Proof.Machine

variable {s : State} {op : Nat} {f : VR}

/-! Masks (R174). -/

/-- A bitwise operation on masks gives every bit that m enables. -/
theorem maskOp_gives {useB : Bool} {g : MaskBits → MaskBits → MaskBits} {bit : Nat → Bool} {p : Bool} (h : Ready (atV s) f.m [] s)
    (hbit : ∀ i, i < 1024 →
      (g ((atV s).mask s (f.a.toNat % 16) 1).val (if useB then (atV s).mask s (f.b.toNat % 16) 2 else {}).val).getLsbD i = bit i)
    (hp : (((atV s).mask s (f.a.toNat % 16) 1).poison || (if useB then (atV s).mask s (f.b.toNat % 16) 2 else {}).poison) = p)
    (hx : standing .v op s = atV s := by rfl) :
    let m := ((atV s).mask s f.m.toNat 0).val
    let old := (atV s).mask s (f.d.toNat % 16) 3
    ∃ k : MaskBits, runSlot .v op (maskOp f useB g) s = gives (atV s) s (.mask (f.d.toNat % 16)) (.mask k p) 2 {} ∧
      ∀ i, i < 1024 → k.getLsbD i = if p then false else if m.getLsbD i then bit i else old.val.getLsbD i := by
  intro m old
  subst hp
  refine ⟨_, runSlot_masked (o := maskOp f useB g) h h.2.2 rfl rfl rfl hx, fun i hi => ?_⟩
  rw [← hbit i hi]
  cases (((atV s).mask s (f.a.toNat % 16) 1).poison || (if useB then (atV s).mask s (f.b.toNat % 16) 2 else {}).poison) with
  | true => exact BitVec.getLsbD_zero
  | false =>
    simp only [Bool.false_eq_true, if_false, BitVec.getLsbD_or, BitVec.getLsbD_and, BitVec.getLsbD_not, hi, decide_true, Bool.true_and]
    change (_ && m.getLsbD i || old.val.getLsbD i && !m.getLsbD i) = _
    cases m.getLsbD i with
    | true => rw [Bool.and_true, Bool.not_true, Bool.and_false, Bool.or_false, if_pos rfl]
    | false => rw [Bool.and_false, Bool.not_false, Bool.and_true, Bool.false_or, if_neg Bool.false_ne_true]

theorem maskCount_gives {g : Nat → Nat → Word} (h : Ready (atV s) f.m [] s) (hx : standing .v op s = atV s := by rfl) :
    let a := (atV s).mask s (f.a.toNat % 16) 1
    runSlot .v op (maskCount f g) s = goesOn (atV s) [scalarResult (atV s) s (f.d.toNat % 64) a.poison
      (g (laneCount (actWidth (fmtAct (s.fmt s.cur.q)))) (a.val &&& ((atV s).mask s f.m.toNat 0).val).toNat) 2 true 0] s :=
  runSlot_masked (o := maskCount f g) h h.2.2 rfl rfl rfl hx

theorem laneCount_actWidth {act : Nat} : laneCount (actWidth act) = if act = 1 then 1024 else if act = 2 then 128 else 512 := by
  rw [actWidth]
  split
  · rfl
  · split <;> rfl

theorem testBit_and_toNat {a m : MaskBits} {i : Nat} : (a &&& m).toNat.testBit i = (a.getLsbD i && m.getLsbD i) := by
  rw [BitVec.testBit_toNat, BitVec.getLsbD_and]

/-- MPOP gives the number of set bits below the lane count. -/
theorem mpop_gives (h : Ready (atV s) f.m [] s) :
    let a := (atV s).mask s (f.a.toNat % 16) 1
    let L := laneCount (actWidth (fmtAct (s.fmt s.cur.q)))
    exec (.mpop f) s = goesOn (atV s) [scalarResult (atV s) s (f.d.toNat % 64) a.poison
      (BitVec.ofNat 64 ((List.range L).countP fun i => a.val.getLsbD i && ((atV s).mask s f.m.toNat 0).val.getLsbD i)) 2 true 0] s := by
  intro a L
  have hrun : exec (.mpop f) s = _ := maskCount_gives h
  simp only [popCountTo_eq_countP, testBit_and_toNat] at hrun
  exact hrun

/-- MFIRST gives the set bit that its search finds below the lane count, else all ones. -/
theorem mfirst_gives {o : Option Nat} (h : Ready (atV s) f.m [] s)
    (ho : (List.range (laneCount (actWidth (fmtAct (s.fmt s.cur.q))))).find?
      (fun i => ((atV s).mask s (f.a.toNat % 16) 1).val.getLsbD i && ((atV s).mask s f.m.toNat 0).val.getLsbD i) = o) :
    exec (.mfirst f) s = goesOn (atV s) [scalarResult (atV s) s (f.d.toNat % 64) ((atV s).mask s (f.a.toNat % 16) 1).poison
      (o.elim (BitVec.allOnes 64) (BitVec.ofNat 64)) 2 true 0] s := by
  have hrun : exec (.mfirst f) s = _ := maskCount_gives h
  simp only [testBit_and_toNat, ho] at hrun
  cases o <;> exact hrun

/-- Settles O15: the bitwise operations by their bits, the counts by the lane count of FMT.ACT. -/
theorem maskResults : Obligations.MaskResults := by
  intro f s h m a b d old act L bits count set
  have hL : laneCount (actWidth (fmtAct (s.fmt s.cur.q))) = L := laneCount_actWidth
  refine ⟨maskOp_gives (useB := true) h (fun i _ => BitVec.getLsbD_and) rfl, maskOp_gives (useB := true) h (fun i _ => BitVec.getLsbD_or) rfl,
    maskOp_gives (useB := true) h (fun i _ => BitVec.getLsbD_xor) rfl, ?_, ?_, fun i hi hset hfirst => ?_, fun hnone => ?_⟩
  · exact maskOp_gives (useB := false) h (fun i hi => by rw [BitVec.getLsbD_not, decide_eq_true hi, Bool.true_and]) (Bool.or_false _)
  · rw [mpop_gives h, hL]
  · rw [mfirst_gives h (o := some i)]
    · rfl
    · rw [hL, List.find?_range_eq_some]
      exact ⟨hset, List.mem_range.mpr hi, fun j hj => congrArg (!·) (hfirst j hj)⟩
  · rw [mfirst_gives h (o := none)]
    · rfl
    · rw [hL, List.find?_range_eq_none]
      exact fun i hi => congrArg (!·) (hnone i hi)

/-! Glints (R175). -/

/-- A sum gathered from the left over the picked lanes is the sum over those lanes. -/
theorem foldl_if_add {en : Nat → Bool} {g : Nat → Word} (l : List Nat) (v : Word) :
    l.foldl (fun a i => if en i then a + g i else a) v = v + ((l.filter en).map g).sum := by
  induction l generalizing v with
  | nil => simp
  | cons i l ih =>
    rw [List.foldl_cons, ih]
    cases he : en i <;> simp [he, BitVec.add_assoc]

theorem glintSum_eq {m : MaskBits} {r : Row} : glintSum m r =
    (((List.range 512).filter (fun i => m.getLsbD i)).map (fun i => BitVec.ofNat 64 (i * 2 ^ 32 + r.lane 32 i) * 0x9E3779B97F4A7C15)).sum := by
  rw [glintSum, foldl_if_add]
  exact BitVec.zero_add _

theorem vglint_gives (h : Ready (atV s) f.m [] s) (ha : Allotted s [f.a.toNat]) :
    let en := ((atV s).mask s f.m.toNat 0).val
    let a := (atV s).row s f.a.toNat 32 1
    exec (.vglint f) s = gives (atV s) s (.glint (f.d.toNat % 4)) (.word (glintSum en a) (anyPoison en a 32)) 4 {} :=
  runSlot_masked (o := opVglint f) h ha rfl rfl rfl rfl

/-! The counter generator (R176, R177). -/

theorem unitFraction_eq {k : Nat} : unitFraction k = (ofInt fp32 .rne k (-24)).bits := rfl

/-- A generator operation fills its enabled lanes from the generated words, lane i from counter base + i. -/
theorem rngOp_gives {g : Word → Nat} (v : Word → Nat) (h : Ready (atV s) f.m [] s) (hd : Allotted s [f.d.toNat]) (hg : ∀ z, g z = v z)
    (hx : standing .v op s = atV s := by rfl) :
    let key := (atV s).scalar s (f.a.toNat % 64) 1
    let base := (atV s).scalar s (f.b.toNat % 64) 2
    let mix := fun (i : Nat) =>
      let z := key.val + (base.val + BitVec.ofNat 64 i) * 0x9E3779B97F4A7C15
      let z := (z ^^^ z >>> 30) * 0xBF58476D1CE4E5B9
      let z := (z ^^^ z >>> 27) * 0x94D049BB133111EB
      z ^^^ z >>> 31
    runSlot .v op (rngOp f g) s =
      laneGives (atV s) s f.d f.m 32 4 true fun i => ({ bits := v (mix i) } : LaneOut).taint (key.poison || base.poison) := by
  obtain rfl : g = v := funext hg
  have hrun := runSlot_masked (o := rngOp f g) (op := op) h hd rfl rfl rfl hx
  simp only [rngOp, generator, Config.golden] at hrun
  exact hrun

/-- Settles O16: the glint sum over the enabled words, and the generator's lanes. -/
theorem glintAndGeneratorResults : Obligations.GlintAndGeneratorResults := by
  intro f s h en a lanes key base mix fill
  refine ⟨fun ha => ?_, fun hd => ⟨rngOp_gives (fun z => (z >>> 32).toNat) h hd fun _ => rfl,
    rngOp_gives (fun z => (ofInt fp32 .rne (z >>> 40).toNat (-24)).bits) h hd fun _ => unitFraction_eq⟩⟩
  rw [vglint_gives h ha, glintSum_eq, anyPoison_eq_any]
  rfl

end Sys2Proof.Machine
end

section
/-! PROOFS. The quantiser operations and their scale records (03 R52 to R57, 07 R178 to R183). -/

namespace Sys2Proof.Machine

variable {s : State} {op bound : Nat} {f : VR} {p : SReg}

/-! The checks of a record's pointer (R178). -/

theorem lowestCause_none {l : List (Bool × Nat)} (h : ∀ e ∈ l, e.1 = false) : lowestCause l = none := by
  cases hc : lowestCause l with
  | none => rfl
  | some c => exact absurd (h _ (lowestCause_mem hc)) Bool.true_eq_false.mp

theorem NamesRecord.causes (h : NamesRecord p) : ∀ e ∈ recordCauses p, e.1 = false := by
  obtain ⟨hpoison, hbase, hsystem, halign⟩ := h
  simp only [recordCauses, List.forall_mem_cons]
  refine ⟨hpoison, ?_, ?_, List.forall_mem_nil _⟩
  · rw [Bool.or_eq_false_iff, decide_eq_false_iff_not, decide_eq_false_iff_not]
    exact ⟨Nat.not_lt.mpr hbase, Nat.not_le.mpr hsystem⟩
  · rw [decide_eq_false_iff_not, not_not]
    exact halign

/-! An operation on a record, at its issue or held (R178, R179, R263; log 76). -/

section Record

variable (x : Ctx) (s : State) (p : SReg) (d : Option Dest) (bound : Nat) (op : RecordOp)

/-- The result of a held operation: it misses its one unit until the record is reached. -/
def heldFlight : Flight where
  id := 0
  q := x.q
  dest := d.getD .fmt
  val := ((op.value ([], true)).1).getD (.word 0 true)
  issue := s.cyc
  due := s.cyc + bound
  slot := x.slot
  addr := x.addr
  missing := 1
  got := 0
  gotWidth := 16384
  hnd := (s.seqOf x.q).hnd

/-- The access of a held operation to its record. -/
def heldAccess : Access where
  id := 0
  q := x.q
  fn := s.fnOf x.core
  launch := runningLaunch s x.core
  slot := x.slot
  addr := x.addr
  kind := .record op
  va := p.val.toNat
  size := 32
  issue := s.cyc
  at_ := s.cyc + 1
  bound := s.cyc + bound
  hnd := (s.seqOf x.q).hnd

variable {x s p d bound op}

theorem scaleActs_free_result {d : Dest} {r : Value} (h : ownFree s x.q = true) (hl : x.lateOwn = false)
    (hv : (op.value (recordAt x s (recordOff p))).1 = some r) : scaleActs x s p (some d) bound op =
      eccChecks s [(.spd x.core, recordOff p, 32)] (s.fnOf x.core) ++
        (op.update x.core (recordOff p) ++ [result x s d r bound (op.value (recordAt x s (recordOff p))).2]) := by
  simp only [scaleActs, h, hl, hv]
  exact List.append_assoc _ _ _

theorem scaleActs_free (h : ownFree s x.q = true) (hl : x.lateOwn = false) : scaleActs x s p none bound op =
    eccChecks s [(.spd x.core, recordOff p, 32)] (s.fnOf x.core) ++ op.update x.core (recordOff p) := by
  simp only [scaleActs, h, hl]
  exact List.append_nil _

theorem scaleActs_held_result {d : Dest} (h : ownFree s x.q = false) : scaleActs x s p (some d) bound op =
    [.work (fun w => (w.push (heldFlight x s (some d) bound op)).pushAccess s { heldAccess x s p bound op with flight := some w.nextId })] := by
  rw [scaleActs, h]
  rfl

theorem scaleActs_held (h : ownFree s x.q = false) : scaleActs x s p none bound op =
    [.work (fun w => w.pushAccess s (heldAccess x s p bound op))] := by
  rw [scaleActs, h]
  rfl

end Record

/-! The operations of the X class (R181 to R183). -/

/-- An operation of the X class on the record at p that no cause stops: its result is there at once where the scratchpad is free, else it
stands as an access to the record, with its result in flight. -/
theorem recordOp_gives {o : Op} {d : Dest} {ro : RecordOp} {r : Value} (hs : Room s) (hr : Allotted s (o.rows (atX s) s))
    (hc : o.cause (atX s) s = none) (hn : o.nres = 1) (hnx : o.next (atX s) s = .seq)
    (ha : o.acts (atX s) s = scaleActs (atX s) s p (some d) bound ro) (hv : (ro.value (recordAt (atX s) s (recordOff p))).1 = some r)
    (hp : looppIllegal (some ⟨.x, BitVec.ofNat 8 op, 0, 0, 0, true⟩) = false) (hx : standing .x op s = atX s := by rfl) :
    (ownFree s s.cur.q = true → runSlot .x op o s = goesOn (atX s)
      (eccChecks s [(.spd (s.cur.q / 4), recordOff p, 32)] (s.fnOf (s.cur.q / 4)) ++ (ro.update (s.cur.q / 4) (recordOff p) ++
        [result (atX s) s d r bound (ro.value (recordAt (atX s) s (recordOff p))).2])) s) ∧
    (ownFree s s.cur.q = false → ∃ (fl : Flight) (acc : Access) (op' : RecordOp),
      runSlot .x op o s = goesOn (atX s) [.work (fun w => (w.push fl).pushAccess s { acc with flight := some w.nextId })] s ∧ fl.dest = d ∧
        fl.missing = 1 ∧ fl.due = s.cyc + bound ∧ acc.kind = .record op' ∧ acc.va = p.val.toNat ∧ acc.size = 32) := by
  rw [runSlot_alone (atX s) hx hs (le_of_eq hn) hr hc hp hnx, ha]
  refine ⟨fun hfree => ?_, fun hheld => ?_⟩
  · rw [scaleActs_free_result (x := atX s) hfree rfl hv]
    rfl
  · rw [scaleActs_held_result (x := atX s) hheld]
    exact ⟨_, _, ro, rfl, rfl, rfl, rfl, rfl, rfl, rfl⟩

theorem bxCause_none (hb : fmtBx (s.fmt s.cur.q) ≠ 1) (hm : ((atX s).mask s f.m.toNat 0).poison = false)
    (hp : NamesRecord ((atX s).scalar s (f.b.toNat % 64) 2)) : bxCause f (atX s) s = none := by
  refine lowestCause_none ?_
  rw [List.forall_mem_cons, List.forall_mem_cons]
  exact ⟨decide_eq_false hb, hm, hp.causes⟩

/-! VAMAX (R180). -/

/-- The greatest of a list is the one entry that none exceeds. -/
theorem foldl_max_eq {l : List Nat} {m : Nat} (hm : m ∈ l) (hmost : ∀ v ∈ l, v ≤ m) : l.foldl max 0 = m := by
  rw [List.foldl_eq_foldr]
  exact le_antisymm (List.max_le_of_forall_le l m hmost) (List.le_max_of_le hm (le_refl _))

theorem vamax_cause_none (hm : ((atV s).mask s f.m.toNat 0).poison = false) (hp : NamesRecord ((atV s).scalar s (f.b.toNat % 64) 2)) :
    (opVamax f).cause (atV s) s = none := by
  refine lowestCause_none ?_
  rw [List.forall_mem_cons]
  exact ⟨hm, hp.causes⟩

/-- The magnitudes of the enabled finite lanes. -/
def finiteMags (en : MaskBits) (a : Row) : List Nat :=
  ((List.range 512).filter (fun i => en.getLsbD i)).filterMap
    (fun i => if isFinite32 (a.lane 32 i) then some (a.lane 32 i % fp32.signBit) else none)

theorem filterMap_eq_finiteMags {en : MaskBits} {a : Row} : ((List.range 512).filter (fun i => en.getLsbD i)).filterMap
    (fun i => if isFinite32 (a.lane 32 i) then some (a.lane 32 i % fp32.signBit) else none) = finiteMags en a := rfl

theorem mem_finiteMags {en : MaskBits} {a : Row} {v : Nat} :
    v ∈ finiteMags en a ↔ ∃ i, i < 512 ∧ (en.getLsbD i && isFinite32 (a.lane 32 i)) = true ∧ a.lane 32 i % 2 ^ 31 = v := by
  have hsign : fp32.signBit = 2 ^ 31 := rfl
  simp only [finiteMags, List.mem_filterMap, List.mem_filter, List.mem_range, Option.ite_none_right_eq_some, Option.some.injEq, hsign, Bool.and_eq_true,
    and_assoc]

section Vamax

variable (h : Ready (atV s) f.m [f.a] s) (hp : NamesRecord ((atV s).scalar s (f.b.toNat % 64) 2))

/-- What VAMAX does to its record: nothing where an enabled lane is poisoned or none is finite, else the fold of the greatest magnitude. -/
def amaxActs (f : VR) (s : State) : List Act :=
  let en := ((atV s).mask s f.m.toNat 0).val
  let a := (atV s).row s f.a.toNat 32 1
  if anyPoison en a 32 then []
  else if (finiteMags en a).isEmpty then []
  else scaleActs (atV s) s ((atV s).scalar s (f.b.toNat % 64) 2) none 6
    (.amax (Config.freeWord (s.work.free + (atV s).ck 20)) ((finiteMags en a).foldl max 0))

theorem amaxActs_of_empty (h : finiteMags ((atV s).mask s f.m.toNat 0).val ((atV s).row s f.a.toNat 32 1) = []) : amaxActs f s = [] := by
  rw [amaxActs, h]
  exact ite_self _

theorem amaxActs_of_mem {v : Nat} (hgood : anyPoison ((atV s).mask s f.m.toNat 0).val ((atV s).row s f.a.toNat 32 1) 32 = false)
    (hmem : v ∈ finiteMags ((atV s).mask s f.m.toNat 0).val ((atV s).row s f.a.toNat 32 1))
    (hmax : (finiteMags ((atV s).mask s f.m.toNat 0).val ((atV s).row s f.a.toNat 32 1)).foldl max 0 = v) :
    amaxActs f s = scaleActs (atV s) s ((atV s).scalar s (f.b.toNat % 64) 2) none 6 (.amax (Config.freeWord (s.work.free + (atV s).ck 20)) v) := by
  have hne : (finiteMags ((atV s).mask s f.m.toNat 0).val ((atV s).row s f.a.toNat 32 1)).isEmpty = false :=
    List.isEmpty_eq_false_iff.mpr (List.ne_nil_of_mem hmem)
  rw [amaxActs, hgood, hmax, hne]
  rfl

theorem opVamax_acts :
    let en := ((atV s).mask s f.m.toNat 0).val
    let a := (atV s).row s f.a.toNat 32 1
    (opVamax f).acts (atV s) s = raiseFlags (atV s) s 6 (flagSet (f.nf = 1)
      ((List.range 512).map (fun i => if en.getLsbD i && !a.lanePoison 32 i && !isFinite32 (a.lane 32 i) then flIV else 0))) :: amaxActs f s := by
  simp only [opVamax, amaxActs, List.singleton_append, filterMap_eq_finiteMags]
  refine congrArg (List.cons _) (ite_congr rfl (fun _ => rfl) fun _ => ?_)
  cases finiteMags ((atV s).mask s f.m.toNat 0).val ((atV s).row s f.a.toNat 32 1) <;> rfl

include h hp

/-- VAMAX raises its flags and does its part to the record. -/
theorem vamax_gives :
    let en := ((atV s).mask s f.m.toNat 0).val
    let a := (atV s).row s f.a.toNat 32 1
    exec (.vamax f) s = goesOn (atV s) (raiseFlags (atV s) s 6 (flagSet (f.nf = 1)
        ((List.range 512).map (fun i => if en.getLsbD i && !a.lanePoison 32 i && !isFinite32 (a.lane 32 i) then flIV else 0))) :: amaxActs f s) s := by
  intro en a
  have hrun := runSlot_alone (c := .v) (o := opVamax f) (op := 0x4D) (atV s) rfl h.1 (Nat.zero_le _) h.2.2 (vamax_cause_none h.2.1 hp) rfl rfl
  rw [opVamax_acts] at hrun
  exact hrun

end Vamax

/-- Settles O17: each operation at once or held; VAMAX by its poisoned lanes, its finite lanes and their greatest magnitude. -/
theorem quantiserResults : Obligations.QuantiserResults := by
  constructor
  · intro f s hs x core p po r en a b g q off serves stands
    refine ⟨fun h hp hb => ?_, fun hq => ?_⟩
    · have hquant := recordOp_gives (o := opXqbx f) (op := 0x0A) (d := .rows f.d.toNat) (bound := 10) (ro := .quant b en a (f.nf = 1)) h.1 h.2.2
        (bxCause_none hb h.2.1 hp) rfl rfl rfl rfl rfl
      have hdequant := recordOp_gives (o := opXdqbx f) (op := 0x0B) (d := .rows f.d.toNat) (bound := 10)
        (ro := .dequant (s.fmt s.cur.q) f.rm.toNat en a (f.nf = 1)) h.1 h.2.2 (bxCause_none hb h.2.1 hp) rfl rfl rfl rfl rfl
      exact ⟨fun hfree => ⟨hquant.1 hfree, hdequant.1 hfree⟩, fun hheld => ⟨hquant.2 hheld, hdequant.2 hheld⟩⟩
    · exact recordOp_gives (o := opXscale f) (op := 0x0C) (ro := .scale) hs (fun _ hn => absurd hn List.not_mem_nil) (lowestCause_none hq.causes) rfl rfl
        rfl rfl rfl
  · intro f s h core p off en a finite flags hp
    rw [vamax_gives h hp]
    refine ⟨fun hbad => ?_, fun hgood => ⟨fun hnone => ?_, fun i hi hfin hmost => ?_⟩⟩
    · rw [amaxActs, anyPoison_eq_true.mpr hbad]
      rfl
    · have hempty : finiteMags en a = [] := List.eq_nil_iff_forall_not_mem.mpr fun v hv => by
        obtain ⟨i, hi, hfin, -⟩ := mem_finiteMags.mp hv
        exact absurd ((hnone i hi).symm.trans hfin) Bool.false_ne_true
      rw [amaxActs_of_empty hempty]
    · have hmem : a.lane 32 i % 2 ^ 31 ∈ finiteMags en a := mem_finiteMags.mpr ⟨i, hi, hfin, rfl⟩
      have hmax : (finiteMags en a).foldl max 0 = a.lane 32 i % 2 ^ 31 := foldl_max_eq hmem fun v hv => by
        obtain ⟨j, hj, hfinj, rfl⟩ := mem_finiteMags.mp hv
        exact hmost j hj hfinj
      have hacts := amaxActs_of_mem (anyPoison_eq_false.mpr hgood) hmem hmax
      refine ⟨Config.freeWord (s.work.free + (atV s).ck 20), fun hfree => ?_, fun hheld => ?_⟩
      · rw [hacts, scaleActs_free (x := atV s) hfree rfl]
        rfl
      · rw [hacts, scaleActs_held (x := atV s) hheld]
        exact ⟨_, rfl, rfl, rfl, rfl⟩

end Sys2Proof.Machine
end

section
/-! PROOFS. The special functions and their special cases (03 R40, R41, 07 R184). -/

namespace Sys2Proof.Machine

variable {s : State} {op a : Nat} {f : VR} {rm : Rounding}

/-- A special function that stands alone gives its lanes. -/
theorem sfuOp_gives {g : Rounding → Nat → Flagged} (h : Ready (atX s) f.m [f.d, f.a] s)
    (hp : looppIllegal (some ⟨.x, BitVec.ofNat 8 op, 0, 0, 0, true⟩) = false := by rfl) (hx : standing .x op s = atX s := by rfl) :
    let a := (atX s).row s f.a.toNat 32 1
    runSlot .x op (sfuOp f g) s = laneGives (atX s) s f.d f.m 32 8 (f.nf = 1) fun i =>
      .of (a.lanePoison 32 i) (g (rounding (s.fmt s.cur.q) f.rm.toNat) (a.lane 32 i)) := by
  obtain ⟨hroom, hmask, hrows⟩ := h
  exact laneOp_aloneX hroom hmask hrows (fun i _ => rfl) hp hx

/-! What FP32 patterns stand for (R40). -/

theorem value_quietNaN : fp32.value 0x7FC00001 = .nan false := by decide
theorem value_signallingNaN : fp32.value 0x7F800001 = .nan true := by decide
theorem value_inf : fp32.value 0x7F800000 = .inf false := by decide
theorem value_negInf : fp32.value 0xFF800000 = .inf true := by decide
theorem value_zero : fp32.value 0 = .fin false 0 (-149) := by decide
theorem value_negZero : fp32.value 0x80000000 = .fin true 0 (-149) := by decide
theorem value_one : fp32.value 0x3F800000 = .fin false (2 ^ 23) (-23) := by decide

theorem fp32_value : fp32.value a =
    if a / 2 ^ 23 % 2 ^ 8 = 255 then if a % 2 ^ 23 = 0 then .inf (a / 2 ^ 31 % 2 = 1) else .nan (a % 2 ^ 23 < 2 ^ 22)
    else if a / 2 ^ 23 % 2 ^ 8 = 0 then .fin (a / 2 ^ 31 % 2 = 1) (a % 2 ^ 23) (-149)
    else .fin (a / 2 ^ 31 % 2 = 1) (a % 2 ^ 23 + 2 ^ 23) (-149 + (((a / 2 ^ 23 % 2 ^ 8 : Nat) : Int) - 1)) := rfl

/-- The patterns from the least negative number to the negative infinity. -/
theorem value_negative (hl : 0x80000000 < a) (hu : a ≤ 0xFF800000) : fp32.value a = .inf true ∨ ∃ m e, m ≠ 0 ∧ fp32.value a = .fin true m e := by
  have hneg : a / 2 ^ 31 % 2 = 1 := by omega
  rw [fp32_value]
  simp only [hneg, decide_true]
  split
  · rw [if_pos (by omega)]
    exact .inl rfl
  · split
    · exact .inr ⟨_, _, by omega, rfl⟩
    · exact .inr ⟨_, _, by omega, rfl⟩

/-- The finite patterns from 2 ^ 23 upward stand for integers. -/
theorem value_integer (hl : 0x4B000000 ≤ a) (hu : a < 0x7F800000) : ∃ m e, m ≠ 0 ∧ 0 ≤ e ∧ fp32.value a = .fin false m e := by
  have hpos : ¬ a / 2 ^ 31 % 2 = 1 := by omega
  have hex : 150 ≤ a / 2 ^ 23 % 2 ^ 8 ∧ a / 2 ^ 23 % 2 ^ 8 < 255 := by omega
  rw [fp32_value]
  simp only [hpos, decide_false]
  rw [if_neg (by omega), if_neg (by omega)]
  exact ⟨_, _, by omega, by omega, rfl⟩

/-! The special cases of R184, for every rounding mode. -/

theorem xexp2_special : xexp2 rm 0xFF800000 = ⟨0, 0⟩ ∧ xexp2 rm 0x7F800000 = ⟨0x7F800000, 0⟩ ∧ xexp2 rm 0 = ⟨0x3F800000, 0⟩ ∧
    xexp2 rm 0x80000000 = ⟨0x3F800000, 0⟩ := by
  simp only [xexp2, value_negInf, value_inf, value_zero, value_negZero]
  cases rm <;> decide

theorem special_nan : ∀ g ∈ [xexp2 rm, xlog2 rm, fdiv fp32 rm 0x3F800000, frsqrt fp32 rm, fsqrt fp32 rm, xtanh rm, xsigm rm, xsin rm, xcos rm],
    g 0x7FC00001 = ⟨0x7FC00000, 0⟩ ∧ g 0x7F800001 = ⟨0x7FC00000, flIV⟩ := by
  simp only [List.forall_mem_cons, xexp2, xlog2, fdiv, frsqrt, fsqrt, xtanh, xsigm, xsin, xcos, xturn, value_one, value_quietNaN, value_signallingNaN]
  refine ⟨?_, ?_, ?_, ?_, ?_, ?_, ?_, ?_, ?_, List.forall_mem_nil _⟩ <;> decide

theorem xlog2_special : xlog2 rm 0 = ⟨0xFF800000, flDZ⟩ ∧ xlog2 rm 0x80000000 = ⟨0xFF800000, flDZ⟩ ∧ xlog2 rm 0x7F800000 = ⟨0x7F800000, 0⟩ ∧
    xlog2 rm 0x3F800000 = ⟨0, 0⟩ := by
  have hlog : Nat.log2 (2 ^ 23) = 23 := Nat.log2_two_pow
  simp only [xlog2, value_zero, value_negZero, value_inf, value_one, hlog]
  exact ⟨rfl, rfl, rfl, rfl⟩

/-- Logarithms and roots of negative numbers are invalid. -/
theorem special_negative (hl : 0x80000000 < a) (hu : a ≤ 0xFF800000) :
    xlog2 rm a = ⟨0x7FC00000, flIV⟩ ∧ frsqrt fp32 rm a = ⟨0x7FC00000, flIV⟩ ∧ fsqrt fp32 rm a = ⟨0x7FC00000, flIV⟩ := by
  obtain hv | ⟨m, e, hm, hv⟩ := value_negative hl hu
  · simp only [xlog2, frsqrt, fsqrt, hv]
    decide
  · simp only [xlog2, frsqrt, fsqrt, hv, if_neg hm, if_true]
    decide

theorem fdiv_one_special : fdiv fp32 rm 0x3F800000 0 = ⟨0x7F800000, flDZ⟩ ∧ fdiv fp32 rm 0x3F800000 0x80000000 = ⟨0xFF800000, flDZ⟩ ∧
    fdiv fp32 rm 0x3F800000 0x7F800000 = ⟨0, 0⟩ ∧ fdiv fp32 rm 0x3F800000 0xFF800000 = ⟨0x80000000, 0⟩ := by
  simp only [fdiv, value_one, value_zero, value_negZero, value_inf, value_negInf, if_true]
  decide

theorem frsqrt_special : frsqrt fp32 rm 0 = ⟨0x7F800000, flDZ⟩ ∧ frsqrt fp32 rm 0x80000000 = ⟨0xFF800000, flDZ⟩ ∧
    frsqrt fp32 rm 0x7F800000 = ⟨0, 0⟩ := by
  simp only [frsqrt, value_zero, value_negZero, value_inf, if_true]
  decide

theorem fsqrt_special : fsqrt fp32 rm 0 = ⟨0, 0⟩ ∧ fsqrt fp32 rm 0x80000000 = ⟨0x80000000, 0⟩ ∧
    fsqrt fp32 rm 0x7F800000 = ⟨0x7F800000, 0⟩ := by
  simp only [fsqrt, value_zero, value_negZero, value_inf, if_true]
  decide

theorem xtanh_special : xtanh rm 0 = ⟨0, 0⟩ ∧ xtanh rm 0x80000000 = ⟨0x80000000, 0⟩ ∧ xtanh rm 0x7F800000 = ⟨0x3F800000, 0⟩ ∧
    xtanh rm 0xFF800000 = ⟨0xBF800000, 0⟩ := by
  simp only [xtanh, value_zero, value_negZero, value_inf, value_negInf, if_true]
  decide

theorem xsigm_special : xsigm rm 0xFF800000 = ⟨0, 0⟩ ∧ xsigm rm 0x7F800000 = ⟨0x3F800000, 0⟩ ∧ xsigm rm 0 = ⟨0x3F000000, 0⟩ ∧
    xsigm rm 0x80000000 = ⟨0x3F000000, 0⟩ := by
  simp only [xsigm, value_zero, value_negZero, value_inf, value_negInf, if_true]
  decide

/-- The sine and the cosine of an infinity are invalid. -/
theorem xturn_inf : ∀ g ∈ [xsin rm, xcos rm], g 0x7F800000 = ⟨0x7FC00000, flIV⟩ ∧ g 0xFF800000 = ⟨0x7FC00000, flIV⟩ := by
  simp only [List.forall_mem_cons, xsin, xcos, xturn, value_inf, value_negInf]
  exact ⟨by decide, by decide, List.forall_mem_nil _⟩

theorem xturn_zero : xsin rm 0 = ⟨0, 0⟩ ∧ xsin rm 0x80000000 = ⟨0x80000000, 0⟩ ∧ xcos rm 0 = ⟨0x3F800000, 0⟩ ∧
    xcos rm 0x80000000 = ⟨0x3F800000, 0⟩ := by
  simp only [xsin, xcos, xturn, value_zero, value_negZero, if_true]
  decide

/-- A whole number of turns has nothing left of a turn. -/
theorem xturn_integer (hl : 0x4B000000 ≤ a) (hu : a < 0x7F800000) : xsin rm a = ⟨0, 0⟩ ∧ xcos rm a = ⟨0x3F800000, 0⟩ := by
  obtain ⟨m, e, hm, he, hv⟩ := value_integer hl hu
  simp only [xsin, xcos, xturn, hv, if_neg hm, if_pos he, Nat.mul_zero, Nat.zero_div, Nat.zero_mul, Nat.sub_zero, if_true]
  decide

/-- Settles O18: the functions by their form; the special cases by what their patterns stand for. -/
theorem specialFunctionResults : Obligations.SpecialFunctionResults := by
  refine ⟨fun f s h => ⟨sfuOp_gives h, sfuOp_gives h, sfuOp_gives h, sfuOp_gives h, sfuOp_gives h, sfuOp_gives h, sfuOp_gives h, sfuOp_gives h,
    sfuOp_gives h⟩, fun rm => ?_⟩
  obtain ⟨expNegInf, expInf, expZero, expNegZero⟩ := xexp2_special (rm := rm)
  obtain ⟨logZero, logNegZero, logInf, logOne⟩ := xlog2_special (rm := rm)
  obtain ⟨rcpZero, rcpNegZero, rcpInf, rcpNegInf⟩ := fdiv_one_special (rm := rm)
  obtain ⟨rsqrtZero, rsqrtNegZero, rsqrtInf⟩ := frsqrt_special (rm := rm)
  obtain ⟨sqrtZero, sqrtNegZero, sqrtInf⟩ := fsqrt_special (rm := rm)
  obtain ⟨tanhZero, tanhNegZero, tanhInf, tanhNegInf⟩ := xtanh_special (rm := rm)
  obtain ⟨sigmNegInf, sigmInf, sigmZero, sigmNegZero⟩ := xsigm_special (rm := rm)
  obtain ⟨sinZero, sinNegZero, cosZero, cosNegZero⟩ := xturn_zero (rm := rm)
  exact ⟨special_nan, expNegInf, expInf, expZero, expNegZero, logZero, logNegZero, logInf, logOne, fun _ => special_negative, rcpZero, rcpNegZero, rcpInf,
    rcpNegInf, rsqrtZero, rsqrtNegZero, rsqrtInf, sqrtZero, sqrtNegZero, sqrtInf, tanhZero, tanhNegZero, tanhInf, tanhNegInf, sigmNegInf, sigmInf,
    sigmZero, sigmNegZero, xturn_inf, sinZero, sinNegZero, cosZero, cosNegZero, fun _ => xturn_integer⟩

end Sys2Proof.Machine
end

section
/-! PROOFS. An operation that stands alone in an M slot or in slot X and that no check of its own stops (04 R69, R91, 08 R186, R207). -/

namespace Sys2Proof.Machine

variable {c : SlotClass} {op : Nat} {o : Op} {s : State} {x : Ctx}

/-! Causes that do not hold. -/

/-- Two sources of causes name none when neither does. -/
theorem minCause_none {a b : Option Nat} (ha : a = none) (hb : b = none) : minCause a b = none := by rw [ha, hb]; rfl

theorem foldl_keeps_none {α β : Type} {f : Option β → α → Option β} {l : List α} (h : ∀ e ∈ l, f none e = none) : l.foldl f none = none := by
  induction l with
  | nil => rfl
  | cons e l ih => rw [List.foldl_cons, h e List.mem_cons_self, ih fun d hd => h d (List.mem_cons_of_mem _ hd)]

/-- An operation of at most one result whose checks hold takes its effect and goes on in the stream. -/
theorem alone_goesOn (hs : Settled s) (hc : o.cause x s = none) (hpass : Unpipelined s ∨ looppIllegal (some ⟨c, BitVec.ofNat 8 op, 0, 0, 0, true⟩) = false)
    (hrows : Allotted s (o.rows x s) := by exact fun _ h => absurd h List.not_mem_nil) (hres : o.nres = 0 ∨ o.nres = 1 ∧ Room s := by exact .inl rfl)
    (hnx : o.next x s = .seq := by rfl) (hx : standing c op s = x := by rfl) : runSlot c op o s = goesOn x (o.acts x s) s := by
  subst hx
  refine runSlot_goesOn hs hrows hc ?_ (hres.imp_right fun ⟨h1, _, hroom⟩ => ?_) hnx
  · obtain h | h := hpass
    · rw [show passOf (s.seqOf s.cur.q) = none from h]
      rfl
    · rw [h, Bool.and_false]
  · omega

end Sys2Proof.Machine
end

section
/-! PROOFS. Loads, stores, gathers and scatters at their issue (08 R207 to R212). -/

namespace Sys2Proof.Machine

variable {f : MA} {g : MI} {x : Ctx} {s : State} {i n a align op : Nat} {u : Use} {r : SReg} {e e' : Nat × Nat × Bool}

theorem accessCause_none (hr : r.poison = false) (h : Passes s a n align u) : accessCause (atM s) s r a n align u = none :=
  (if_neg (Bool.eq_false_iff.mp hr)).trans h

/-! Scalar accesses and rows. -/

/-- A scalar load whose address passes issues its unit (R209). -/
theorem loadOp_goesOn (hroom : Room s) (hp : ((atM s).scalar s f.a.toNat 0).poison = false) (h : Passes s (maAddr f (atM s) s) n n .load)
    (hl : looppIllegal (some ⟨.m, BitVec.ofNat 8 op, 0, 0, 0, true⟩) = false := by rfl) :
    runSlot .m op (loadOp f n) s =
      goesOn (atM s) (issueLoad (atM s) s (.scalar (f.d.toNat % 64)) (.word 0 false) 0 512 f.lat.toNat [⟨maAddr f (atM s) s, n, 0⟩]) s :=
  alone_goesOn (o := loadOp f n) hroom.1 (accessCause_none hp h) (.inr hl) (hres := .inr ⟨rfl, hroom⟩)

/-- A scalar store whose address passes issues its unit (R209, R211). -/
theorem storeOp_goesOn (hs : Settled s) (hp : ((atM s).scalar s f.a.toNat 0).poison = false) (h : Passes s (maAddr f (atM s) s) n n .store)
    (hl : looppIllegal (some ⟨.m, BitVec.ofNat 8 op, 0, 0, 0, true⟩) = false := by rfl) :
    runSlot .m op (storeOp f n) s = goesOn (atM s) ((storeOp f n).acts (atM s) s) s :=
  alone_goesOn (o := storeOp f n) hs (accessCause_none hp h) (.inr hl)

section Row

variable (hroom : Room s) (hp : ((atM s).scalar s f.a.toNat 0).poison = false) (hd : Allotted s [f.d.toNat])

include hroom hp hd

theorem vld_goesOn (h : Passes s (maAddr f (atM s) s) 2048 64 .load) :
    exec (.vld f) s = goesOn (atM s) (loadRow (atM s) s f.d.toNat f.lat.toNat (maAddr f (atM s) s)) s :=
  alone_goesOn (o := opVld f) hroom.1 (accessCause_none hp h) (.inr rfl) hd (.inr ⟨rfl, hroom⟩)

/-- A VLDT takes its row from the own scratchpad when its block holds the tag named (R210). -/
theorem vldt_goesOn (h : Passes s (vldtAddr f (atM s) s) 2048 2048 .load) (hw : windowOf (vldtAddr f (atM s) s) = 4)
    (ht : SMap.get 0 s.tags (1024 * (s.cur.q / 4) + vldtAddr f (atM s) s % 2 ^ 22 / 4096) = vldtTag f (atM s) s) :
    exec (.vldt f) s = goesOn (atM s) (loadRow (atM s) s f.d.toNat f.lat.toNat (vldtAddr f (atM s) s)) s := by
  have htag : (opVldt f).cause (atM s) s = none := by
    have hcause : minCause (accessCause (atM s) s ((atM s).scalar s f.a.toNat 0) (vldtAddr f (atM s) s) 2048 2048 .load)
        (if ((atM s).scalar s f.a.toNat 0).poison || windowOf (vldtAddr f (atM s) s) = 4 then none else some cAddress) = none :=
      minCause_none (accessCause_none hp h) (if_pos (by rw [hw]; simp))
    simp only [opVldt, hcause]
    exact firstCause_false (decide_eq_false (not_not.mpr ht))
  exact alone_goesOn (o := opVldt f) hroom.1 htag (.inr rfl) hd (.inr ⟨rfl, hroom⟩)

theorem vldb_goesOn (hlo : maAddr f (atM s) s ≤ 4092) (h4 : maAddr f (atM s) s % 4 = 0) :
    exec (.vldb f) s = goesOn (atM s) ((opVldb f).acts (atM s) s) s :=
  alone_goesOn (o := opVldb f) hroom.1 ((lowestCause_false hp).trans (lowestCause_false (by simpa using And.intro hlo h4))) (.inr rfl) hd (.inr ⟨rfl, hroom⟩)

end Row

theorem vst_goesOn (hs : Settled s) (hp : ((atM s).scalar s f.a.toNat 0).poison = false) (hd : Allotted s [f.d.toNat])
    (h : Passes s (maAddr f (atM s) s) 2048 64 .store) : exec (.vst f) s = goesOn (atM s) ((opVst f).acts (atM s) s) s :=
  alone_goesOn (o := opVst f) hs (accessCause_none hp h) (.inr rfl) hd

/-- A VLDB that no drain holds reads its column now (R210). -/
theorem opVldb_acts_reads (h : holdClear s (s.seqOf x.q).hold = true) : (opVldb f).acts x s =
    eccChecks s (columnPlaces x.core (maAddr f x s)) (s.fnOf x.core) ++
      [result x s (.rows f.d.toNat) (.rows [columnRow s x.core (maAddr f x s)]) (8 * 2 ^ f.lat.toNat) {}] ++
      columnError s x.q (maAddr f x s) (loadPass (s.seqOf x.q)) (s.seqOf x.q).hnd := if_pos h

/-- A VLDB behind a drain stands as an access to its column (R218). -/
theorem opVldb_acts_held (h : holdClear s (s.seqOf x.q).hold = false) : ∃ (fl : Flight) (acc : Access),
    (opVldb f).acts x s = [.work (fun w => (w.push fl).pushAccess s { acc with flight := some w.nextId })] ∧ fl.dest = .rows f.d.toNat ∧ fl.missing = 1 ∧
      fl.due = s.cyc + 8 * 2 ^ f.lat.toNat ∧ acc.kind = .column (maAddr f x s) :=
  ⟨{ id := 0, q := x.q, dest := .rows f.d.toNat, val := .rows [emptyRow], issue := s.cyc, due := s.cyc + 8 * 2 ^ f.lat.toNat, missing := 1
     slot := x.slot, addr := x.addr, got := 0, hnd := (s.seqOf x.q).hnd },
    { id := 0, q := x.q, fn := s.fnOf x.core, launch := runningLaunch s x.core, slot := x.slot, addr := x.addr, kind := .column (maAddr f x s)
      va := 0xFF00000000000000 + 2 ^ 22, size := 4, issue := s.cyc, at_ := s.cyc + 1, bound := 6
      pass := loadPass (s.seqOf x.q), hnd := (s.seqOf x.q).hnd },
    if_neg (Bool.eq_false_iff.mp h), rfl, rfl, rfl, rfl⟩

/-! Gathers and scatters. -/

/-- The element of lane i, none where it is skipped (R212). -/
def element (g : MI) (x : Ctx) (s : State) (i : Nat) : Option (Nat × Nat × Bool) :=
  let ix := x.row s g.x.toNat 32 1
  if ix.lanePoison 32 i then some (i, 0, true)
  else if ix.lane 32 i = 0xFFFFFFFF then none
  else some (i, ((x.scalar s g.a.toNat 0).val + g.off12.signExtend 64 + BitVec.ofNat 64 (4 * ix.lane 32 i)).toNat, false)

theorem elements_eq : elements g x s = (List.range 512).filterMap (element g x s) := rfl

theorem element_lane (h : element g x s i = some e) : e.1 = i := by
  rw [element] at h
  split at h
  · rw [← Option.some.inj h]
  · split at h
    · simp at h
    · rw [← Option.some.inj h]

theorem mem_elements : e ∈ elements g x s ↔ e.1 < 512 ∧ element g x s e.1 = some e := by
  rw [elements_eq, List.mem_filterMap]
  constructor
  · rintro ⟨i, hi, he⟩
    rw [element_lane he]
    exact ⟨List.mem_range.mp hi, he⟩
  · exact fun ⟨hi, he⟩ => ⟨e.1, List.mem_range.mpr hi, he⟩

/-- The first element of a lane is the lane's. -/
theorem elements_find (hi : i < 512) : (elements g x s).find? (fun e => e.1 = i) = element g x s i := by
  cases he : (elements g x s).find? (fun e => e.1 = i) with
  | none =>
    cases h : element g x s i with
    | none => rfl
    | some e =>
      have hlane := element_lane h
      exact absurd hlane (by simpa using List.find?_eq_none.mp he e (mem_elements.mpr (by rw [hlane]; exact ⟨hi, h⟩)))
  | some e =>
    have hlane : e.1 = i := by simpa using List.find?_some he
    rw [← hlane]
    exact (mem_elements.mp (List.mem_of_find?_eq_some he)).2.symm

/-- What a gather writes before its elements come: poison where the index lane is poisoned, zero at every other element (R212). -/
def gatherLanes (g : MI) (x : Ctx) (s : State) : List (Option LaneOut) :=
  (List.range 512).map fun i => ((elements g x s).find? (fun e => e.1 = i)).map (fun e => if e.2.2 then LaneOut.poisoned else { bits := 0 })

/-- A lane has an element with a property when its element has it. -/
theorem exists_element_iff {p : Nat × Nat × Bool → Prop} (hi : i < 512) :
    (∃ e ∈ elements g x s, e.1 = i ∧ p e) ↔ ∃ e, element g x s i = some e ∧ p e := by
  refine ⟨fun ⟨e, he, hlane, hp⟩ => ⟨e, hlane ▸ (mem_elements.mp he).2, hp⟩, fun ⟨e, he, hp⟩ => ⟨e, ?_, element_lane he, hp⟩⟩
  rw [mem_elements, element_lane he]
  exact ⟨hi, he⟩

theorem gatherLanes_getD (hi : i < 512) : (gatherLanes g x s).getD i none =
    if ∃ e ∈ elements g x s, e.1 = i then some (if ∃ e ∈ elements g x s, e.1 = i ∧ e.2.2 = true then .poisoned else { bits := 0 }) else none := by
  have hget : (gatherLanes g x s).getD i none = (element g x s i).map (fun e => if e.2.2 then LaneOut.poisoned else { bits := 0 }) := by
    rw [gatherLanes, List.getD_eq_getElem?_getD, List.getElem?_map, List.getElem?_range hi, Option.map_some, Option.getD_some, elements_find hi]
  have hany : (∃ e ∈ elements g x s, e.1 = i) ↔ ∃ e, element g x s i = some e := by
    simpa only [and_true] using exists_element_iff (p := fun _ => True) hi
  have hbad := exists_element_iff (g := g) (x := x) (s := s) (p := fun e => e.2.2 = true) hi
  rw [hget]
  cases he : element g x s i with
  | none =>
    rw [he] at hany
    rw [if_neg (fun h => absurd (hany.mp h) (by simp))]
    rfl
  | some e =>
    rw [he] at hany hbad
    rw [if_pos (hany.mpr ⟨e, rfl⟩), Option.map_some]
    exact congrArg some (if_congr (by simpa using hbad.symm) rfl rfl)

/-- A gather or scatter whose base is sound and whose elements pass has no cause (R212). -/
theorem elementCause_none (hp : ((atM s).scalar s g.a.toNat 0).poison = false)
    (h : ∀ e ∈ (elements g (atM s) s).filter (fun e => !e.2.2), Passes s e.2.1 4 4 u) : elementCause g (atM s) s u = none := by
  rw [elementCause, if_neg (Bool.eq_false_iff.mp hp)]
  refine foldl_keeps_none fun e he => ?_
  exact h e he

theorem vgath_goesOn (hroom : Room s) (hd : Allotted s [g.d.toNat, g.x.toNat]) (hp : ((atM s).scalar s g.a.toNat 0).poison = false)
    (h : ∀ e ∈ (elements g (atM s) s).filter (fun e => !e.2.2), Passes s e.2.1 4 4 .load) :
    exec (.vgath g) s = goesOn (atM s) ((opVgath g).acts (atM s) s) s := by
  have hc : (opVgath g).cause (atM s) s = none := elementCause_none hp h
  exact alone_goesOn (o := opVgath g) hroom.1 hc (.inr rfl) hd (.inr ⟨rfl, hroom⟩)

theorem opVgath_acts : ∃ got, (opVgath g).acts x s = issueLoad x s (.rows g.d.toNat) (.rows [writeLanes 32 (gatherLanes g x s)]) got 32 g.lat.toNat
    (((elements g x s).filter (fun e => !e.2.2)).map (fun e => ⟨e.2.1, 4, 4 * e.1⟩)) := by
  simp only [opVgath]
  exact ⟨_, rfl⟩

theorem vscat_goesOn (hs : Settled s) (hd : Allotted s [g.d.toNat, g.x.toNat]) (hp : ((atM s).scalar s g.a.toNat 0).poison = false)
    (h : ∀ e ∈ elements g (atM s) s, e.2.2 = false ∧ Passes s e.2.1 4 4 .store) :
    exec (.vscat g) s = goesOn (atM s) ((opVscat g).acts (atM s) s) s := by
  have hsound : ¬ (elements g (atM s) s).any (fun e => e.2.2) = true := by
    rw [List.any_eq_true]
    rintro ⟨e, he, hbad⟩
    rw [(h e he).1] at hbad
    exact Bool.false_ne_true hbad
  have hc : (opVscat g).cause (atM s) s = none := by
    simp only [opVscat, if_neg hsound]
    exact elementCause_none hp fun e he => (h e (List.mem_filter.mp he).1).2
  exact alone_goesOn (o := opVscat g) hs hc (.inr rfl) hd

/-- Settles O24: each operation by its own check, and what it issues. -/
theorem memoryAccessesIssue : Obligations.MemoryAccessesIssue := by
  intro f g s hs
  refine ⟨fun hp hroom => ⟨loadOp_goesOn hroom hp, loadOp_goesOn hroom hp, loadOp_goesOn hroom hp, loadOp_goesOn hroom hp,
      fun hd => ⟨vld_goesOn hroom hp hd, fun h hw ht => vldt_goesOn hroom hp hd h hw ht, fun hlo h4 hheld => ?_, fun hlo h4 hfree => ?_⟩⟩,
    fun hp => ⟨storeOp_goesOn hs hp, storeOp_goesOn hs hp, storeOp_goesOn hs hp, storeOp_goesOn hs hp, fun hd h => vst_goesOn hs hp hd h⟩,
    fun hp hd => ⟨fun hroom h => ?_, fun h => ?_⟩⟩
  · obtain ⟨fl, acc, hacts, hdest, hmissing, hdue, hkind⟩ := opVldb_acts_held (f := f) (x := atM s) hheld
    exact ⟨fl, acc, (vldb_goesOn hroom hp hd hlo h4).trans (by rw [hacts]), hdest, hmissing, hdue, hkind⟩
  · rw [vldb_goesOn hroom hp hd hlo h4, opVldb_acts_reads hfree]
    rfl
  · obtain ⟨got, hacts⟩ := opVgath_acts (g := g) (x := atM s) (s := s)
    exact ⟨_, got, (vgath_goesOn hroom hd hp h).trans (by rw [hacts]), fun i => gatherLanes_getD⟩
  · rw [vscat_goesOn hs hd hp h]
    simp only [opVscat]

end Sys2Proof.Machine
end

section
/-! PROOFS. Accesses to the own scratchpad at their issue: what a load reads, and the bytes a store changes (08 R209, R211, 11 R263). -/

namespace Sys2Proof.Machine

variable {f : MA} {x : Ctx} {s t : State} {a b k n v q c off : Nat} {h : Home} {u : Part}

/-! Bytes. -/

theorem leBytes_length : (leBytes n v).length = n := by
  induction n generalizing v with
  | zero => rfl
  | succ n ih => rw [leBytes, List.length_cons, ih]

/-- Byte k of the bytes of a value. -/
theorem leBytes_getD (hk : k < n) : (leBytes n v).getD k 0 = BitVec.ofNat 8 (v / 2 ^ (8 * k)) := by
  induction n generalizing v k with
  | zero => omega
  | succ n ih =>
    cases k with
    | zero => simp [leBytes]
    | succ k =>
      rw [leBytes, List.getD_cons_succ, ih (by omega), Nat.div_div_eq_div_mul, Nat.mul_add, Nat.pow_add, Nat.mul_comm (2 ^ (8 * k))]

theorem ofNat_div_eq_extractLsb' {w : Word} : BitVec.ofNat 8 (w.toNat / 2 ^ (8 * k)) = w.extractLsb' (8 * k) 8 := by
  apply BitVec.eq_of_toNat_eq
  rw [BitVec.toNat_ofNat, BitVec.extractLsb'_toNat, Nat.shiftRight_eq_div_pow]

theorem key_add : h.key (a + k) = h.key a + k := by
  cases h <;> simp only [Home.key] <;> omega

theorem readPoison_length : (s.readPoison h a n).length = n := by rw [State.readPoison, List.length_map, List.length_range]

/-- The bytes of n read with their poison are the bytes, and their marks. -/
theorem zip_readBytes : ((s.readBytes h a n).zip (s.readPoison h a n)).map Prod.fst = s.readBytes h a n ∧
    ((s.readBytes h a n).zip (s.readPoison h a n)).map Prod.snd = s.readPoison h a n := by
  have hlen : (s.readBytes h a n).length = (s.readPoison h a n).length := Memory.readBytes_length.trans readPoison_length.symm
  exact ⟨List.map_fst_zip hlen.le, List.map_snd_zip hlen.ge⟩

/-! The own scratchpad. -/

theorem locate_own (hw : windowOf a = 4) : locate s c a = (.spd c, a % 2 ^ 22) := by simp only [locate, hw]

theorem ownPart_of_window (hw : windowOf u.va = 4) : ownPart x s u = true := by simp [ownPart, hw, locate_own hw]

theorem windowBytes_nil (hw : (s.seqOf q).window = []) (hf : (s.seqOf q).frozen.window = []) : windowBytes s q a n = [] := by
  simp only [windowBytes, hw, hf, List.append_nil, List.flatMap_nil]

theorem loadPass_none (hp : passOf (s.seqOf q) = none) (hr : (s.seqOf q).reent = false) : loadPass (s.seqOf q) = none := by
  rw [loadPass, hr, hp]
  rfl

theorem storePass_none (hp : passOf (s.seqOf q) = none) : storePass (s.seqOf q) = none := by
  rw [storePass, hp, ite_self]

/-- A scalar result whose one unit arrives: its bytes as a value, or poisoned zero (R209, R211). -/
theorem deliver_word {fl : Flight} {w : Word} {p : Bool} {l : List (Byte × Bool)} (hv : fl.val = .word w p) : fl.deliver off l =
    { fl with
      val := .word (if (l.map Prod.snd).any id then 0 else BitVec.ofNat 64 (leValue (l.map Prod.fst))) ((l.map Prod.snd).any id)
      missing := fl.missing - 1 } := by
  simp only [Flight.deliver, hv]
  rfl

/-- The result of a scalar load from the own scratchpad (R209). -/
def ownFlight (x : Ctx) (s : State) (d lat a n : Nat) : Flight :=
  let p := (s.readPoison (.spd x.core) (a % 2 ^ 22) n).any id
  { id := 0, q := x.q, dest := .scalar d, issue := s.cyc, due := s.cyc + 8 * 2 ^ lat, slot := x.slot, addr := x.addr, hnd := (s.seqOf x.q).hnd
    val := .word (if p then 0 else BitVec.ofNat 64 (leValue (s.readBytes (.spd x.core) (a % 2 ^ 22) n))) p }

/-- A scalar load that performs at its issue reads what stands there, once it is checked (R209, R263). -/
theorem issueLoad_own {d lat : Nat} (hp : PerformsAtIssue s) (hw : windowOf a = 4) :
    issueLoad (atM s) s (.scalar d) (.word 0 false) 0 512 lat [⟨a, n, 0⟩] =
      eccChecks s [(.spd (s.cur.q / 4), a % 2 ^ 22, n)] (s.fnOf (s.cur.q / 4)) ++ [.work (fun w => w.push (ownFlight (atM s) s d lat a n))] := by
  obtain ⟨hpass, hreent, hwin, hfrozen, hfree⟩ := hp
  have hq : (atM s).q = s.cur.q := rfl
  have hown : ownPart (atM s) s ⟨a, n, 0⟩ = true := ownPart_of_window hw
  have hbytes : windowBytes s s.cur.q a n = [] := windowBytes_nil hwin hfrozen
  have hload : loadPass (s.seqOf s.cur.q) = none := loadPass_none hpass hreent
  simp only [issueLoad, List.all_cons, List.all_nil, hown, hq, hfree, Bool.or_true, Bool.and_self, if_true, List.map_cons, List.map_nil,
    List.foldl_cons, List.foldl_nil, locate_own hw, hbytes, hload, overWindow]
  rw [deliver_word rfl, zip_readBytes.1, zip_readBytes.2]
  rfl

/-- A store that performs at its issue puts its bytes into the own scratchpad (R211, R263). -/
theorem issueStore_own {k0 bound : Nat} {bs : List Byte} {ps : List Bool} (hp : PerformsAtIssue s) (hw : windowOf a = 4) :
    issueStore (atM s) s k0 bound [(⟨a, n, off⟩, bs, ps)] =
      ownWrite s s.cur.q s.cyc (a % 2 ^ 22) bs ps ++ pendWrite s (.spd (s.cur.q / 4)) (a % 2 ^ 22) n := by
  obtain ⟨hpass, -, -, -, hfree⟩ := hp
  have hq : (atM s).q = s.cur.q := rfl
  have hlate : (atM s).lateOwn = false := rfl
  have hown : ownPart (atM s) s ⟨a, n, off⟩ = true := ownPart_of_window hw
  simp only [issueStore, hq, storePass_none hpass, List.all_cons, List.all_nil, hown, hfree, hlate, Bool.and_self, Bool.not_false, if_true,
    List.flatMap_cons, List.flatMap_nil, List.append_nil, locate_own hw]
  rfl

/-! What the store leaves. -/

/-- A sequencer that holds no stores and goes on in the stream leaves what its effect leaves, but for its own counter and loop state. -/
theorem issued_seq_state {l : List Act} (hw : ((applyActs l s).seqOf x.q).window = []) : ∃ y m free, issued x .seq l s =
    { applyActs l s with
      seqs := SMap.set {} (applyActs l s).seqs x.q y, work := { (applyActs l s).work with nextId := m, free := free } } := by
  obtain ⟨y, m, -, hadv⟩ := advance_seq (q := x.q) (addr := x.addr) (size := x.size) hw
  refine ⟨y, m, (applyActs l s).work.free + 65536, ?_⟩
  rw [issued, applyActs_bump, applyActs_append, hadv]
  rfl

theorem readByte_with_seqs_work_cores {m : SMap Seq} {w : Work} {cs : SMap Core} : State.readByte { s with seqs := m, work := w, cores := cs } h a = s.readByte h a := by
  cases h <;> rfl

/-- What the write of a store into the own scratchpad leaves: its bytes, and the order in which others see them. -/
theorem ownWrite_state {i : Nat} {bs : List Byte} {ps : List Bool} : ∃ un, applyActs (ownWrite s q i off bs ps) s =
    { applyAct (.write (.spd (q / 4)) off bs ps) s with work := { s.work with unreleased := un } } := by
  simp only [ownWrite, applyActs_cons, applyActs_nil, applyAct_work, applyAct_write, setMem_work]
  split <;> exact ⟨_, rfl⟩

/-- Beyond its bytes a store into the own scratchpad that issues leaves their order, the blocks that are written and the counter. -/
theorem issued_ownStore_state {i : Nat} {bs : List Byte} {ps : List Bool} (hw : (s.seqOf x.q).window = []) :
    ∃ m cs un nid free, issued x .seq (ownWrite s q i off bs ps ++ pendWrite s (.spd c) off n) s =
      { applyAct (.write (.spd (q / 4)) off bs ps) s with
        seqs := m, cores := cs, work := { s.work with unreleased := un, nextId := nid, free := free } } := by
  obtain ⟨un, hun⟩ := ownWrite_state (s := s) (q := q) (i := i) (off := off) (bs := bs) (ps := ps)
  have hwin : ((applyActs (ownWrite s q i off bs ps ++ pendWrite s (.spd c) off n) s).seqOf x.q).window = [] := by
    rw [applyActs_append, hun]
    exact hw
  obtain ⟨y, nid, free, hissued⟩ := issued_seq_state hwin
  rw [hissued, applyActs_append, hun]
  exact ⟨_, _, un, nid, free, rfl⟩

/-- The bytes that a scalar store puts: those of its register, or zeros (R211). -/
def storedBytes (v : SReg) (n : Nat) : List Byte := leBytes n (if v.poison then 0 else v.val.toNat)

theorem storedBytes_length {v : SReg} : (storedBytes v n).length = n := leBytes_length

theorem storedBytes_getD {v : SReg} (hk : k < n) : (storedBytes v n).getD k 0 = if v.poison then 0 else v.val.extractLsb' (8 * k) 8 := by
  rw [storedBytes, leBytes_getD hk]
  cases v.poison with
  | true => simp
  | false => exact ofNat_div_eq_extractLsb'

/-- What a store leaves that performs at its issue and goes on in the stream. -/
theorem storeOp_own {op : Nat} (hs : Settled s) (hp : PerformsAtIssue s) (hbase : ((atM s).scalar s f.a.toNat 0).poison = false)
    (hw : windowOf (maAddr f (atM s) s) = 4) (h : Passes s (maAddr f (atM s) s) n n .store)
    (ht : runSlot .m op (storeOp f n) s = .next t) (hl : looppIllegal (some ⟨.m, BitVec.ofNat 8 op, 0, 0, 0, true⟩) = false := by rfl) :
    ∃ m cs un nid free, t = { applyAct (.write (.spd (s.cur.q / 4)) (maAddr f (atM s) s % 2 ^ 22)
        (storedBytes ((atM s).scalar s (f.d.toNat % 64) 1) n) (List.replicate n ((atM s).scalar s (f.d.toNat % 64) 1).poison)) s with
      seqs := m, cores := cs, work := { s.work with unreleased := un, nextId := nid, free := free } } := by
  rw [storeOp_goesOn hs hbase h hl, storeOp, goesOn] at ht
  simp only [issueStore_own hp hw] at ht
  obtain ⟨m, cs, un, nid, free, hissued⟩ := issued_ownStore_state (x := atM s) hp.2.2.1
  exact ⟨m, cs, un, nid, free, (Host.Outcome.next.inj ht).symm.trans hissued⟩

/-- A scalar load from the own scratchpad puts what stands there in flight (R209, R263). -/
theorem loadOp_own {op : Nat} (hroom : Room s) (hp : PerformsAtIssue s) (hbase : ((atM s).scalar s f.a.toNat 0).poison = false)
    (hw : windowOf (maAddr f (atM s) s) = 4) (h : Passes s (maAddr f (atM s) s) n n .load)
    (hl : looppIllegal (some ⟨.m, BitVec.ofNat 8 op, 0, 0, 0, true⟩) = false := by rfl) :
    runSlot .m op (loadOp f n) s = goesOn (atM s) (eccChecks s [(.spd (s.cur.q / 4), maAddr f (atM s) s % 2 ^ 22, n)] (s.fnOf (s.cur.q / 4)) ++
      [.work (fun w => w.push (ownFlight (atM s) s (f.d.toNat % 64) f.lat.toNat (maAddr f (atM s) s) n))]) s := by
  rw [loadOp_goesOn hroom hbase h hl, issueLoad_own hp hw]

/-- Settles O25: a load of each width reads its bytes, a store of each width writes its own. -/
theorem ownScratchpadAccesses : Obligations.OwnScratchpadAccesses := by
  refine ⟨fun f s hroom hp hbase n i hi hw h => ?_, fun f s t hs hp hbase n i hi hw h ht => ?_⟩
  · refine ⟨ownFlight (atM s) s (f.d.toNat % 64) f.lat.toNat (maAddr f (atM s) s) n, ?_, rfl, rfl, rfl, rfl, rfl, rfl⟩
    simp only [List.mem_cons, Prod.mk.injEq, List.not_mem_nil, or_false] at hi
    obtain ⟨rfl, rfl⟩ | ⟨rfl, rfl⟩ | ⟨rfl, rfl⟩ | ⟨rfl, rfl⟩ := hi
    · exact loadOp_own hroom hp hbase hw h
    · exact loadOp_own hroom hp hbase hw h
    · exact loadOp_own hroom hp hbase hw h
    · exact loadOp_own hroom hp hbase hw h
  · have hleft : ∃ m cs un nid free, t = { applyAct (.write (.spd (s.cur.q / 4)) (maAddr f (atM s) s % 2 ^ 22)
          (storedBytes ((atM s).scalar s (f.d.toNat % 64) 1) n) (List.replicate n ((atM s).scalar s (f.d.toNat % 64) 1).poison)) s with
        seqs := m, cores := cs, work := { s.work with unreleased := un, nextId := nid, free := free } } := by
      simp only [List.mem_cons, Prod.mk.injEq, List.not_mem_nil, or_false] at hi
      obtain ⟨rfl, rfl⟩ | ⟨rfl, rfl⟩ | ⟨rfl, rfl⟩ | ⟨rfl, rfl⟩ := hi
      · exact storeOp_own hs hp hbase hw h ht
      · exact storeOp_own hs hp hbase hw h ht
      · exact storeOp_own hs hp hbase hw h ht
      · exact storeOp_own hs hp hbase hw h ht
    obtain ⟨m, cs, un, nid, free, rfl⟩ := hleft
    refine ⟨fun k hk => ?_, fun g b hother => ?_, rfl, rfl, rfl, rfl, rfl, rfl, rfl, rfl, rfl, rfl, rfl, rfl, rfl⟩
    · rw [readByte_with_seqs_work_cores, readByte_write rfl, key_add, storedBytes_length, if_pos ⟨by omega, by omega⟩, Nat.add_sub_cancel_left,
        storedBytes_getD hk]
    · rw [readByte_with_seqs_work_cores]
      by_cases hkind : g.kind = (Home.spd (s.cur.q / 4)).kind
      · rw [readByte_write hkind, storedBytes_length, if_neg]
        rintro ⟨hlo, hhi⟩
        obtain hk | hk := hother
        · exact hk hkind
        · exact hk (g.key b - (Home.spd (s.cur.q / 4)).key (maAddr f (atM s) s % 2 ^ 22)) (by omega) (by rw [key_add]; omega)
      · exact readByte_write_other hkind

end Sys2Proof.Machine
end

section
/-! PROOFS. PROBE and PREF at their issue (08 R213, R214, 09 R238, R239). -/

namespace Sys2Proof.Machine

variable {f : MA} {s : State} {op i : Nat} {t : Int}

/-- An operation of class M stands in slot M0 or M1. -/
theorem slotFor_m {n : Nat} : slotFor .m op n = 6 ∨ slotFor .m op n = 7 := by
  have hclass : ∀ n < 8, slotClass n = .m → n = 6 ∨ n = 7 := by decide
  rw [slotFor]
  split
  · next h => exact absurd h (by simp)
  · split
    · next h =>
      simp only [Bool.and_eq_true, decide_eq_true_eq] at h
      exact hclass n h.1 h.2
    · exact .inl rfl

/-- A PROBE whose block names the device window and whose table lies in the scratchpad has no cause (R213). -/
theorem probe_cause (hp : ((atM s).scalar s f.a.toNat 0).poison = false) (hn : probeSlots (s.coreOf (s.cur.q / 4)) ≠ 0)
    (htop : probeFirst (s.coreOf (s.cur.q / 4)) + probeSlots (s.coreOf (s.cur.q / 4)) ≤ 0x3E0) (hw : windowOf (probeBlock f (atM s) s) = 1) :
    (opProbe f).cause (atM s) s = none := by
  have htable : (decide (probeSlots (s.coreOf (s.cur.q / 4)) = 0) || decide (0x3E0 < probeFirst (s.coreOf (s.cur.q / 4)) + probeSlots (s.coreOf (s.cur.q / 4)))
      || decide (windowOf (probeBlock f (atM s) s) ≠ 1)) = false := by simp [hn, htop, hw]
  exact (lowestCause_false hp).trans (lowestCause_false htable)

theorem probe_hit (hroom : Room s) (hpass : Unpipelined s) (hc : (opProbe f).cause (atM s) s = none)
    (h : probeHit s (s.cur.q / 4) (probeBlock f (atM s) s) = some i) : exec (.probe f) s = goesOn (atM s) ((opProbe f).acts (atM s) s) s := by
  have hnx : (opProbe f).next (atM s) s = .seq := by
    have hx : probeHit s (atM s).core (probeBlock f (atM s) s) = some i := h
    simp only [opProbe, hx]
  exact alone_goesOn (o := opProbe f) hroom.1 hc (.inl hpass) (hres := .inr ⟨rfl, hroom⟩) (hnx := hnx)

theorem probe_miss (hroom : Room s) (hpass : Unpipelined s) (hc : (opProbe f).cause (atM s) s = none)
    (h : probeHit s (s.cur.q / 4) (probeBlock f (atM s) s) = none) (ht : InStream s (relTarget (atM s) f.off21.toInt)) :
    exec (.probe f) s = goesTo (atM s) (.free (relTarget (atM s) f.off21.toInt)) ((opProbe f).acts (atM s) s) s := by
  have hnx : (opProbe f).next (atM s) s = .free (relTarget (atM s) f.off21.toInt) := by
    have hx : probeHit s (atM s).core (probeBlock f (atM s) s) = none := h
    simp only [opProbe, hx]
  have hroom2 := hroom.2
  rw [goesTo, ← hnx]
  refine runSlot_next (o := opProbe f) hroom.1 (fun _ h => absurd h List.not_mem_nil) hc ?_ ?_ ?_ (.inr ?_) (.inr (slotFor_m.imp_right .inl))
  · rw [show passOf (s.seqOf s.cur.q) = none from hpass]
    rfl
  · exact hnx.symm ▸ targetBad_of_inStream rfl ht
  · exact hnx.symm ▸ rfl
  · exact hroom2

/-- A PREF stands alone in every bundle and is never a fault (R214). -/
theorem pref_goesOn (hs : Settled s) : exec (.pref f) s = goesOn (atM s) ((opPref f).acts (atM s) s) s :=
  alone_goesOn (o := opPref f) hs rfl (.inr rfl)

/-- Settles O26: PROBE by whether a slot holds the block, PREF by the address and its translation. -/
theorem probeResults : Obligations.ProbeResults := by
  intro f s hs
  refine ⟨fun hroom hpass hp hn htop hw => ⟨fun i h => ?_, fun h ht => ?_⟩, (opPref f).acts (atM s) s, pref_goesOn hs, fun h => ?_,
    fun hp hw h => ?_, fun hp hw h => ⟨s.cyc + 1 + s.choice ((atM s).ck 7), ?_⟩⟩
  · have hx : probeHit s (atM s).core (probeBlock f (atM s) s) = some i := h
    rw [probe_hit hroom hpass (probe_cause hp hn htop hw) h]
    simp only [opProbe, hx]
    rfl
  · have hx : probeHit s (atM s).core (probeBlock f (atM s) s) = none := h
    rw [probe_miss hroom hpass (probe_cause hp hn htop hw) h ht]
    simp only [opProbe, hx]
    rfl
  · exact if_pos (by simpa using h)
  · have hpass : ¬ (((atM s).scalar s f.a.toNat 0).poison || decide (windowOf (maAddr f (atM s) s) ≠ 1)) = true := by simp [hp, hw]
    exact (if_neg hpass).trans (if_pos h)
  · have hpass : ¬ (((atM s).scalar s f.a.toNat 0).poison || decide (windowOf (maAddr f (atM s) s) ≠ 1)) = true := by simp [hp, hw]
    exact (if_neg hpass).trans (if_neg (Bool.eq_false_iff.mp h))

end Sys2Proof.Machine
end

section
/-! PROOFS. Copies at their issue (08 R215). -/

namespace Sys2Proof.Machine

variable {f : MC} {s : State} {op a n : Nat} {srcs dsts windows : List Nat}

theorem firstOf_none {l : List (Option Nat)} (h : ∀ c ∈ l, c = none) : firstOf l = none := by
  induction l with
  | nil => rfl
  | cons c l ih =>
    rw [h c List.mem_cons_self]
    exact ih fun d hd => h d (List.mem_cons_of_mem _ hd)

theorem firstCause_none {l : List (Bool × Nat)} (h : ∀ e ∈ l, e.1 = false) : firstCause l = none := by
  rw [firstCause, List.find?_eq_none.mpr fun e he => Bool.eq_false_iff.mp (h e he)]
  rfl

/-- A range that stands in one of its windows and passes the engine's checks has no cause. -/
theorem copyRange_none {x : Ctx} (hw : windowOf a ∈ windows) (hend : windowOf ((a + n - 1) % 2 ^ 64) = windowOf a)
    (hv : validPart s x.core a n .engine = true) : copyRange x s a n windows = none := by
  have hwin : ¬ (!(windows.contains (windowOf a))) = true := by simpa using hw
  rw [copyRange, if_neg hwin, if_neg (not_not.mpr hend), hv]
  rfl

section Checks

variable (ha : ((atM s).scalar s f.a.toNat 0).poison = false) (hb : ((atM s).scalar s f.b.toNat 1).poison = false)
  (hl : ((atM s).scalar s f.l.toNat 2).poison = false) (hz : ((atM s).scalar s f.l.toNat 2).val.extractLsb' 40 8 = 0)
  (hbar : f.bar ≠ 0 → ((atM s).scalar s f.bar.toNat 3).poison = false ∧ windowOf ((atM s).scalar s f.bar.toNat 3).val.toNat = 2 ∧
    syncValid s (s.fnOf (s.cur.q / 4)) ((atM s).scalar s f.bar.toNat 3).val.toNat 16 = true ∧ ((atM s).scalar s f.bar.toNat 3).val.toNat % 16 = 0)
  (hstart : s.cyc < startAt (atM s) s f.at14.toNat)
  (hbusy : (s.work.copies.filter (fun y => y.q / 4 = s.cur.q / 4 && y.ch = f.ch.toNat)).length < 8)
  (ha64 : ((atM s).scalar s f.a.toNat 0).val.toNat % 64 = 0) (hb64 : ((atM s).scalar s f.b.toNat 1).val.toNat % 64 = 0)
  (hl64 : (((atM s).scalar s f.l.toNat 2).val.extractLsb' 0 40).toNat % 64 = 0)

include ha hb hl hz hbar hstart hbusy ha64 hb64 hl64

/-- A copy whose source and destination stand has no cause, if a CPYB's row and its length are whole (R215). -/
theorem copyOp_cause
    (hrow : op = 0x14 → ((atM s).scalar s f.b.toNat 1).val.extractLsb' 12 52 = 0 ∧ (((atM s).scalar s f.l.toNat 2).val.extractLsb' 0 40).toNat % 512 = 0)
    (hsrc : copyRange (atM s) s ((atM s).scalar s f.a.toNat 0).val.toNat (max (((atM s).scalar s f.l.toNat 2).val.extractLsb' 0 40).toNat 1) srcs = none)
    (hdst : (if op = 0x14 then firstCause [(decide (4096 < (((atM s).scalar s f.b.toNat 1).val.extractLsb' 0 12).toNat +
        (((atM s).scalar s f.l.toNat 2).val.extractLsb' 0 40).toNat / 512), cAddress)]
      else copyRange (atM s) s ((atM s).scalar s f.b.toNat 1).val.toNat (max (((atM s).scalar s f.l.toNat 2).val.extractLsb' 0 40).toNat 1) dsts) = none) :
    (copyOp f op srcs dsts).cause (atM s) s = none := by
  have hstart : ¬ startCycle (atM s) s f.at14.toNat ≤ s.cyc := Nat.not_le.mpr hstart
  simp only [copyOp]
  refine firstOf_none ?_
  simp only [List.forall_mem_cons]
  refine ⟨firstCause_none ?_, hsrc, hdst, firstCause_none ?_, ?_, firstCause_none ?_, fun _ h => absurd h List.not_mem_nil⟩
  · simp only [hz, ha, hb, hl, List.forall_mem_cons, List.not_mem_nil, false_imp_iff, implies_true, and_true, Bool.false_or, Bool.not_false, Bool.true_and,
      Bool.and_true, ne_eq, not_true, decide_false]
    exact ⟨decide_and_eq_false fun h => decide_eq_false (not_not.mpr (hrow h).1), decide_and_eq_false fun h => (hbar h).1⟩
  · simp only [ha64, hb64, hl64, List.forall_mem_cons, List.not_mem_nil, false_imp_iff, implies_true, and_true, Bool.false_or, ne_eq, not_true, decide_false]
    exact decide_and_eq_false fun h => decide_eq_false (not_not.mpr (hrow h).2)
  · by_cases h0 : f.bar = 0
    · exact if_pos h0
    · obtain ⟨-, hwin, hvalid, halign⟩ := hbar h0
      have hvalid : syncValid s (s.fnOf (atM s).core) ((atM s).scalar s f.bar.toNat 3).val.toNat 16 = true := hvalid
      rw [if_neg h0]
      exact firstCause_none (by simp [hwin, hvalid, halign])
  · have hfree : ¬ 8 ≤ (s.work.copies.filter (fun y => y.q / 4 = s.cur.q / 4 && y.ch = f.ch.toNat)).length := Nat.not_le.mpr hbusy
    rw [List.forall_mem_singleton]
    exact Bool.or_eq_false_iff.mpr ⟨decide_eq_false hstart, decide_eq_false hfree⟩

end Checks

/-- A copy whose checks hold takes its effect: with a length of zero none (R215). -/
theorem copyOp_stands (hs : Settled s) (hpass : Unpipelined s) (hc : (copyOp f op srcs dsts).cause (atM s) s = none) :
    ((((atM s).scalar s f.l.toNat 2).val.extractLsb' 0 40).toNat = 0 → runSlot .m op (copyOp f op srcs dsts) s = goesOn (atM s) [] s) ∧
    ((((atM s).scalar s f.l.toNat 2).val.extractLsb' 0 40).toNat ≠ 0 →
      runSlot .m op (copyOp f op srcs dsts) s = goesOn (atM s) [.work (fun w => { w with
        copies := w.copies ++ [{ id := w.nextId, q := s.cur.q, fn := s.fnOf (s.cur.q / 4), launch := runningLaunch s (s.cur.q / 4), op := op
                                 ch := f.ch.toNat, src := ((atM s).scalar s f.a.toNat 0).val.toNat, dst := ((atM s).scalar s f.b.toNat 1).val.toNat
                                 len := (((atM s).scalar s f.l.toNat 2).val.extractLsb' 0 40).toNat
                                 tag := ((atM s).scalar s f.l.toNat 2).val.extractLsb' 48 16
                                 bar := if f.bar = 0 then 0 else ((atM s).scalar s f.bar.toNat 3).val.toNat
                                 start := startAt (atM s) s f.at14.toNat, slot := (atM s).slot, addr := (atM s).addr, hold := (s.seqOf s.cur.q).hold }]
        nextId := w.nextId + 1 })] s) := by
  have hrun : runSlot .m op (copyOp f op srcs dsts) s = goesOn (atM s) ((copyOp f op srcs dsts).acts (atM s) s) s :=
    alone_goesOn (o := copyOp f op srcs dsts) hs hc (.inl hpass)
  rw [hrun]
  exact ⟨fun h0 => congrArg (goesOn (atM s) · s) (if_pos h0), fun h0 => congrArg (goesOn (atM s) · s) (if_neg h0)⟩

/-- A row number below 4,096 is its low twelve bits. -/
theorem rowNumber {w : Word} (h : w.toNat < 4096) : w.extractLsb' 12 52 = 0 ∧ (w.extractLsb' 0 12).toNat = w.toNat := by
  constructor
  · apply BitVec.eq_of_toNat_eq
    rw [BitVec.extractLsb'_toNat, Nat.shiftRight_eq_div_pow, Nat.div_eq_of_lt h]
    rfl
  · rw [BitVec.extractLsb'_toNat, Nat.shiftRight_zero, Nat.mod_eq_of_lt h]

/-- Settles O27: the three copies between windows by their ranges, CPYB by its rows. -/
theorem copiesIssue : Obligations.CopiesIssue := by
  intro f s hs hpass x c a b l bar len n start place stands ha hb hl hz hbar hstart hbusy ha64 hb64 hl64
  have hcause (op : Nat) (srcs dsts : List Nat) := copyOp_cause (op := op) (srcs := srcs) (dsts := dsts) ha hb hl hz hbar hstart hbusy ha64 hb64 hl64
  have hrange (v : SReg) (windows : List Nat) (h : place v windows) : copyRange x s v.val.toNat n windows = none :=
    copyRange_none h.1 h.2.1 h.2.2
  refine ⟨fun hsrc hdst => copyOp_stands hs hpass (hcause 0x11 _ _ nofun (hrange _ _ hsrc) (hrange _ _ hdst)),
    fun hsrc hdst => copyOp_stands hs hpass (hcause 0x12 _ _ nofun (hrange _ _ hsrc) (hrange _ _ hdst)),
    fun hsrc hdst => copyOp_stands hs hpass (hcause 0x13 _ _ nofun (hrange _ _ hsrc) (hrange _ _ hdst)),
    fun hsrc hrow hlast h512 => copyOp_stands hs hpass (hcause 0x14 _ _ (fun _ => ⟨(rowNumber hrow).1, h512⟩) (hrange _ _ hsrc) ?_)⟩
  rw [if_pos rfl, (rowNumber hrow).2]
  exact firstCause_false (decide_eq_false (Nat.not_lt.mpr hlast))

end Sys2Proof.Machine
end

section
/-! PROOFS. Drains, barrier operations, WAITV and atomics at their issue (08 R218 to R222, R228). -/

namespace Sys2Proof.Machine

variable {f : MS} {s : State} {o : Op} {r : SReg} {op n reads whole align : Nat}

theorem syncCause_none (h : SyncPasses s r n align) : syncCause (atM s) s r n align = none := by
  obtain ⟨hp, hpass, hw⟩ := h
  exact (if_neg (Bool.eq_false_iff.mp hp)).trans (minCause_none hpass (if_pos hw))

/-- A location that passes with an operand that is sound has no cause. -/
theorem syncCause_operand (h : SyncPasses s r n align) {p : Bool} (hp : p = false) :
    minCause (syncCause (atM s) s r n align) (firstCause [(p, cPoison)]) = none :=
  minCause_none (syncCause_none h) (firstCause_false hp)

theorem barinit_cause (hb : ((atM s).scalar s f.b.toNat 1).poison = false) (h : SyncPasses s ((atM s).scalar s f.a.toNat 0) 16 16)
    (hcount : ((atM s).scalar s f.b.toNat 1).val.extractLsb' 0 48 ≠ 0) : (opBarinit f).cause (atM s) s = none :=
  minCause_none (syncCause_none h) ((lowestCause_false (by rw [decide_eq_false hcount, Bool.and_false])).trans (lowestCause_false hb))

/-- A tree object's header that is whole has no cause (R219, R220). -/
theorem barinitTree_cause (hb : ((atM s).scalar s f.b.toNat 1).poison = false)
    (h : SyncPasses s ((atM s).scalar s f.a.toNat 0) (treeHead ((atM s).scalar s f.b.toNat 1).val.toNat).bytes 64)
    (hzero : ((atM s).scalar s f.b.toNat 1).val.toNat / 2 ^ 25 % 2 ^ 23 = 0) (hlt : ((atM s).scalar s f.b.toNat 1).val.toNat < 2 ^ 49)
    (hkind : (treeHead ((atM s).scalar s f.b.toNat 1).val.toNat).kind ≠ 3) (hcores : (treeHead ((atM s).scalar s f.b.toNat 1).val.toNat).ncore ≤ 256)
    (hpos : 0 < (treeHead ((atM s).scalar s f.b.toNat 1).val.toNat).count) (hmost : (treeHead ((atM s).scalar s f.b.toNat 1).val.toNat).count ≤ 4096) :
    (opBarinitTree f).cause (atM s) s = none := by
  have hhigh : ((atM s).scalar s f.b.toNat 1).val.toNat / 2 ^ 49 = 0 := Nat.div_eq_of_lt hlt
  refine minCause_none (syncCause_none h) ((lowestCause_false ?_).trans (lowestCause_false hb))
  simp only [hzero, hhigh, hkind, Nat.not_lt.mpr hcores, hpos.ne', Nat.not_lt.mpr hmost, ne_eq, not_true, decide_false, Bool.or_self, Bool.and_false]

/-- Settles O28: each operation by its own check; a drain has none. -/
theorem syncOperationsIssue : Obligations.SyncOperationsIssue := by
  intro f s hs hpass
  refine ⟨alone_goesOn (o := opDrainl f) hs rfl (.inl hpass), alone_goesOn (o := opDrainr f) hs rfl (.inl hpass),
    alone_goesOn (o := opDrainc f) hs rfl (.inl hpass), fun hb => ⟨fun h hcount => ?_, fun h => ?_, fun h => ?_, fun h => ?_,
      fun h hzero hlt hkind hcores hpos hmost => ?_⟩⟩
  · exact alone_goesOn (o := opBarinit f) hs (barinit_cause hb h hcount) (.inl hpass)
  · exact alone_goesOn (o := opBararv f) hs (syncCause_operand h hb) (.inl hpass)
  · exact alone_goesOn (o := opBarwait f) hs (syncCause_operand h hb) (.inl hpass)
  · exact alone_goesOn (o := opWaitv f) hs (syncCause_operand h hb) (.inl hpass)
  · exact alone_goesOn (o := opBarinitTree f) hs (barinitTree_cause hb h hzero hlt hkind hcores hpos hmost) (.inl hpass)

/-! Atomics. -/

/-- The result that an atomic awaits (R221). -/
def atomicFlight (f : MS) (x : Ctx) (s : State) : Flight :=
  { id := 0, q := x.q, dest := .scalar f.d.toNat, val := .word 0 false, issue := s.cyc, due := s.cyc + 8 * 2 ^ f.lat.toNat, slot := x.slot
    addr := x.addr, missing := 1, hnd := (s.seqOf x.q).hnd }

/-- The request of an atomic of a kind, whose operands are poisoned or not, lost or not (R228). -/
def atomicAccess (f : MS) (whole : Nat) (kind : AccessKind) (p lost : Bool) (x : Ctx) (s : State) : Access :=
  { id := 0, q := x.q, fn := s.fnOf x.core, launch := runningLaunch s x.core, slot := x.slot, addr := x.addr, kind := kind
    va := (x.scalar s f.a.toNat 0).val.toNat, size := whole, poison := [p], issue := s.cyc
    at_ := s.cyc + 1 + s.choice (x.ck 10) % Config.syeDelay, bound := s.cyc + 8 * 2 ^ f.lat.toNat, lost := lost }

theorem atomicOp_acts {kind : Ctx → State → AccessKind} {x : Ctx} : ∃ lost, (atomicOp f n reads kind whole).acts x s =
    [.work (fun w => (w.push (atomicFlight f x s)).pushAccess s { atomicAccess f whole (kind x s)
      (decide (1 ≤ reads) && (x.scalar s f.b.toNat 1).poison || decide (2 ≤ reads) && (x.scalar s f.c.toNat 2).poison) lost x s with
        flight := some w.nextId })] := by
  simp only [atomicOp]
  exact ⟨_, rfl⟩

/-- A request reaches the SYE within 32 cycles (R228). -/
theorem atomicAccess_at {kind : AccessKind} {p lost : Bool} {x : Ctx} :
    s.cyc < (atomicAccess f whole kind p lost x s).at_ ∧ (atomicAccess f whole kind p lost x s).at_ ≤ s.cyc + 32 := by
  have hdelay : s.choice (x.ck 10) % Config.syeDelay < 32 := Nat.mod_lt _ (by decide)
  simp only [atomicAccess]
  omega

/-- The flight and the request of an atomic whose location passes (R221, R228). -/
theorem atomicOp_reaches {kind : Ctx → State → AccessKind} {p : Bool} (hroom : Room s) (hpass : Unpipelined s)
    (hp : (decide (1 ≤ reads) && ((atM s).scalar s f.b.toNat 1).poison || decide (2 ≤ reads) && ((atM s).scalar s f.c.toNat 2).poison) = p)
    (h : SyncPasses s ((atM s).scalar s f.a.toNat 0) n n) :
    ∃ (fl : Flight) (acc : Access), runSlot .m op (atomicOp f n reads kind whole) s =
        goesOn (atM s) [.work (fun w => (w.push fl).pushAccess s { acc with flight := some w.nextId })] s ∧
      fl.dest = .scalar f.d.toNat ∧ fl.missing = 1 ∧ fl.due = s.cyc + 8 * 2 ^ f.lat.toNat ∧ acc.kind = kind (atM s) s ∧
      acc.va = ((atM s).scalar s f.a.toNat 0).val.toNat ∧ acc.size = whole ∧ acc.poison = [p] ∧ s.cyc < acc.at_ ∧ acc.at_ ≤ s.cyc + 32 := by
  have hrun : runSlot .m op (atomicOp f n reads kind whole) s = goesOn (atM s) ((atomicOp f n reads kind whole).acts (atM s) s) s :=
    alone_goesOn (o := atomicOp f n reads kind whole) hroom.1 (syncCause_none h) (.inl hpass) (hres := .inr ⟨rfl, hroom⟩)
  obtain ⟨lost, hacts⟩ := atomicOp_acts (f := f) (n := n) (reads := reads) (whole := whole) (kind := kind) (x := atM s) (s := s)
  rw [hp] at hacts
  exact ⟨atomicFlight f (atM s) s, atomicAccess f whole (kind (atM s) s) p lost (atM s) s, hrun.trans (by rw [hacts]), rfl, rfl, rfl, rfl, rfl, rfl, rfl,
    atomicAccess_at⟩

/-- Settles O29: every atomic and contribution is one operation, with its operands. -/
theorem atomicsIssue : Obligations.AtomicsIssue := by
  intro f s hroom hpass
  refine ⟨atomicOp_reaches hroom hpass ?_, atomicOp_reaches hroom hpass ?_, atomicOp_reaches hroom hpass ?_, atomicOp_reaches hroom hpass ?_,
    atomicOp_reaches hroom hpass ?_, atomicOp_reaches hroom hpass ?_, atomicOp_reaches hroom hpass ?_, atomicOp_reaches hroom hpass ?_,
    atomicOp_reaches hroom hpass ?_, atomicOp_reaches hroom hpass ?_, atomicOp_reaches hroom hpass ?_, atomicOp_reaches hroom hpass ?_,
    atomicOp_reaches hroom hpass ?_⟩ <;> simp

end Sys2Proof.Machine
end

section
/-! PROOFS. Channel, reducer and journal operations at their issue (08 R223 to R226, 16 R331 to R333, 17 R336 to R340). -/

namespace Sys2Proof.Machine

variable {h : MH} {f : MS} {j : MJ} {s : State} {step op marks : Nat}

/-! Channels. -/

theorem chsend_goesOn (hs : Settled s) (hpass : Unpipelined s) (hv : Allotted s [h.v.toNat]) (ht : chtValid (s.chtOf (s.cur.q / 4) h.ch.toNat) 1 = true) :
    exec (.chsend h) s = goesOn (atM s) ((opChsend h).acts (atM s) s) s :=
  alone_goesOn (o := opChsend h) hs (firstCause_false (congrArg not ht)) (.inl hpass) hv

theorem chrecv_goesOn (hroom : Room s) (hpass : Unpipelined s) (hv : Allotted s [h.v.toNat]) (ht : chtValid (s.chtOf (s.cur.q / 4) h.ch.toNat) 0 = true)
    (hover : (s.chtOf (s.cur.q / 4) h.ch.toNat).getLsbD 91 = false) : exec (.chrecv h) s = goesOn (atM s) ((opChrecv h).acts (atM s) s) s :=
  alone_goesOn (o := opChrecv h) hroom.1 ((lowestCause_false (congrArg not ht)).trans (lowestCause_false hover)) (.inl hpass) hv (.inr ⟨rfl, hroom⟩)

/-! The stack reducer's commands. -/

/-- A reducer command whose descriptor passes, with a channel and a start to come, has no cause (R224). -/
theorem srcmdOp_cause (ha : ((atM s).scalar s f.a.toNat 0).poison = false) (hb : ((atM s).scalar s f.b.toNat 1).poison = false)
    (hc : ((atM s).scalar s f.c.toNat 2).poison = false) (hch : (((atM s).scalar s f.b.toNat 1).val.extractLsb' 0 4).toNat < 12)
    (hstart : s.cyc < startAt (atM s) s (((atM s).scalar s f.c.toNat 2).val.extractLsb' 0 16).toNat)
    (hdesc : Passes s ((atM s).scalar s f.a.toNat 0).val.toNat 64 64 .engine) (hw : windowOf ((atM s).scalar s f.a.toNat 0).val.toNat = 4) :
    (srcmdOp f step).cause (atM s) s = none := by
  refine minCause_none ((if_neg (Bool.eq_false_iff.mp ha)).trans (minCause_none hdesc (if_pos hw))) (lowestCause_none ?_)
  simp only [List.forall_mem_cons]
  refine ⟨?_, ?_, decide_eq_false (Nat.not_le.mpr hstart), fun _ h => absurd h List.not_mem_nil⟩
  · rw [decide_eq_false (Nat.not_le.mpr hch), Bool.and_false]
  · rw [ha, hb, hc]
    rfl

theorem srcmdOp_goesOn (hs : Settled s) (hpass : Unpipelined s) (hc : (srcmdOp f step).cause (atM s) s = none) :
    runSlot .m op (srcmdOp f step) s = goesOn (atM s) ((srcmdOp f step).acts (atM s) s) s :=
  alone_goesOn (o := srcmdOp f step) hs hc (.inl hpass)

/-! The journal's instructions. -/

/-- A record may be appended: the module replays nothing, has a partner, and the emit buffer and the ring have room (R331, R339). -/
def JournalSpace (s : State) : Prop :=
  s.chip.journal.ract = false ∧ s.chip.journal.paired = true ∧ (s.chip.emits.filter (fun e => !e.replay)).length < 256 ∧
    ∀ n, ringSize s.chip.journal.ringLog = some n → s.chip.journal.tail - s.chip.journal.head < n

theorem appendCauses_none (hspace : JournalSpace s) (hmarks : marks < 64) : ∀ e ∈ appendCauses (atM s) s marks, e.1 = false := by
  obtain ⟨hract, hpaired, hemits, hring⟩ := hspace
  have hprior : 2000 ∉ (atM s).prior := List.not_mem_nil
  rw [appendCauses]
  refine List.forall_mem_cons.mpr ⟨hract, List.forall_mem_singleton.mpr ?_⟩
  cases hsize : ringSize s.chip.journal.ringLog with
  | none => simpa [hpaired, hsize, hprior, hmarks] using hemits
  | some n => simpa [hpaired, hsize, hprior, hmarks, hring n hsize] using hemits

/-- The target of a record's emission, where it has one, may be emitted to (R226). -/
theorem emission_cause (he : j.c = 0 ∨ ((atM s).scalar s j.c.toNat 2).poison = false ∧ emitCause (atM s) s ((atM s).scalar s j.c.toNat 2).val = none) :
    (if j.c = 0 then none else emitCause (atM s) s ((atM s).scalar s j.c.toNat 2).val) = none ∧
      (decide (j.c ≠ 0) && ((atM s).scalar s j.c.toNat 2).poison) = false := by
  obtain h0 | ⟨hp, hc⟩ := he
  · exact ⟨if_pos h0, by rw [decide_eq_false (not_not.mpr h0), Bool.false_and]⟩
  · exact ⟨by rw [hc, ite_self], by rw [hp, Bool.and_false]⟩

section Journal

variable (hs : Settled s) (hpass : Unpipelined s) (ha : ((atM s).scalar s j.a.toNat 0).poison = false)

include hs hpass ha

theorem jemit_goesOn (hb : ((atM s).scalar s j.b.toNat 1).poison = false) (hspace : JournalSpace s)
    (he : j.c = 0 ∨ ((atM s).scalar s j.c.toNat 2).poison = false ∧ emitCause (atM s) s ((atM s).scalar s j.c.toNat 2).val = none) :
    exec (.jemit j) s = goesOn (atM s) ((opJemit j).acts (atM s) s) s := by
  obtain ⟨htarget, hpoison⟩ := emission_cause he
  have hc : (opJemit j).cause (atM s) s = none := by
    refine minCause_none htarget (lowestCause_none (List.forall_mem_cons.mpr ⟨?_, appendCauses_none hspace (by decide)⟩))
    rw [ha, hb, hpoison]
    rfl
  exact alone_goesOn (o := opJemit j) hs hc (.inl hpass)

theorem jmark_goesOn (hb : ((atM s).scalar s j.b.toNat 1).poison = false) (hspace : JournalSpace s)
    (hmarks : s.chip.journal.marks.length + (if s.chip.journal.freed.1 = s.cyc then s.chip.journal.freed.2 else 0) < 64) :
    exec (.jmark j) s = goesOn (atM s) ((opJmark j).acts (atM s) s) s := by
  have hcount : s.chip.journal.marks.length + (0 + if s.chip.journal.freed.1 = s.cyc then s.chip.journal.freed.2 else 0) < 64 := by rwa [Nat.zero_add]
  have hc : (opJmark j).cause (atM s) s = none := by
    refine lowestCause_none (List.forall_mem_cons.mpr ⟨?_, appendCauses_none hspace hcount⟩)
    rw [ha, hb]
    rfl
  exact alone_goesOn (o := opJmark j) hs hc (.inl hpass)

/-- A JCMP whose record is the one at the cursor goes on (R332). -/
theorem jcmp_goesOn (hb : ((atM s).scalar s j.b.toNat 1).poison = false)
    (he : j.c = 0 ∨ ((atM s).scalar s j.c.toNat 2).poison = false ∧ emitCause (atM s) s ((atM s).scalar s j.c.toNat 2).val = none)
    (hact : cursorActive (atM s) s = true) (hgood : (hostedRecord s s.chip.journal.cur).2 = true)
    (hkind : (hostedRecord s s.chip.journal.cur).1.kind = j.kind.toNat)
    (hstream : (hostedRecord s s.chip.journal.cur).1.stream = (((atM s).scalar s j.b.toNat 1).val.extractLsb' 0 16).toNat)
    (hpayload : (hostedRecord s s.chip.journal.cur).1.payload = ((atM s).scalar s j.a.toNat 0).val) :
    exec (.jcmp j) s = goesOn (atM s) ((opJcmp j).acts (atM s) s) s := by
  obtain ⟨htarget, hpoison⟩ := emission_cause he
  have hcursor : cursorFor (atM s) s = s.chip.journal.cur := rfl
  have hc : (opJcmp j).cause (atM s) s = none := by
    refine minCause_none htarget (lowestCause_none (List.forall_mem_cons.mpr ⟨?_, List.forall_mem_singleton.mpr ?_⟩))
    · rw [ha, hb, hpoison]
      rfl
    · rw [hcursor, hact, hgood, hkind, hstream, hpayload, decide_eq_true rfl, decide_eq_true rfl, decide_eq_true rfl]
      rfl
  exact alone_goesOn (o := opJcmp j) hs hc (.inl hpass)

theorem jtrunc_goesOn (hok : (if s.chip.journal.truncatesHosted ((atM s).scalar s j.a.toNat 0).val.toNat then
      s.chip.journal.matched.contains ((atM s).scalar s j.a.toNat 0).val.toNat
    else s.chip.journal.marks.contains ((atM s).scalar s j.a.toNat 0).val.toNat) = true) :
    exec (.jtrunc j) s = goesOn (atM s) ((opJtrunc j).acts (atM s) s) s :=
  alone_goesOn (o := opJtrunc j) hs ((lowestCause_false ha).trans (lowestCause_false (congrArg not hok))) (.inl hpass)

end Journal

theorem truncatesHosted_iff {k : Journal} {n : Nat} : k.truncatesHosted n = true ↔ k.hv = true ∧ k.wfail = true ∧ n ∈ k.hostedMarks := by
  simp [Journal.truncatesHosted, and_assoc]

/-- Settles O30: channel operations by their entry, a reducer command by its descriptor, the journal's by its two rings. -/
theorem channelReducerAndJournalIssue : Obligations.ChannelReducerAndJournalIssue := by
  intro h f j s hs hpass
  refine ⟨fun hv => ⟨fun ht => ⟨_, chsend_goesOn hs hpass hv ht⟩, fun hroom ht hover => ⟨fun hpos => ?_, fun hempty => ?_⟩⟩,
    fun ha hb hc hch hstart hdesc hw => ?_, fun ha => ⟨fun hb hspace he => jemit_goesOn hs hpass ha hb hspace he,
      fun hb hspace hmarks => jmark_goesOn hs hpass ha hb hspace hmarks, fun hb he hract hcur hgood hkind hstream hpayload => ?_,
      fun hh hmatched => ?_, fun hh hmark => ?_⟩⟩
  · rw [chrecv_goesOn hroom hpass hv ht hover]
    exact congrArg (goesOn (atM s) · s) (if_pos hpos)
  · rw [chrecv_goesOn hroom hpass hv ht hover]
    exact congrArg (goesOn (atM s) · s) (if_neg (Nat.not_lt.mpr hempty.le))
  · have hcause (step : Nat) : (srcmdOp f step).cause (atM s) s = none := srcmdOp_cause ha hb hc hch hstart hdesc hw
    exact ⟨srcmdOp_goesOn hs hpass (hcause 0), srcmdOp_goesOn hs hpass (hcause 1), srcmdOp_goesOn hs hpass (hcause 2),
      srcmdOp_goesOn hs hpass (hcause 3), srcmdOp_goesOn hs hpass (hcause 4), srcmdOp_goesOn hs hpass (hcause 5), srcmdOp_goesOn hs hpass (hcause 6),
      srcmdOp_goesOn hs hpass (hcause 7), srcmdOp_goesOn hs hpass (hcause 8)⟩
  · have hact : cursorActive (atM s) s = true := by
      rw [cursorActive, hract, Bool.true_and]
      exact decide_eq_true hcur
    rw [jcmp_goesOn hs hpass ha hb he hact hgood hkind hstream hpayload]
    simp only [opJcmp, cursorChecks, hact, if_true]
    rfl
  · have hrun := truncatesHosted_iff.mpr hh
    rw [jtrunc_goesOn hs hpass ha (by rw [if_pos hrun]; exact List.contains_iff_mem.mpr hmatched)]
    simp only [opJtrunc, hrun, if_true]
  · have hrun := fun h => hh (truncatesHosted_iff.mp h)
    rw [jtrunc_goesOn hs hpass ha (by rw [if_neg hrun]; exact List.contains_iff_mem.mpr hmark)]
    refine ⟨_, rfl, fun ch => ?_⟩
    split
    · next hle => exact if_pos hle
    · next hlt => exact ⟨_, if_neg hlt⟩

end Sys2Proof.Machine
end

section
/-! PROOFS. XE commands at their issue (08 R186 to R206). -/

namespace Sys2Proof.Machine

variable {c : XC} {d : XD} {z : XZ} {u : XU} {f : VR} {s : State} {x : Ctx} {form at16 dur a n align : Nat} {whole : Bool}

/-- A command that may be accepted has none of the causes that every XE command has. -/
theorem Accepts.causes (h : Accepts s at16 dur) : ∀ e ∈ xeCauses (atX s) s at16 dur, e.1 = false := by
  obtain ⟨hfa, hfb, hboth, hstart, hapart⟩ := h
  have hformats : formatsRefused (s.fmt (atX s).q) = false := by
    simp only [formatsRefused, show (atX s).q = s.cur.q from rfl, hfa, hfb, hboth, decide_false, Bool.or_self, bne_self_eq_false]
  have hmeets : (s.mxeCommands (atX s).core).any (fun y =>
      decide (startCycle (atX s) s at16 < y.start + y.dur) && decide (y.start < startCycle (atX s) s at16 + dur)) = false := by
    rw [List.any_eq_false]
    intro y hy hmeet
    simp only [Bool.and_eq_true, decide_eq_true_eq] at hmeet
    exact hapart y hy hmeet.1 hmeet.2
  simp only [xeCauses, List.forall_mem_cons]
  exact ⟨hformats, decide_eq_false (Nat.not_le.mpr hstart), hmeets, fun _ h => absurd h List.not_mem_nil⟩

/-! MCALL. -/

/-- An MCALL of an entry that is valid, with descriptors that are whole, has no cause (R189, R193, R205). -/
theorem mcall_cause (hvalid : (s.routineOf (s.cur.q / 4) c.rtn.toNat).getLsbD 12 = true)
    (hdescs : ∀ d ∈ mcallDescs c (atX s) s, (d.extractLsb' 18 2).toNat < 2 ∧ d.toNat < 2 ^ 20)
    (hck : (s.routineOf (s.cur.q / 4) c.rtn.toNat).getLsbD 40 = true →
      (mcallDescs c (atX s) s).length ≤ 1 ∧ ∀ d ∈ mcallDescs c (atX s) s, (d.extractLsb' 18 2).toNat ≠ 1)
    (ha : Accepts s c.at16.toNat (entryDur (s.routineOf (s.cur.q / 4) c.rtn.toNat))) : (opMcall c).cause (atX s) s = none := by
  refine lowestCause_none (List.forall_mem_cons.mpr ⟨?_, ha.causes⟩)
  have hwhole : (mcallDescs c (atX s) s).any (fun d => decide (2 ≤ descLayout d) || decide (d.toNat / 2 ^ 20 ≠ 0)) = false := by
    rw [List.any_eq_false]
    intro d hd hbad
    obtain ⟨hlayout, hlt⟩ := hdescs d hd
    rw [descLayout, decide_eq_false (Nat.not_le.mpr hlayout), decide_eq_false (not_not.mpr (Nat.div_eq_of_lt hlt))] at hbad
    exact Bool.false_ne_true hbad
  have hone : (entryCk (s.routineOf (s.cur.q / 4) c.rtn.toNat) && (decide (1 < (mcallDescs c (atX s) s).length) ||
      (mcallDescs c (atX s) s).any (fun d => decide (descLayout d = 1)))) = false := by
    cases hk : entryCk (s.routineOf (s.cur.q / 4) c.rtn.toNat) with
    | false => rfl
    | true =>
      obtain ⟨hlen, hlayout⟩ := hck hk
      have hany : (mcallDescs c (atX s) s).any (fun d => decide (descLayout d = 1)) = false :=
        List.any_eq_false.mpr fun d hd h => hlayout d hd (of_decide_eq_true h)
      rw [hany, decide_eq_false (Nat.not_lt.mpr hlen)]
      rfl
  have hcore : (atX s).core = s.cur.q / 4 := rfl
  simp only [hcore, hvalid, hwhole, hone, Bool.not_true, Bool.or_self]

/-! Drains. -/

/-- The output rows of a drain (R200). -/
def outputRows (d : XD) (s : State) : Nat := if fmtAct (s.fmt s.cur.q) = 0 then d.nrow.toNat + 1 else (d.nrow.toNat + 1) / 4

/-- The duration of a drain that compares checksums or not (R200, R205). -/
def drainDur (d : XD) (s : State) (ck : Bool) : Nat := 4 + outputRows d s + (if ck then outputRows d s + 1024 else 0)

section Drain

variable (hact : fmtAct (s.fmt s.cur.q) = 0 ∨ fmtAct (s.fmt s.cur.q) = 2 ∧ (d.nrow.toNat + 1) % 4 = 0)

include hact

/-- FMT.ACT allows the drain its output rows. -/
theorem drainOut_eq_outputRows : drainOut (s.fmt s.cur.q) (d.nrow.toNat + 1) = some (outputRows d s) := by
  obtain h0 | ⟨h2, h4⟩ := hact
  · rw [drainOut, outputRows, if_pos h0, if_pos h0]
  · have h0 : fmtAct (s.fmt s.cur.q) ≠ 0 := by omega
    rw [drainOut, outputRows, if_neg h0, if_neg h0]
    exact if_pos (by simp [h2, h4])

variable (hplaces : ∀ r, r < outputRows d s → classify s (s.cur.q / 4) (drainRowAddr (s.mpOf (s.cur.q / 4) d.mpt.toNat) r) 2048 64 .engine = none)
  (hchecked : d.ck = 1 → fmtAct (s.fmt s.cur.q) = 0 ∧
    ∃ k, (s.coreOf (s.cur.q / 4)).chk.records.getLast? = some k ∧ k.row0 = d.row0.toNat ∧ k.nrow = d.nrow.toNat + 1)

include hplaces hchecked

/-- A drain that its format, its rows and the record it compares with allow has no cause (R200, R201, R205). -/
theorem drainCmd_cause (htriple : form = 3 → (drainTriple d (atX s) s).toNat ≤ 509)
    (hwindow : form = 1 ∨ form = 2 → ((s.mpOf (s.cur.q / 4) d.mpt.toNat).extractLsb' 48 2).toNat = 1)
    (ha : Accepts s d.at16.toNat (drainDur d s (decide (d.ck = 1) && decide (form % 3 = 0)))) : (drainCmd d form).cause (atX s) s = none := by
  have hq : (atX s).q = s.cur.q := rfl
  have hcore : (atX s).core = s.cur.q / 4 := rfl
  simp only [drainCmd, hq, hcore, drainOut_eq_outputRows hact, Option.getD_some]
  refine minCause_none ?_ (lowestCause_none (List.forall_mem_cons.mpr ⟨?_, ha.causes⟩))
  · rw [if_neg]
    · exact foldl_keeps_none fun r hr => minCause_none rfl (hplaces r (List.mem_range.mp hr))
    · simpa [imp_iff_not_or] using hwindow
  · have hthree : (decide (form = 3) && decide (509 < (drainTriple d (atX s) s).toNat)) = false :=
      decide_and_eq_false fun h => decide_eq_false (Nat.not_lt.mpr (htriple h))
    rw [Option.isNone_some, hthree, Bool.false_or, Bool.false_or]
    refine decide_and_eq_false fun hck => ?_
    obtain ⟨h0, k, hk, hrow, hn⟩ := hchecked hck
    simp [h0, hk, hrow, hn]

/-- A drain that may be accepted stands as a command of its duration. -/
theorem drainCmd_goesOn {op : Nat} {ck : Bool} (hs : Settled s) (hpass : Unpipelined s) (hck : (decide (d.ck = 1) && decide (form % 3 = 0)) = ck)
    (hrows : Allotted s ((List.range (d.nrow.toNat + 1)).map (fun i => d.row0.toNat + i)))
    (htriple : form = 3 → (drainTriple d (atX s) s).toNat ≤ 509 ∧ Allotted s [(drainTriple d (atX s) s).toNat, (drainTriple d (atX s) s).toNat + 1, (drainTriple d (atX s) s).toNat + 2])
    (hwindow : form = 1 ∨ form = 2 → ((s.mpOf (s.cur.q / 4) d.mpt.toNat).extractLsb' 48 2).toNat = 1)
    (ha : Accepts s d.at16.toNat (drainDur d s ck))
    (hx : standing .x op s = atX s := by rfl) :
    runSlot .x op (drainCmd d form) s = goesOn (atX s) [acceptCommand (atX s) s (.drain form d.row0.toNat (d.nrow.toNat + 1) (d.clamp = 1) (d.ck = 1)
      (s.mpOf (s.cur.q / 4) d.mpt.toNat) ((drainTriple d (atX s) s).toNat % 512)) d.at16.toNat (drainDur d s ck)
      (if d.ck = 1 then (s.coreOf (s.cur.q / 4)).chk.records.getLast?.map CkRecord.cmd else none)] s := by
  subst hck
  have hc := drainCmd_cause hact hplaces hchecked (fun h => (htriple h).1) hwindow ha
  have hall : Allotted s ((drainCmd d form).rows (atX s) s) := by
    intro r hr
    obtain hr | hr := List.mem_append.mp hr
    · exact hrows r hr
    · split at hr
      · next h => exact (htriple (by simp at h; exact h.1)).2 r hr
      · exact absurd hr List.not_mem_nil
  have hrun : runSlot .x op (drainCmd d form) s = goesOn (atX s) ((drainCmd d form).acts (atX s) s) s :=
    alone_goesOn (o := drainCmd d form) hs hc (.inl hpass) hall (hx := hx)
  have hq : (atX s).q = s.cur.q := rfl
  rw [hrun]
  simp only [drainCmd, hq, drainOut_eq_outputRows hact, Option.getD_some]
  rfl

end Drain

/-! MZERO, MUCLD, MBLD, MPSET, THSET, MCHKS. -/

/-- A range that passes the checks ends in the window it begins in (R232). -/
theorem Passes.last {use : Use} (h : Passes s a n align use) : windowOf ((a + n - 1) % 2 ^ 64) = windowOf a := by
  rw [Passes, classify] at h
  split at h
  · exact absurd h (by simp)
  · split at h
    · exact absurd h (by simp)
    · next hlast => exact not_not.mp hlast

theorem engineSource_none (hpass : Passes s a n align .engine) (hw : windowOf a = 4) : engineSource (atX s) s a n align whole = none := by
  have hlast : ¬ windowOf ((a + n - 1) % 2 ^ 64) ≠ 4 := not_not.mpr (hpass.last.trans hw)
  refine minCause_none hpass (if_pos ?_)
  rw [decide_eq_true hw, decide_eq_false hlast, Bool.and_false]
  rfl

theorem mzero_goesOn (hs : Settled s) (hrows : Allotted s ((List.range (z.nrow.toNat + 1)).map (fun i => z.row0.toNat + i)))
    (ha : Accepts s z.at16.toNat (1 + (z.nrow.toNat + 16) / 16)) : exec (.mzero z) s = goesOn (atX s) ((opMzero z).acts (atX s) s) s :=
  alone_goesOn (o := opMzero z) hs (lowestCause_none ha.causes) (.inr rfl) hrows

section Source

variable (hs : Settled s) (ha : ((atX s).scalar s u.a.toNat 0).poison = false) (hb : ((atX s).scalar s u.b.toNat 1).poison = false)

include hs ha hb

/-- MUCLD: words of the microcode store from the own scratchpad (R198). -/
theorem mucld_goesOn
    (hend : (((atX s).scalar s u.b.toNat 1).val.extractLsb' 8 12).toNat + mucldCount ((atX s).scalar s u.b.toNat 1).val ≤ 4096)
    (hlt : ((atX s).scalar s u.b.toNat 1).val.toNat < 2 ^ 57)
    (hpass : Passes s ((atX s).scalar s u.a.toNat 0).val.toNat (8 * mucldCount ((atX s).scalar s u.b.toNat 1).val) 8 .engine)
    (hw : windowOf ((atX s).scalar s u.a.toNat 0).val.toNat = 4) (hacc : Accepts s u.at16.toNat (4 + (mucldCount ((atX s).scalar s u.b.toNat 1).val + 31) / 32)) :
    exec (.mucld u) s = goesOn (atX s) ((opMucld u).acts (atX s) s) s := by
  have hc : (opMucld u).cause (atX s) s = none := by
    refine minCause_none ((if_neg (by rw [ha, hb]; exact Bool.false_ne_true)).trans (engineSource_none hpass hw))
      (lowestCause_none (List.forall_mem_cons.mpr ⟨?_, List.forall_mem_cons.mpr ⟨by rw [ha, hb]; rfl, hacc.causes⟩⟩))
    rw [decide_eq_false (Nat.not_lt.mpr hend), decide_eq_false (not_not.mpr (Nat.div_eq_of_lt hlt)), Bool.or_self, Bool.and_false]
  exact alone_goesOn (o := opMucld u) hs hc (.inr rfl)

/-- MBLD: rows of the bias store from the own scratchpad (R199). -/
theorem mbld_goesOn
    (hend : (((atX s).scalar s u.b.toNat 1).val.extractLsb' 0 12).toNat + mbldCount ((atX s).scalar s u.b.toNat 1).val ≤ 4096)
    (hlt : ((atX s).scalar s u.b.toNat 1).val.toNat < 2 ^ 24)
    (hpass : Passes s ((atX s).scalar s u.a.toNat 0).val.toNat (512 * mbldCount ((atX s).scalar s u.b.toNat 1).val) 64 .engine)
    (hw : windowOf ((atX s).scalar s u.a.toNat 0).val.toNat = 4) (hacc : Accepts s u.at16.toNat (4 + (mbldCount ((atX s).scalar s u.b.toNat 1).val + 1) / 2)) :
    exec (.mbld u) s = goesOn (atX s) ((opMbld u).acts (atX s) s) s := by
  have hc : (opMbld u).cause (atX s) s = none := by
    refine minCause_none ((if_neg (by rw [ha, hb]; exact Bool.false_ne_true)).trans (engineSource_none hpass hw))
      (lowestCause_none (List.forall_mem_cons.mpr ⟨?_, List.forall_mem_cons.mpr ⟨by rw [ha, hb]; rfl, hacc.causes⟩⟩))
    rw [decide_eq_false (Nat.not_lt.mpr hend), decide_eq_false (not_not.mpr (Nat.div_eq_of_lt hlt)), Bool.or_self, Bool.and_false]
  exact alone_goesOn (o := opMbld u) hs hc (.inr rfl)

end Source

/-- A THSET whose tile lies in the device window has no cause (R197). -/
theorem thset_cause (ha : ((atX s).scalar s (f.a.toNat % 64) 0).poison = false) (hb : ((atX s).scalar s (f.b.toNat % 64) 1).poison = false)
    (hlt : ((atX s).scalar s (f.b.toNat % 64) 1).val.toNat < 2 ^ 32) (hpitch : (((atX s).scalar s (f.b.toNat % 64) 1).val.extractLsb' 0 24).toNat % 64 = 0)
    (hbase : ((atX s).scalar s (f.a.toNat % 64) 0).val.toNat % 64 = 0) (hw : windowOf ((atX s).scalar s (f.a.toNat % 64) 0).val.toNat = 1)
    (hend : windowOf (((atX s).scalar s (f.a.toNat % 64) 0).val.toNat + (((atX s).scalar s (f.b.toNat % 64) 1).val.extractLsb' 24 5).toNat *
      (((atX s).scalar s (f.b.toNat % 64) 1).val.extractLsb' 0 24).toNat + 2047) = 1) : (opThset f).cause (atX s) s = none := by
  refine lowestCause_none ?_
  simp only [List.forall_mem_cons]
  refine ⟨?_, ?_, ?_, fun _ h => absurd h List.not_mem_nil⟩
  · rw [decide_eq_false (not_not.mpr (Nat.div_eq_of_lt hlt)), decide_eq_false (not_not.mpr hpitch), decide_eq_false (not_not.mpr hbase), Bool.or_self,
      Bool.and_false, Bool.and_false, Bool.or_self]
  · rw [ha, hb]
    rfl
  · rw [decide_eq_false (not_not.mpr hw), decide_eq_false (not_not.mpr hend), Bool.or_self]

/-- Settles O19: each command by the checks of its own and those of every XE command. -/
theorem engineCommandsAccepted : Obligations.EngineCommandsAccepted := by
  intro c d z u f s hs
  refine ⟨fun hvalid hdescs hck hpass hrows ha => ?_, fun hpass hact hrows hplaces hchecked => ⟨fun ha => ?_, fun ha ht => ⟨?_, ?_⟩, fun ha htr hthree => ?_⟩,
    fun hrows ha => mzero_goesOn hs hrows ha, fun ha hb => ⟨fun hend hlt hsrc hacc => mucld_goesOn hs ha hb hend hlt hsrc.1 hsrc.2 hacc,
      fun hend hlt hsrc hacc => mbld_goesOn hs ha hb hend hlt hsrc.1 hsrc.2 hacc⟩,
    fun ha => alone_goesOn (o := opMpset f) hs (firstCause_false ha) (.inr rfl),
    fun ha hb hlt hpitch hbase hw hend => alone_goesOn (o := opThset f) hs (thset_cause ha hb hlt hpitch hbase hw hend) (.inr rfl),
    fun hroom => alone_goesOn (o := opMchks f) hs rfl (.inr rfl) (hres := .inr ⟨rfl, hroom⟩)⟩
  · exact alone_goesOn (o := opMcall c) hs (mcall_cause hvalid hdescs hck ha) (.inl hpass) hrows
  · exact drainCmd_goesOn hact hplaces hchecked hs hpass (Bool.and_true _) hrows nofun nofun ha
  · exact drainCmd_goesOn hact hplaces hchecked hs hpass (Bool.and_false _) hrows nofun (fun _ => ht) ha
  · exact drainCmd_goesOn hact hplaces hchecked hs hpass (Bool.and_false _) hrows nofun (fun _ => ht) ha
  · exact drainCmd_goesOn hact hplaces hchecked hs hpass (Bool.and_true _) hrows (fun _ => ⟨Nat.le_of_lt_succ htr, hthree⟩) nofun ha

end Sys2Proof.Machine
end

section
/-! PROOFS. Loads when their data come, when they do not, and when a fault is found: what the events do to the results in flight (08 R208, 12 R277). -/

namespace Sys2Proof.Machine

variable {s t : State} {a : Access} {f : Flight} {e : Pending} {i id q off : Nat} {l : List Act}

/-! A fresh event. -/

/-- A sequencer with room among its events takes one more; accesses, sequencers' other state and memory stay (R277). -/
theorem applyActs_pushEvent (hroom : (s.seqOf q).events.length + (s.seqOf q).orderFaults.length < 64) : ∃ u, applyActs (pushEvent s q e) t =
    applyAct (.seq q (fun y => { y with events := y.events ++ [e] })) u ∧ u.seqs = t.seqs ∧ u.work.accesses = t.work.accesses := by
  have hfull : ¬ 64 ≤ (s.seqOf q).events.length + (s.seqOf q).orderFaults.length := Nat.not_le.mpr hroom
  rw [pushEvent, if_neg hfull, applyActs_append]
  refine ⟨applyActs (if e.sub = 2 then migrationNeed s (s.fnOf (q / 4)) e.addr else []) t, rfl, ?_⟩
  split
  · rw [migrationNeed]
    split
    · rw [askHost]
      split
      · exact ⟨rfl, rfl⟩
      · exact ⟨rfl, rfl⟩
    · exact ⟨rfl, rfl⟩
  · exact ⟨rfl, rfl⟩

/-- The event is the last of the sequencer's. -/
theorem events_pushEvent (ht : Canonical t) (hroom : (s.seqOf q).events.length + (s.seqOf q).orderFaults.length < 64) :
    ((applyActs (pushEvent s q e) t).seqOf q).events = (t.seqOf q).events ++ [e] ∧
      (applyActs (pushEvent s q e) t).work.accesses = t.work.accesses := by
  obtain ⟨u, hu, hseqs, haccs⟩ := applyActs_pushEvent (t := t) (e := e) hroom
  have hwf : SMap.wf {} u.seqs = true := hseqs ▸ ht.seqs
  rw [hu, seqOf_seq_same hwf, State.seqOf, hseqs]
  exact ⟨rfl, haccs⟩

/-! ECC checks leave the work as it is. -/

theorem eccChecks_work {places : List (Home × Nat × Nat)} {fn : Nat} : (applyActs (eccChecks s places fn) t).work = t.work := by
  refine applyActs_keeps (p := State.work) (fun x hx u => ?_) t
  rw [eccChecks, List.mem_flatMap] at hx
  obtain ⟨h, -, hx⟩ := hx
  obtain ⟨d, -, hx⟩ := List.mem_flatMap.mp hx
  obtain ⟨v, rfl⟩ | ⟨g, rfl⟩ := eccUnit_kinds hx
  · exact setMem_work
  · rfl

/-! A result that no handler has taken over. -/

/-- The result named i, if it is in flight, is live: no trap frame holds it. -/
def LiveAt (s : State) (i : Nat) : Prop := ∀ f, s.flightOf i = some f → f.mode = .live

theorem LiveAt.of_flights (h : LiveAt s i) (hf : t.work.flights = s.work.flights) : LiveAt t i := by
  rw [LiveAt, State.flightOf, hf]
  exact h

/-- A change of a result that keeps its name and its mode leaves it live. -/
theorem LiveAt.modFlight {g : Flight → Flight} (h : LiveAt s i) (hid : ∀ f, (g f).id = f.id) (hmode : ∀ f, (g f).mode = f.mode) :
    LiveAt (applyAct (modFlight id g) s) i := by
  intro f hf
  have hfind : (applyAct (Machine.modFlight id g) s).flightOf i = (s.flightOf i).map (fun f => if f.id = id then g f else f) := by
    simp only [State.flightOf, Machine.modFlight, applyAct_work, List.find?_map]
    congr 2
    funext f
    simp only [Function.comp_apply]
    split
    · rw [hid]
    · rfl
  rw [hfind, Option.map_eq_some_iff] at hf
  obtain ⟨k, hk, rfl⟩ := hf
  split
  · exact (hmode k).trans (h k hk)
  · exact h k hk

/-- The frame's latch of a live result is none. -/
theorem latchAfter_of_live (h : LiveAt (applyActs l s) i) : latchAfter s l (some i) = [] := by
  rw [latchAfter]
  split
  · next f hf => rw [latchValue, h f hf]
  · rfl

theorem deliver_id {bs : List (Byte × Bool)} : (f.deliver off bs).id = f.id := by
  rw [Flight.deliver]
  split <;> rfl

theorem deliver_mode {bs : List (Byte × Bool)} : (f.deliver off bs).mode = f.mode := by
  rw [Flight.deliver]
  split <;> rfl

/-! The three events. -/

theorem exec_loadDataArrival (ha : s.accessOf id = some a) : exec (.loadDataArrival id) s = performs (loadActs s a) s := by
  show execLoadDataArrival id s = _
  rw [execLoadDataArrival, ha]
  rfl

theorem exec_loadPromiseMiss (hf : s.flightOf id = some f) : exec (.loadPromiseMiss id) s = performs (promiseMissActs s f) s := by
  show execLoadPromiseMiss id s = _
  rw [execLoadPromiseMiss, hf]
  rfl

theorem exec_latchedLoadFault {sub addr : Nat} (ha : s.accessOf id = some a) :
    exec (.latchedLoadFault id sub addr) s = performs (latchedFaultActs s a sub addr) s := by
  show execLatchedLoadFault id sub addr s = _
  rw [execLatchedLoadFault, ha]
  rfl

/-! Data that arrive. -/

/-- What the arrival of a load's data does outside every LOOPP pass (R208). -/
theorem loadArrives_eq (hlost : a.lost = false) (hpass : a.pass = none) (hflight : a.flight = some i) (hfence : fencedFrom s (a.place s).1 (a.q / 4) = false) :
    loadArrives s a = eccChecks s [((a.place s).1, (a.place s).2, a.size)] a.fn ++ [.work (fun w => w.dropAccess a.id),
      modFlight i (fun f => if f.missing ≤ 1 then f else { f with reads := ((a.place s).1.code (a.place s).2, a.size) :: f.reads }),
      modFlight i (fun f => f.deliver a.offset (overWindow a.fwd (readForeign (applyActs (eccChecks s [((a.place s).1, (a.place s).2, a.size)] a.fn) s)
        (a.place s).1 (a.place s).2 a.size (some (a.q / 4)))))] := by
  simp only [loadArrives, hlost, hpass, hflight, hfence, Bool.false_eq_true, if_false, List.append_nil, List.append_assoc]
  rfl

/-- The frame holds no latch of a live result whose data arrive. -/
theorem loadArrives_live (h : LiveAt s i) (hlost : a.lost = false) (hpass : a.pass = none) (hflight : a.flight = some i)
    (hfence : fencedFrom s (a.place s).1 (a.q / 4) = false) : LiveAt (applyActs (loadArrives s a) s) i := by
  have hread : LiveAt (applyActs (eccChecks s [((a.place s).1, (a.place s).2, a.size)] a.fn) s) i := h.of_flights (by rw [eccChecks_work])
  rw [loadArrives_eq hlost hpass hflight hfence, applyActs_append, applyActs_cons, applyActs_cons, applyActs_cons, applyActs_nil]
  refine LiveAt.modFlight (LiveAt.modFlight (hread.of_flights rfl) (fun f => ?_) (fun f => ?_)) (fun _ => deliver_id) (fun _ => deliver_mode)
  · split <;> rfl
  · split <;> rfl

theorem loadActs_eq (hkind : a.kind = .load) (htrans : a.trans = .none ∨ ∃ pa, a.trans = .done pa) :
    loadActs s a = loadArrives s a ++ latchAfter s (loadArrives s a) a.flight := by
  obtain htrans | ⟨pa, htrans⟩ := htrans
  · rw [loadActs, hkind, htrans]
  · rw [loadActs, hkind, htrans]

theorem columnActs_eq (hkind : a.kind = .column off) (hlost : a.lost = false) (hpass : a.pass = none) (hflight : a.flight = some i) :
    loadActs s a = eccChecks s (columnPlaces (a.q / 4) off) a.fn ++ [.work (fun w => w.dropAccess a.id),
      modFlight i (fun g => { g with
        val := .rows [columnRow (applyActs (eccChecks s (columnPlaces (a.q / 4) off) a.fn) s) (a.q / 4) off], missing := 0, got := BitVec.allOnes 1024 })] := by
  have hcol : loadActs s a = columnArrives s a off := by rw [loadActs, hkind]
  rw [hcol]
  simp only [columnArrives, hlost, hpass, hflight, columnError, Bool.false_eq_true, if_false, List.append_nil, List.append_assoc]
  rfl

/-! Data that do not come. -/

theorem promiseMissActs_eq (hid : f.id = id) (hlive : LiveAt s id) (hmissing : 0 < f.missing) (hdue : f.due ≤ s.cyc) :
    promiseMissActs s f = [modFlight f.id Flight.poisonAll,
      .work (fun w => { w with accesses := w.accesses.map (fun a => if a.flight = some f.id then { a with lost := true } else a) })] := by
  have hopen : ¬ (decide (f.missing = 0) || decide (s.cyc < f.due)) = true := by simp [hmissing.ne', hdue]
  have hkeep : LiveAt (applyActs [modFlight f.id Flight.poisonAll,
      .work (fun w => { w with accesses := w.accesses.map (fun a => if a.flight = some f.id then { a with lost := true } else a) })] s) f.id :=
    (LiveAt.modFlight (id := f.id) (g := Flight.poisonAll) (hid ▸ hlive) (fun _ => rfl) (fun _ => rfl)).of_flights rfl
  refine (if_neg hopen).trans ((congrArg (_ ++ ·) (latchAfter_of_live hkeep)).trans (List.append_nil _))

/-! A fault in a latch. -/

/-- A fault into a frame's latch: the result poisoned, its accesses gone, the event, and what the frame holds of them (R277). -/
theorem latchedFaultActs_eq {ix sub addr : Nat} (hflight : a.flight = some i) (hf : s.flightOf i = some f) (hix : f.latchIndex = some ix) :
    ∃ l, latchedFaultActs s a sub addr = [modFlight i (fun g => { g.poisonAll with faulted := true }),
        .work (fun w => { w with accesses := w.accesses.filter (fun b => b.flight ≠ some i) })] ++
        pushEvent s f.q { code := 0x20, slot := a.slot, sub := sub, faddr := a.addr, addr := addr, flight := some i } ++ l ∧
      ∀ x ∈ l, ∃ c off bs, x = putBytes c off bs := by
  simp only [latchedFaultActs, hflight, hf, hix]
  refine ⟨_, rfl, fun x hx => ?_⟩
  split at hx
  · simp only [List.mem_cons, List.not_mem_nil, or_false] at hx
    obtain rfl | rfl | rfl | rfl := hx <;> exact ⟨_, _, _, rfl⟩
  · exact absurd hx List.not_mem_nil

theorem latched_after {ix sub addr : Nat} (hs : Canonical s) (hflight : a.flight = some i) (hf : s.flightOf i = some f) (hix : f.latchIndex = some ix)
    (hroom : (s.seqOf f.q).events.length + (s.seqOf f.q).orderFaults.length < 64) :
    (∀ g ∈ (applyActs (latchedFaultActs s a sub addr) s).work.accesses, g.flight ≠ some i) ∧
      ((applyActs (latchedFaultActs s a sub addr) s).seqOf f.q).events =
        (s.seqOf f.q).events ++ [{ code := 0x20, slot := a.slot, sub := sub, faddr := a.addr, addr := addr, flight := some i }] := by
  obtain ⟨l, hl, hputs⟩ := latchedFaultActs_eq (sub := sub) (addr := addr) hflight hf hix
  have hwork (t : State) : (applyActs l t).work = t.work :=
    applyActs_keeps (p := State.work) (fun x hx u => by obtain ⟨c, off, bs, rfl⟩ := hputs x hx; exact setMem_work) t
  have hseqs (t : State) : (applyActs l t).seqs = t.seqs :=
    applyActs_keeps (p := State.seqs) (fun x hx u => by obtain ⟨c, off, bs, rfl⟩ := hputs x hx; exact setMem_seqs) t
  obtain ⟨hevents, haccs⟩ := events_pushEvent (q := f.q) (s := s)
    (e := { code := 0x20, slot := a.slot, sub := sub, faddr := a.addr, addr := addr, flight := some i })
    (applyActs_canonical hs [modFlight i (fun g => { g.poisonAll with faulted := true }),
      .work (fun w => { w with accesses := w.accesses.filter (fun b => b.flight ≠ some i) })]) hroom
  rw [hl, applyActs_append, applyActs_append]
  constructor
  · rw [hwork, haccs]
    intro g hg
    simpa using (List.mem_filter.mp hg).2
  · rw [State.seqOf, hseqs]
    exact hevents

/-- Settles O32: an arrival, a column, a missed bound and a fault in a latch. -/
theorem loadEvents : Obligations.LoadEvents := by
  intro id s hs
  refine ⟨fun a i ha hkind htrans hlost hpass hflight hfence hlive => ?_, fun a i off ha hkind hlost hpass hflight _ => ?_,
    fun f hf hmissing hdue hmode => ?_, fun a i f ix sub addr ha hflight hf hix hroom => ?_⟩
  · have hacts : loadActs s a = loadArrives s a := by
      rw [loadActs_eq hkind htrans, hflight, latchAfter_of_live (loadArrives_live hlive hlost hpass hflight hfence), List.append_nil]
    rw [exec_loadDataArrival ha, hacts, loadArrives_eq hlost hpass hflight hfence]
  · rw [exec_loadDataArrival ha, columnActs_eq hkind hlost hpass hflight]
    rfl
  · have hlive : LiveAt s id := fun g hg => Option.some.inj (hf.symm.trans hg) ▸ hmode
    rw [exec_loadPromiseMiss hf, promiseMissActs_eq (flightOf_id hf) hlive hmissing hdue]
  · obtain ⟨haccs, hevents⟩ := latched_after (sub := sub) (addr := addr) hs hflight hf hix hroom
    refine ⟨_, exec_latchedLoadFault ha, ?_, { code := 0x20, slot := a.slot, sub := sub, faddr := a.addr, addr := addr, flight := some i }, ?_,
      rfl, rfl, rfl, rfl, rfl⟩
    · rw [applyActs_bump]
      exact haccs
    · rw [applyActs_bump, seqOf_bump]
      exact hevents

end Sys2Proof.Machine
end

section
/-! PROOFS. Stores that perform, and timed stores that are late (08 R208, 11 R255, R268). -/

namespace Sys2Proof.Machine

variable {s t : State} {a : Access} {x : Act} {h g : Home} {id off b q i : Nat} {l l' : List Act} {bs : List Byte} {ps : List Bool}

/-! Micro-operations that change control state only. -/

/-- A micro-operation on a sequencer, a core, the work in progress or the module's registers. -/
def Act.control : Act → Bool
  | .seq _ _ | .core _ _ | .work _ | .chip _ => true
  | _ => false

/-- What depends on no control state is kept by such micro-operations. -/
theorem applyActs_control {β : Type} {p : State → β} (hp : ∀ t m cs w ch, p { t with seqs := m, cores := cs, work := w, chip := ch } = p t)
    (hl : ∀ x ∈ l, x.control = true) : p (applyActs l s) = p s := by
  refine applyActs_keeps (fun x hx t => ?_) s
  have hx := hl x hx
  cases x with
  | seq q f => exact hp t _ t.cores t.work t.chip
  | core c f => exact hp t t.seqs _ t.work t.chip
  | work f => exact hp t t.seqs t.cores _ t.chip
  | chip f => exact hp t t.seqs t.cores t.work _
  | _ => exact absurd hx Bool.false_ne_true

theorem readByte_control (hl : ∀ x ∈ l, x.control = true) : (applyActs l s).readByte g b = s.readByte g b :=
  applyActs_control (p := fun t => t.readByte g b) (fun _ _ _ _ _ => by cases g <;> rfl) hl

/-- A byte after a write, of any home. -/
theorem readByte_write_any : (applyAct (.write h off bs ps) s).readByte g b =
    if g.kind = h.kind ∧ h.key off ≤ g.key b ∧ g.key b < h.key off + bs.length then bs.getD (g.key b - h.key off) 0 else s.readByte g b := by
  by_cases hk : g.kind = h.kind
  · rw [readByte_write hk]
    simp only [hk, true_and]
  · rw [readByte_write_other hk, if_neg fun hin => hk hin.1]

/-! What a store does at its home. -/

theorem wakes_control {n : Nat} (hx : x ∈ wakes s h off n) : x.control = true := by
  obtain ⟨e, -, he⟩ := List.mem_filterMap.mp hx
  simp only at he
  split at he
  · exact absurd he (by simp)
  · rw [← Option.some.inj he]
    rfl

/-- A write to a home that is one piece: its bytes, and nothing else of memory. -/
theorem writeHome_piece (hpiece : pieces s h off bs.length = [(h, off, bs.length)]) :
    ∃ l, writeHome s h off bs ps = .write h off bs (ps.take bs.length) :: l ∧ ∀ x ∈ l, x.control = true := by
  simp only [writeHome, hpiece, List.map_cons, List.map_nil, List.flatMap_cons, List.flatMap_nil, List.append_nil, if_true, List.drop_zero,
    List.take_length, List.cons_append, List.nil_append]
  refine ⟨_, rfl, fun x hx => ?_⟩
  obtain hx | hx := List.mem_append.mp hx
  · split at hx
    · rw [List.mem_singleton.mp hx]
      rfl
    · exact absurd hx List.not_mem_nil
  · exact wakes_control hx

/-- A store writes its bytes at its home, unless the home is fenced; all else that it does is control state. -/
theorem storePerforms_eq (hpiece : pieces s (a.place s).1 (a.place s).2 a.bytes.length = [((a.place s).1, (a.place s).2, a.bytes.length)]) :
    if fencedFrom s (a.place s).1 (a.q / 4) then ∀ x ∈ storePerforms s a, x.control = true
    else ∃ l ps l', storePerforms s a = l ++ .write (a.place s).1 (a.place s).2 a.bytes ps :: l' ∧
      (∀ x ∈ l, x.control = true) ∧ ∀ x ∈ l', x.control = true := by
  have hsingle {w : Work → Work} : ∀ x ∈ [Act.work w], x.control = true := List.forall_mem_singleton.mpr rfl
  by_cases hown : (a.own s && !a.engine) = true
  · have hplace : (a.place s).1 = .spd (a.q / 4) := of_decide_eq_true (Bool.and_eq_true_iff.mp hown).1
    have hfence : ¬ fencedFrom s (a.place s).1 (a.q / 4) = true := by simp [hplace, fencedFrom]
    rw [if_neg hfence]
    simp only [storePerforms, if_pos hown, ownWrite]
    rw [hplace]
    exact ⟨[_], _, [_, _], rfl, hsingle, List.forall_mem_cons.mpr ⟨rfl, hsingle⟩⟩
  · simp only [storePerforms, if_neg hown]
    split
    · next hfence => exact List.forall_mem_cons.mpr ⟨rfl, hsingle⟩
    · obtain ⟨l, hl, hcontrol⟩ := writeHome_piece (ps := a.poison) hpiece
      rw [hl]
      exact ⟨[_], _, l ++ [_], rfl, hsingle, List.forall_mem_append.mpr ⟨hcontrol, hsingle⟩⟩

/-- Memory after a store has performed. -/
theorem storePerforms_readByte (hpiece : pieces s (a.place s).1 (a.place s).2 a.bytes.length = [((a.place s).1, (a.place s).2, a.bytes.length)]) :
    (applyActs (storePerforms s a) s).readByte g b =
      if fencedFrom s (a.place s).1 (a.q / 4) = false ∧ g.kind = (a.place s).1.kind ∧ (a.place s).1.key (a.place s).2 ≤ g.key b ∧
          g.key b < (a.place s).1.key (a.place s).2 + a.bytes.length
      then a.bytes.getD (g.key b - (a.place s).1.key (a.place s).2) 0 else s.readByte g b := by
  have hform := storePerforms_eq hpiece
  cases hfence : fencedFrom s (a.place s).1 (a.q / 4) with
  | true =>
    rw [if_pos hfence] at hform
    rw [readByte_control hform, if_neg (by simp)]
  | false =>
    rw [hfence, if_neg Bool.false_ne_true] at hform
    obtain ⟨l, ps, l', hl, hcl, hcl'⟩ := hform
    rw [hl, applyActs_append, applyActs_cons, readByte_control hcl', readByte_write_any, readByte_control hcl]
    simp only [true_and]

/-- What a store leaves that memory does not hold. -/
theorem storePerforms_keeps {β : Type} {p : State → β} (hp : ∀ t m cs w ch, p { t with seqs := m, cores := cs, work := w, chip := ch } = p t)
    (hset : ∀ t h m u, p (State.setMem t h m u) = p t)
    (hpiece : pieces s (a.place s).1 (a.place s).2 a.bytes.length = [((a.place s).1, (a.place s).2, a.bytes.length)]) :
    p (applyActs (storePerforms s a) s) = p s := by
  have hform := storePerforms_eq hpiece
  split at hform
  · exact applyActs_control hp hform
  · obtain ⟨l, ps, l', hl, hcl, hcl'⟩ := hform
    rw [hl, applyActs_append, applyActs_cons, applyActs_control hp hcl', applyAct_write, hset, applyActs_control hp hcl]

/-! Late timed stores. -/

theorem lateDue_of (htimed : a.timed = true) (hkind : a.kind = .store) (hlate : a.issue + a.bound < s.cyc)
    (hall : (∀ b ∈ s.work.accesses, a.sameStore b = true → b.performed = true) ∨ a.issue + 1024 ≤ s.cyc) : lateDue s a = true := by
  have hdone : (!(s.work.accesses.any (fun b => a.sameStore b && !b.performed)) || decide (a.issue + 1024 ≤ s.cyc)) = true := by
    obtain hall | hlong := hall
    · have hnone : s.work.accesses.any (fun b => a.sameStore b && !b.performed) = false := by
        rw [List.any_eq_false]
        intro b hb hopen
        simp only [Bool.and_eq_true, Bool.not_eq_true'] at hopen
        exact absurd (hall b hb hopen.1) (Bool.eq_false_iff.mp hopen.2)
      rw [hnone]
      rfl
    · rw [decide_eq_true hlong, Bool.or_true]
  rw [lateDue, htimed, hdone, decide_eq_true hkind, decide_eq_true hlate]
  rfl

/-- A late store's event, after which none of its units is timed (R268). -/
theorem late_after (hs : Canonical s) (hdue : lateDue s a = true) (hroom : (s.seqOf a.q).events.length + (s.seqOf a.q).orderFaults.length < 64) :
    ((applyActs (lateActs s a) s).seqOf a.q).events =
      (s.seqOf a.q).events ++ [{ code := 0x23, slot := a.slot, sub := 5, faddr := a.addr, addr := a.va }] ∧
    ∀ b ∈ (applyActs (lateActs s a) s).work.accesses, a.sameStore b = true → b.timed = false := by
  rw [lateActs, if_pos hdue, applyActs_cons]
  obtain ⟨hevents, haccs⟩ := events_pushEvent (e := { code := 0x23, slot := a.slot, sub := 5, faddr := a.addr, addr := a.va })
    (applyAct_canonical hs (.work (fun w => { w with
      accesses := (w.accesses.filter (fun b => !(a.sameStore b && b.performed))).map (fun b => if a.sameStore b then { b with timed := false } else b) }))) hroom
  refine ⟨hevents, fun b hb hsame => ?_⟩
  rw [haccs] at hb
  obtain ⟨c, -, rfl⟩ := List.mem_map.mp hb
  by_cases hc : a.sameStore c = true
  · rw [if_pos hc]
  · rw [if_neg hc] at hsame
    exact absurd hsame hc

theorem exec_storePerform (ha : s.accessOf id = some a) : exec (.storePerform id) s = performs (storeActs s a) s := by
  show execStorePerform id s = _
  rw [execStorePerform, ha]
  rfl

theorem exec_lateStoreFault (ha : s.accessOf id = some a) : exec (.lateStoreFault id) s = performs (lateActs s a) s := by
  show execLateStoreFault id s = _
  rw [execLateStoreFault, ha]
  rfl

theorem storeActs_eq (hkind : a.kind = .store) (hopen : a.performed = false) (htrans : a.trans = .none ∨ ∃ pa, a.trans = .done pa) (hpieces : a.pieces = []) :
    storeActs s a = storePerforms s a := by
  obtain htrans | ⟨pa, htrans⟩ := htrans <;> rw [storeActs, hkind, htrans] <;> simp [hopen, hpieces]

/-- Settles O33: a store that performs, and the fault of a late one. -/
theorem storeEvents : Obligations.StoreEvents := by
  intro id a s hs ha
  refine ⟨fun hkind hopen htrans hpieces hpiece => ⟨_, exec_storePerform ha, fun g b => ?_, ?_⟩, fun htimed hkind hlate hall hroom => ?_⟩
  · rw [applyActs_bump, storeActs_eq hkind hopen htrans hpieces]
    exact (readByte_control (l := [bump]) (List.forall_mem_singleton.mpr rfl)).trans (storePerforms_readByte hpiece)
  · rw [applyActs_bump, storeActs_eq hkind hopen htrans hpieces]
    exact ⟨storePerforms_keeps (p := State.scalars) (fun _ _ _ _ _ => rfl) (fun _ _ _ _ => setMem_scalars) hpiece,
      storePerforms_keeps (p := State.masks) (fun _ _ _ _ _ => rfl) (fun _ _ _ _ => setMem_masks) hpiece,
      storePerforms_keeps (p := State.rows) (fun _ _ _ _ _ => rfl) (fun _ _ _ _ => setMem_rows) hpiece,
      storePerforms_keeps (p := State.tags) (fun _ _ _ _ _ => rfl) (fun _ _ _ _ => setMem_tags) hpiece⟩
  · obtain ⟨hevents, haccs⟩ := late_after hs (lateDue_of htimed hkind hlate hall) hroom
    refine ⟨_, { code := 0x23, slot := a.slot, sub := 5, faddr := a.addr, addr := a.va }, exec_lateStoreFault ha, ?_, rfl, rfl, rfl, rfl, ?_⟩
    · rw [applyActs_bump, seqOf_bump]
      exact hevents
    · rw [applyActs_bump]
      exact haccs

end Sys2Proof.Machine
end

section
/-! PROOFS. Requests that are performed at the sync engine, and elements that reach their rings (08 R219 to R222, 15 R317). -/

namespace Sys2Proof.Machine

variable {s : State} {a : Access} {id fn n : Nat} {h : Home} {off : Nat}

/-- What is not read is not checked. -/
theorem eccChecks_nil : eccChecks s [] fn = [] := by
  simp [eccChecks]

theorem exec_syeRequestArrival (ha : s.accessOf id = some a) : exec (.syeRequestArrival id) s = performs (requestActs s a) s := by
  show execSyeRequestArrival id s = _
  rw [execSyeRequestArrival, ha]
  rfl

/-- A request that reads nothing is performed as the state stands. -/
theorem requestActs_unread (h : requestReads s a = []) :
    requestActs s a = noteWrite (accessRank s a) (a.place s).1 (a.place s).2 a.size :: requestEffect s a := by
  rw [requestActs, h, eccChecks_nil]
  rfl

/-- A request that reads checks what it reads, and then is performed. -/
theorem requestActs_read {l : List (Home × Nat × Nat)} (h : requestReads s a = l) :
    requestActs s a = eccChecks s l a.fn ++
      noteWrite (accessRank s a) (a.place s).1 (a.place s).2 a.size :: requestEffect (applyActs (eccChecks s l a.fn) s) a := by
  rw [requestActs, h]

/-- Additions to a barrier with a TARGET: the COUNT stays below it, and the PHASE flips as often as it is reached (R219). -/
theorem arriveActs_eq (ht : leValue (s.readBytes h (off + 8) 6) ≠ 0) : arriveActs s h off n =
    writeHome s h off (leBytes 8 ((leValue (s.readBytes h off 8) % 2 ^ 48 + n) % leValue (s.readBytes h (off + 8) 6) % 2 ^ 48 +
      2 ^ 48 * ((leValue (s.readBytes h off 8) / 2 ^ 48 + (leValue (s.readBytes h off 8) % 2 ^ 48 + n) / leValue (s.readBytes h (off + 8) 6)) % 2) +
      leValue (s.readBytes h off 8) / 2 ^ 49 * 2 ^ 49)) (List.replicate 8 false) := by
  rw [arriveActs, Nat.mod_eq_sub_div_mul (x := leValue (s.readBytes h off 8) % 2 ^ 48 + n)]
  simp only [if_neg ht]

/-- An atomic other than a contribution (R221). -/
theorem requestEffect_atomic {op size sub : Nat} {b c : Word} (hkind : a.kind = .atomic op size b c sub) (hf : op ≠ 0x23) (ht : op ≠ 0x2F) :
    requestEffect s a = atomicActs s a op size sub b c := by
  simp only [requestEffect, hkind, if_neg hf, if_neg ht]

/-- An element that its entry expects and has room for is written whole into its ring (R317). -/
theorem acceptElement_eq {e : Element} (hfence : (s.coreOf e.core).fenced = false) (hreset : resetting s (s.fnOf e.core) = false)
    (hvalid : chtValid (s.chtOf e.core e.channel) 0 = true)
    (hsource : e.source = 1024 * chtModule (s.chtOf e.core e.channel) + chtPeer (s.chtOf e.core e.channel))
    (hlen : e.bytes.length = chtBytes (s.chtOf e.core e.channel)) (hroom : chtCount (s.chtOf e.core e.channel) < chtSlots (s.chtOf e.core e.channel)) :
    acceptElement s e =
      noteWrite engineRank (.spd e.core) (ringOff (s.chtOf e.core e.channel) (chtCount (s.chtOf e.core e.channel))) e.bytes.length ::
        writeHome s (.spd e.core) (ringOff (s.chtOf e.core e.channel) (chtCount (s.chtOf e.core e.channel))) e.bytes e.poison ++
        [.cht e.core e.channel (chtPut (s.chtOf e.core e.channel))] := by
  have hexpected : ¬ (resetting s (s.fnOf e.core) || !chtValid (s.chtOf e.core e.channel) 0 ||
      decide (e.source ≠ 1024 * chtModule (s.chtOf e.core e.channel) + chtPeer (s.chtOf e.core e.channel)) ||
      decide (e.bytes.length ≠ chtBytes (s.chtOf e.core e.channel))) = true := by
    rw [hreset, hvalid, decide_eq_false (not_not.mpr hsource), decide_eq_false (not_not.mpr hlen)]
    exact Bool.false_ne_true
  have hfree : ¬ chtSlots (s.chtOf e.core e.channel) ≤ chtCount (s.chtOf e.core e.channel) := Nat.not_le.mpr hroom
  exact (if_neg (Bool.eq_false_iff.mp hfence)).trans ((if_neg hexpected).trans (if_neg hfree))

/-- Settles O37: each request by its kind, and an element from another module. -/
theorem syncEngineEvents : Obligations.SyncEngineEvents := by
  intro id s
  refine ⟨fun a ha => ⟨fun target hkind => ?_, fun header hkind => ?_, fun n hkind ht => ?_, fun ph hkind => ?_, fun v n c hkind => ?_,
    fun op size b c sub hkind hf ht => ?_⟩, fun e hother hfence hreset hvalid hsource hlen hroom => ?_⟩
  · rw [exec_syeRequestArrival ha, requestActs_unread (by rw [requestReads, hkind]), requestEffect, hkind]
  · rw [exec_syeRequestArrival ha, requestActs_unread (by rw [requestReads, hkind]), requestEffect, hkind]
  · rw [exec_syeRequestArrival ha, requestActs_read (by rw [requestReads, hkind]), requestEffect, hkind]
    exact congrArg (fun l => performs (_ ++ _ :: _ :: l) s) (arriveActs_eq ht)
  · rw [exec_syeRequestArrival ha, requestActs_read (by rw [requestReads, hkind]), requestEffect, hkind]
  · rw [exec_syeRequestArrival ha, requestActs_read (by rw [requestReads, hkind]), requestEffect, hkind]
  · have hread : requestReads s a = [((a.place s).1, (a.place s).2, size)] := by
      rw [requestReads, hkind]
      simp [hf, ht]
    rw [exec_syeRequestArrival ha, requestActs_read hread, requestEffect_atomic hkind hf ht, atomicActs]
    simp only [List.append_assoc]
    rfl
  · show done (elementActs s e ++ [bump]) s = _
    rw [elementActs, if_pos hother, acceptElement_eq hfence hreset hvalid hsource hlen hroom]
    rfl

end Sys2Proof.Machine
end

section
/-! PROOFS. Copies and PROBE fills as they advance, end and meet a fault (08 R213, R216, R217). -/

namespace Sys2Proof.Machine

variable {s : State} {y : Copy} {k : Chunk} {l : List Chunk} {id sub addr n : Nat}

theorem exec_copyChunkComplete {crc : Nat} (hy : s.copyOf id = some y) : exec (.copyChunkComplete id crc) s = performs (chunkActs s y crc) s := by
  show execCopyChunkComplete id crc s = _
  rw [execCopyChunkComplete, hy]
  rfl

theorem exec_copyComplete (hy : s.copyOf id = some y) : exec (.copyComplete id) s = performs (copyDoneActs s y) s := by
  show execCopyComplete id s = _
  rw [execCopyComplete, hy]
  rfl

theorem exec_copySuspend (hy : s.copyOf id = some y) : exec (.copySuspend id sub addr) s = performs (suspendActs s y sub addr) s := by
  show execCopySuspend id sub addr s = _
  rw [execCopySuspend, hy]
  rfl

theorem exec_probeFillComplete (hy : s.copyOf id = some y) : exec (.probeFillComplete id) s = performs (probeFillActs s y) s := by
  show execProbeFillComplete id s = _
  rw [execProbeFillComplete, hy]
  rfl

/-- A chunk read whole whose writes have performed is written. -/
theorem chunkWritten_of (hchunks : y.chunks = k :: l) (hread : k.read = true)
    (hnone : ∀ a ∈ s.work.accesses, ¬ (a.origin = some y.id ∧ a.offset = y.cursor)) : chunkWritten s y = true := by
  have hany : s.work.accesses.any (fun a => decide (a.origin = some y.id) && decide (a.offset = y.cursor)) = false := by
    rw [List.any_eq_false]
    intro a ha hbad
    exact hnone a ha (by simpa using hbad)
  rw [chunkWritten, hchunks, hany]
  simp only [hread, Bool.not_false, Bool.and_self]

/-- The tag that the last write of a copy's block sets (R236). -/
def blockTag (s : State) (y : Copy) : List Act := match y.block s with | some b => [.tag b.1 b.2 y.tag] | none => []

/-- A written chunk without a CRC mismatch sets its block's tag and moves the cursor (R216). -/
theorem chunkActs_eq (hchunks : y.chunks = k :: l) (hcrc : k.crc = 0) (hprobe : y.probe = none) (hwritten : chunkWritten s y = true) :
    chunkActs s y 0 = blockTag s y ++ [modCopy y.id (fun y => { y with cursor := y.cursor + k.n, chunks := l })] := by
  simp only [chunkActs, hchunks, hwritten, hcrc, hprobe, blockTag]
  cases y.block s <;> rfl

/-- A copy whose bytes are all written sends its length to its barrier, where it names one, and is gone (R216). -/
theorem copyDoneActs_eq (hall : y.len ≤ y.cursor) (hprobe : y.probe = none) : copyDoneActs s y =
    (if y.bar = 0 then [] else [sendAddition s y.q y.fn y.launch y.slot y.addr y.bar y.len]) ++ [dropCopy y.id] :=
  if_neg (by rw [decide_eq_false (Nat.not_lt.mpr hall), hprobe]; exact Bool.false_ne_true)

/-- A copy whose earlier chunks are written is suspended at its fault, with its event (R217). -/
theorem suspendActs_eq (hfault : y.fault = some (sub, addr)) (hprobe : y.probe = none) (hchunks : y.chunks = []) : suspendActs s y sub addr =
    modCopy y.id (fun y => { y with fault := none, faulted := true }) :: pushEvent s y.q
      { code := 0x22, slot := y.slot, ch := y.ch, sub := sub, faddr := y.addr, addr := addr, info := y.cursor, copy := some y.id } :=
  if_neg (by rw [decide_eq_false (not_not.mpr hfault), hprobe, hchunks]; exact Bool.false_ne_true)

/-- A fill that is written sets its slot's tag (R213, R236). -/
theorem probeFillActs_eq (hprobe : y.probe = some n) (hfault : y.fault = none) (hall : y.len ≤ y.cursor) :
    probeFillActs s y = [.tag (y.q / 4) (y.dst % 2 ^ 22 / 4096) y.tag, dropCopy y.id] := by
  simp only [probeFillActs, hprobe, hfault]
  exact if_neg (Nat.not_lt.mpr hall)

/-- Settles O39: a chunk, the end of a copy, its suspension, the end of a fill. -/
theorem copyEvents : Obligations.CopyEvents := by
  intro id y s hy
  refine ⟨fun k l hchunks hread hcrc hprobe hnone => ?_, fun hall hprobe => ⟨fun hbar => ?_, fun hbar => ?_⟩,
    fun sub addr hfault hprobe hchunks => ?_, fun n hprobe hfault hall => ?_⟩
  · rw [exec_copyChunkComplete hy, chunkActs_eq hchunks hcrc hprobe (chunkWritten_of hchunks hread hnone)]
    rfl
  · rw [exec_copyComplete hy, copyDoneActs_eq hall hprobe, if_pos hbar, List.nil_append]
  · rw [exec_copyComplete hy, copyDoneActs_eq hall hprobe, if_neg hbar, List.singleton_append]
  · rw [exec_copySuspend hy, suspendActs_eq hfault hprobe hchunks]
  · rw [exec_probeFillComplete hy, probeFillActs_eq hprobe hfault hall]

end Sys2Proof.Machine
end

section
/-! PROOFS. Engine commands as they start, run and end, and tile rows as they arrive (08 R186 to R198, 11 R265). -/

namespace Sys2Proof.Machine

variable {s : State} {y : Command} {r : Routine} {id n row0 rtn c h row : Nat} {parts : List PagePart}

section Command

variable (hy : s.work.commands.find? (fun y => y.id = id) = some y)

include hy

theorem exec_engineCommandStart : exec (.engineCommandStart id) s = performs (commandStart s y) s := by
  show execEngineCommandStart id s = _
  rw [execEngineCommandStart, startActs, hy]
  rfl

theorem exec_engineCommandEnd : exec (.engineCommandEnd id) s = performs (commandEnd s y) s := by
  show execEngineCommandEnd id s = _
  rw [execEngineCommandEnd, hy]
  rfl

theorem exec_mxeRoutineStart : exec (.mxeRoutineStart id) s = performs (routineActs s y) s := by
  show execMxeRoutineStart id s = _
  rw [execMxeRoutineStart, hy]
  rfl

theorem exec_mxeRoutineOverrun : exec (.mxeRoutineOverrun id) s = performs (overrunActs s y) s := by
  show execMxeRoutineOverrun id s = _
  rw [execMxeRoutineOverrun, hy]
  rfl

end Command

/-- A command whose start has come begins once no drain holds it and, moved by one, it meets no other's interval (R186, R187, R265). -/
theorem mxeStarts_of (hopen : y.started = false) (hdue : y.dueAt ≤ s.cyc) (hclear : holdClear s y.hold = true)
    (hapart : y.dueAt < s.cyc → ∀ z ∈ s.mxeCommands (y.q / 4), z.id ≠ y.id → ¬ (y.startNow s < z.finish ∧ z.start < y.startNow s + y.dur)) :
    mxeStarts s y = true := by
  have hfree : mxeBusy s y = false := by
    refine decide_and_eq_false fun hmoved => List.any_eq_false.mpr fun z hz hmeet => ?_
    simp only [Bool.and_eq_true, decide_eq_true_eq, and_assoc] at hmeet
    exact hapart hmoved z hz hmeet.1 hmeet.2
  rw [mxeStarts, hopen, decide_eq_true hdue, hclear, hfree]
  rfl

theorem commandStart_zero (hstarts : mxeStarts s y = true) (hkind : y.kind = .zero row0 n) : commandStart s y =
    [modCommand y.id (fun x => { x with start := y.startNow s, started := true, routine := {} }),
      engineRows s { y with start := y.startNow s, started := true } row0 (List.replicate n (writeWhole {}))] := by
  simp only [commandStart, hstarts, hkind, Bool.not_true, Bool.false_eq_true, if_false]

theorem commandStart_mcall (hstarts : mxeStarts s y = true) (hkind : y.kind = .mcall rtn) : commandStart s y =
    [modCommand y.id (fun x => { x with
      start := y.startNow s, started := true, routine := { pc := entryFirst (s.routineOf (y.q / 4) rtn), mp := y.mp } })] := by
  simp only [commandStart, hstarts, hkind, Bool.not_true, Bool.false_eq_true, if_false]

/-- At S + D an MZERO is gone: its rows have been on their way since its start (R196). -/
theorem commandEnd_zero (hkind : y.kind = .zero row0 n) (hstarted : y.started = true) (hend : y.finish ≤ s.cyc) :
    commandEnd s y = [.work (fun w => { w with commands := w.commands.filter (fun x => x.id ≠ y.id) })] := by
  have hnow : ¬ (!y.started || decide (s.cyc < y.finish)) = true := by
    rw [hstarted, decide_eq_false (Nat.not_lt.mpr hend)]
    exact Bool.false_ne_true
  simp only [commandEnd, if_neg hnow, hkind, List.nil_append]

section Mcall

variable (hkind : y.kind = .mcall rtn) (hstopped : y.stopped = false) (hended : y.routine.ended = false)

include hkind hstopped hended

/-- Four clocks of a routine that goes on (R191). -/
theorem routineActs_goesOn (hstarted : y.started = true) (hclocks : mxeClocks s y (entryFirst (s.routineOf (y.q / 4) rtn)) 4 y.routine = .ok r) (hr : r.ended = false) :
    routineActs s y = eccChecks s (clocksRead s y (entryFirst (s.routineOf (y.q / 4) rtn)) 4 y.routine) (s.fnOf (y.q / 4)) ++
      rowChecks s (y.q / 4) (rowsRead y.routine r) ++ [modCommand y.id (fun y => { y with routine := r })] := by
  simp only [routineActs, hkind, hstarted, hstopped, hended, hclocks, hr, Bool.not_true, Bool.or_self, Bool.false_eq_true, if_false, List.append_assoc]

/-- At S + D a routine without END is stopped (R194). -/
theorem overrunActs_eq (hend : y.finish ≤ s.cyc) : overrunActs s y = stopCommand s y ⟨0x23, 7, 0⟩ := by
  simp only [overrunActs, hkind, hstopped, hended, decide_eq_false (Nat.not_lt.mpr hend), Bool.or_self, Bool.false_eq_true, if_false]

end Mcall

/-! Tile rows. -/

/-- Parts whose walks have all ended well wait for none and have no fault. -/
theorem parts_done (h : ∀ p ∈ parts, ∃ pa, p.trans = .done pa) : parts.any (fun p => p.trans.isOpen) = false ∧ firstPartFault parts = none := by
  constructor
  · rw [List.any_eq_false]
    intro p hp hopen
    obtain ⟨pa, hpa⟩ := h p hp
    rw [hpa] at hopen
    exact Bool.false_ne_true hopen
  · rw [firstPartFault, List.findSome?_eq_none_iff]
    intro p hp
    obtain ⟨pa, hpa⟩ := h p hp
    rw [hpa]

/-- The row of tile h of core c in the staging store. -/
def tileRow (s : State) (c h row : Nat) : Staged := SMap.get {} s.staging (32 * (64 * c + h) + row)

section Tile

variable (habsent : (tileRow s c h row).present = false) (hgood : (tileRow s c h row).bad = false)

include habsent hgood

/-- A row that has not come by its promise is bad (R197). -/
theorem tileActs_late (hlate : (tileRow s c h row).bound < s.cyc) :
    tileActs s c h row = [.stage (32 * (64 * c + h) + row) { tileRow s c h row with bad := true }] := by
  have hopen : ¬ ((tileRow s c h row).present || (tileRow s c h row).bad) = true := by simp [habsent, hgood]
  exact (if_neg hopen).trans (if_pos hlate)

/-- A row whose walks have ended and that no drain holds back comes into the staging store (R197, R265). -/
theorem tileActs_arrives (hin : s.cyc ≤ (tileRow s c h row).bound) (hclear : holdClear s (tileRow s c h row).hold = true)
    (hdone : ∀ p ∈ (tileRow s c h row).parts, ∃ pa, p.trans = .done pa) :
    tileActs s c h row = partChecks s (s.fnOf c) (tileRow s c h row).parts ++ [.stage (32 * (64 * c + h) + row) { tileRow s c h row with
      present := true, bad := (readParts s (tileRow s c h row).parts).2.any (fun p => p), bytes := (readParts s (tileRow s c h row).parts).1
      poison := (readParts s (tileRow s c h row).parts).2 }] := by
  obtain ⟨hany, hfault⟩ := parts_done hdone
  have hopen : ¬ ((tileRow s c h row).present || (tileRow s c h row).bad) = true := by simp [habsent, hgood]
  have hheld : ¬ ((tileRow s c h row).parts.any (fun p => p.trans.isOpen) || !holdClear s (tileRow s c h row).hold) = true := by simp [hany, hclear]
  refine (if_neg hopen).trans ((if_neg (Nat.not_lt.mpr hin)).trans ((if_neg hheld).trans ?_))
  rw [show firstPartFault (SMap.get {} s.staging (32 * (64 * c + h) + row)).parts = none from hfault]
  rfl

end Tile

/-- Settles O38: the start, the clocks and the end of a command by its kind, and the arrival of a tile row. -/
theorem engineEvents : Obligations.EngineEvents := by
  intro id s
  refine ⟨fun y hy => ⟨fun hopen hdue hclear hapart => ?_, fun row0 n hkind hstarted hend => ?_, fun rtn hkind hstarted hstopped hended =>
    ⟨fun r hclocks hr => ?_, fun hend => ?_⟩⟩, fun c h row habsent hgood => ⟨fun hlate => ?_, fun hin hclear hdone => ?_⟩⟩
  · have hstarts := mxeStarts_of hopen hdue hclear hapart
    refine ⟨fun row0 n hkind => ?_, fun rtn hkind => ?_⟩
    · rw [exec_engineCommandStart hy, commandStart_zero hstarts hkind]
      rfl
    · rw [exec_engineCommandStart hy, commandStart_mcall hstarts hkind]
      rfl
  · rw [exec_engineCommandEnd hy, commandEnd_zero hkind hstarted hend]
  · rw [exec_mxeRoutineStart hy, routineActs_goesOn hkind hstopped hended hstarted hclocks hr]
  · rw [exec_mxeRoutineOverrun hy, overrunActs_eq hkind hstopped hended hend]
  · show performs (tileActs s c h row) s = _
    rw [tileActs_late habsent hgood hlate]
    rfl
  · show performs (tileActs s c h row) s = _
    rw [tileActs_arrives habsent hgood hin hclear hdone]
    rfl

end Sys2Proof.Machine
end

section
/-! PROOFS. A reducer command whose descriptor is poisoned (08 R224, 15 R320), under a statement in which `id` names the command. -/

namespace Sys2Proof.Machine

/-- A forwarding command, named 0, with its descriptor at 0. -/
def forwarding : Command :=
  { id := 0, q := 0, kind := .srd 7 2 0, issue := 0, start := 0, dur := 0, readAt := 0, fmt := 8, addr := 0 }

/-- The command at its start, its descriptor with a source and a poisoned unit. -/
def poisonedDescriptor : State :=
  applyActs [.write (.spd 0) 8 [1] [false], .mark (.spd 0) 0 .stored, .work (fun w => { w with commands := [forwarding], nextId := 1 })] State.reset

/-- The step of a poisoned descriptor is dropped: every reducer's queue stays empty (R224). -/
theorem poisonedDescriptor_dropped : ∃ t, exec (.srdStepEnqueue 0) poisonedDescriptor = .next t ∧ t.chip.srds = [] :=
  ⟨_, rfl, by decide +kernel⟩

/-- The cast of 0 to a function on truth values holds of none. -/
theorem any_cast_zero {l : List Bool} : l.any ((0 : Nat) : Bool → Bool) = false := by
  rw [Nat.cast_zero, List.any_eq_false]
  exact fun _ _ => Bool.false_ne_true

/-- Refutes O47: in the clause on a sound descriptor `read.2.any id` takes `id` for the command's number, which is the name bound there, and
not for the identity: for command 0 no descriptor counts as poisoned, and this one, which is, would have to be queued. -/
theorem not_reducerEvents : ¬ Obligations.ReducerEvents := by
  intro h
  have henqueue := ((h 2 poisonedDescriptor).1 0 forwarding 7 0 rfl rfl (by decide) (by decide +kernel) (by decide +kernel)).1
  obtain ⟨t, ht, hsrds, -⟩ := henqueue (by decide +kernel) (by decide +kernel) any_cast_zero (by decide +kernel)
  obtain ⟨u, hu, hempty⟩ := poisonedDescriptor_dropped
  have htu : t = u := Host.Outcome.next.inj (ht.symm.trans hu)
  rw [htu, hempty] at hsrds
  exact absurd hsrds (by decide +kernel)

end Sys2Proof.Machine
end

section
/-! PROOFS. The journal's events: hosted records, acknowledgements, resends, failures on either side (17 R337 to R344). -/

namespace Sys2Proof.Machine

variable {s t : State} {r : RingRecord} {ok : Bool} {m n since : Nat} {l l' : List Act}

/-- Two effects that leave the same state perform alike. -/
theorem performs_congr (h : applyActs l s = applyActs l' s) : performs l s = performs l' s := by
  rw [performs, performs, applyActs_bump, applyActs_bump, h]

/-! The hosted ring. -/

theorem recordBytes_length : (recordBytes r).length = 64 := by
  simp only [recordBytes, List.length_append, leBytes_length]

theorem recordActs_ignored (h : s.chip.journal.hv = false ∨ s.chip.journal.wfail = true ∨ r.writer % 1024 ≠ s.chip.journal.writer) : recordActs s r ok = [] := by
  refine if_pos ?_
  obtain h | h | h := h <;> simp [h]

section Hosted

variable (hv : s.chip.journal.hv = true) (hwfail : s.chip.journal.wfail = false) (hwriter : r.writer % 1024 = s.chip.journal.writer)
  (hlo : 10 ≤ s.chip.journal.hostLog) (hhi : s.chip.journal.hostLog ≤ 24)

include hv hwfail hwriter hlo hhi

/-- The record's check against the host registers passes: the writer is heard. -/
theorem recordActs_heard : recordActs s r ok = modJournal (fun j => { j with heardAt := s.cyc }) ::
    (if ok && r.number = s.chip.journal.hostedNext then
      [.write .hbm (ringPlace s.chip.journal.hostBase s.chip.journal.hostLog r.number) (recordBytes r) (List.replicate 64 false),
       .chip (fun h => ({ h with journal := { h.journal with
         hostedNext := h.journal.hostedNext + 1
         hostedMarks := if r.kind % 16 = 3 then h.journal.hostedMarks ++ [r.number] else h.journal.hostedMarks } } : Chip).tell
           s.cyc h.journal.writer (.journalAck (h.journal.hostedNext + 1)))]
     else []) := by
  have hsize : (ringSize s.chip.journal.hostLog).isNone = false := by simp [ringSize, hlo, hhi]
  refine if_neg ?_
  rw [hv, hwfail, hsize, decide_eq_false (not_not.mpr hwriter)]
  exact Bool.false_ne_true

/-- A record out of sequence or with a bad CRC is only heard (R338). -/
theorem recordActs_refused (h : ok = false ∨ r.number ≠ s.chip.journal.hostedNext) : recordActs s r ok = [modJournal (fun j => { j with heardAt := s.cyc })] := by
  rw [recordActs_heard hv hwfail hwriter hlo hhi, if_neg]
  obtain h | h := h <;> simp [h]

end Hosted

/-- The number of a hosted record goes up, and the next one's goes to the writer. -/
def recordKept (s : State) (r : RingRecord) : Act :=
  .chip (fun h => ({ h with journal := { h.journal with
    hostedNext := s.chip.journal.hostedNext + 1
    hostedMarks := if r.kind % 16 = 3 then s.chip.journal.hostedMarks ++ [r.number] else s.chip.journal.hostedMarks } } : Chip).tell
      s.cyc s.chip.journal.writer (.journalAck (s.chip.journal.hostedNext + 1)))

/-- A hosted record as it is kept: heard, written, acknowledged. -/
def keptActs (s : State) (r : RingRecord) : List Act :=
  [modJournal (fun j => { j with heardAt := s.cyc }),
   .write .hbm (ringPlace s.chip.journal.hostBase s.chip.journal.hostLog r.number) (recordBytes r) (List.replicate 64 false), recordKept s r]

theorem recordActs_kept (hv : s.chip.journal.hv = true) (hwfail : s.chip.journal.wfail = false) (hwriter : r.writer % 1024 = s.chip.journal.writer)
    (hlo : 10 ≤ s.chip.journal.hostLog) (hhi : s.chip.journal.hostLog ≤ 24) (hok : ok = true) (hnext : r.number = s.chip.journal.hostedNext) :
    performs (recordActs s r ok) s = performs (keptActs s r) s := by
  refine performs_congr ?_
  rw [recordActs_heard hv hwfail hwriter hlo hhi, if_pos (by simp [hok, hnext])]
  rfl

/-- A message leaves on the port of its route, and the journal stays. -/
theorem tell_journal {h : Chip} {c : Nat} {o : LinkOut} : (h.tell c m o).journal = h.journal := by
  rw [Chip.tell]
  split <;> rfl

theorem tell_out {h : Chip} {c p : Nat} {o : LinkOut} (hp : h.route m = some p) : ((h.tell c m o).port p).out = (h.port p).out ++ [o] := by
  have hne : (h.port p).beat c o ≠ {} := by
    intro heq
    have hout : (h.port p).out ++ [o] = [] := congrArg Port.out heq
    exact absurd hout (List.append_ne_nil_of_right_ne_nil _ (List.cons_ne_nil _ _))
  simp only [Chip.tell, hp]
  exact congrArg Port.out (SMap.get_set_of_ne hne)

/-- What a kept record leaves (R337, R338). -/
theorem kept_after : (applyActs (keptActs s r) s).chip.journal.hostedNext = s.chip.journal.hostedNext + 1 ∧
    (∀ p, s.chip.route s.chip.journal.writer = some p →
      ((applyActs (keptActs s r) s).chip.port p).out = (s.chip.port p).out ++ [.journalAck (s.chip.journal.hostedNext + 1)]) ∧
    ∀ a, (applyActs (keptActs s r) s).readByte .hbm a =
      if ringPlace s.chip.journal.hostBase s.chip.journal.hostLog r.number ≤ a ∧ a < ringPlace s.chip.journal.hostBase s.chip.journal.hostLog r.number + 64
      then (recordBytes r).getD (a - ringPlace s.chip.journal.hostBase s.chip.journal.hostLog r.number) 0 else s.readByte .hbm a := by
  refine ⟨?_, fun p hp => ?_, fun a => ?_⟩
  · exact congrArg Journal.hostedNext tell_journal
  · exact tell_out hp
  · have hwrite := readByte_write (s := s) (h := .hbm) (g := .hbm) (a := ringPlace s.chip.journal.hostBase s.chip.journal.hostLog r.number) (b := a)
      (bs := recordBytes r) (ps := List.replicate 64 false) rfl
    rw [recordBytes_length] at hwrite
    exact hwrite

/-! Acknowledgements. -/

theorem ackActs_spare (h3 : s.chip.journal.state = 3) (hm : m = s.chip.journal.rseed) :
    ackActs s m n = [modJournal (fun j => { j with spareAck := max j.spareAck n, sentAt := j.sentAt.filter (fun e => n ≤ e.1) })] :=
  if_pos (by simp [h3, hm])

section Partner

variable (h3 : ¬ (s.chip.journal.state = 3 ∧ m = s.chip.journal.rseed))

include h3

theorem ackActs_partner (hpval : s.chip.journal.pval = true) (hm : m = s.chip.journal.partner) : ackActs s m n = [modJournal (fun j => { j with
    dur := max j.dur n, heard := some n, sentAt := if j.state = 1 then j.sentAt.filter (fun e => n ≤ e.1) else j.sentAt })] :=
  (if_neg (by simpa using h3)).trans (if_pos (by simp [hpval, hm]))

theorem ackActs_other (h : s.chip.journal.pval = false ∨ m ≠ s.chip.journal.partner) : ackActs s m n = [] := by
  refine (if_neg (by simpa using h3)).trans (if_neg ?_)
  obtain h | h := h <;> simp [h]

end Partner

/-! Records that wait for their acknowledgement. -/

theorem resendTimeoutActs_none (h : s.chip.journal.oldestSent = none) : resendTimeoutActs s = [] := by
  have hdue : resendDue s = false := by
    simp only [resendDue, h, Bool.and_false]
  exact if_neg (Bool.eq_false_iff.mp hdue)

theorem partnerActs_none (h : s.chip.journal.oldestSent = none) : partnerActs s = [] := by
  have hsilent : partnerSilent s = false := by
    simp only [partnerSilent, h]
  exact if_pos (by rw [hsilent]; rfl)

section Sent

variable (hsent : s.chip.journal.oldestSent = some since)

include hsent

theorem resendDue_eq (hfatal : s.chip.fatal = false) : resendDue s = decide (max since s.chip.journal.resentAt + s.chip.journal.ackb / 4 ≤ s.cyc) := by
  simp only [resendDue, hsent, hfatal, Bool.not_false, Bool.true_and]

theorem resendTimeoutActs_early (hfatal : s.chip.fatal = false) (h : s.cyc < max since s.chip.journal.resentAt + s.chip.journal.ackb / 4) :
    resendTimeoutActs s = [] := by
  refine if_neg ?_
  rw [resendDue_eq hsent hfatal, decide_eq_false (by omega)]
  exact Bool.false_ne_true

theorem resendTimeoutActs_due (hfatal : s.chip.fatal = false) (h : max since s.chip.journal.resentAt + s.chip.journal.ackb / 4 ≤ s.cyc) :
    resendTimeoutActs s = modJournal (fun j => { j with resentAt := s.cyc }) ::
      resendActs s (if s.chip.journal.state = 3 then s.chip.journal.spareAck else s.chip.journal.dur) s.chip.journal.tail :=
  if_pos ((resendDue_eq hsent hfatal).trans (decide_eq_true h))

theorem partnerSilent_eq : partnerSilent s = decide (since + s.chip.journal.ackb ≤ s.cyc) := by
  simp only [partnerSilent, hsent]

theorem partnerActs_early (h : s.cyc < since + s.chip.journal.ackb) : partnerActs s = [] :=
  if_pos (by rw [partnerSilent_eq hsent, decide_eq_false (Nat.not_le.mpr h)]; rfl)

theorem partnerSilent_of_long (h : since + s.chip.journal.ackb ≤ s.cyc) : partnerSilent s = true :=
  (partnerSilent_eq hsent).trans (decide_eq_true h)

end Sent

/-- The partner is declared failed (R341). -/
def partnerFails (s : State) : List Act := [modJournal (fun j => { j with state := 2, rseed := 0 }), post s 0x18 0 0 0 0]

section Silent

variable (hsilent : partnerSilent s = true)

include hsilent

theorem partnerActs_assisted (hduty : s.chip.duty.getLsbD 1 = true) : partnerActs s = partnerFails s ++ [.chip (fun h => h.raise 0 1)] := by
  simp only [partnerActs, hsilent, hduty, askHost, Bool.not_true, Bool.false_eq_true, if_false, if_true]
  rfl

theorem partnerActs_reseeds (hduty : s.chip.duty.getLsbD 1 = false) : partnerActs s = partnerFails s ++ reseedActs (applyActs (partnerFails s) s) := by
  simp only [partnerActs, hsilent, hduty, Bool.not_true, Bool.false_eq_true, if_false]
  rfl

end Silent

/-- Which spare qualifies depends on the pairing and on the routes. -/
theorem spare_congr {h k : Chip} (hspares : k.journal.spares = h.journal.spares) (hports : k.ports = h.ports) (hroutes : k.routes = h.routes) :
    k.spare = h.spare := by
  have hroute (m : Nat) : k.route m = h.route m := by rw [Chip.route, Chip.route, Chip.port, Chip.port, hports, hroutes]
  rw [Chip.spare, Chip.spare, hspares]
  simp only [hroute]

/-- A posted event leaves the pairing and the routes. -/
theorem spare_post {h : Chip} {c : Nat} {p : Posted} : (h.post c p).spare = h.spare := by
  refine spare_congr ?_ ?_ ?_
  · simp only [Chip.post, apply_ite Chip.journal, ite_self]
  · simp only [Chip.post, apply_ite Chip.ports, ite_self]
  · simp only [Chip.post, apply_ite Chip.routes, ite_self]

/-- The failure of the partner changes the chip alone, and leaves its spares. -/
theorem partnerFails_state : ∃ h, applyActs (partnerFails s) s = { s with chip := h } ∧ h.spare = s.chip.spare := by
  rw [partnerFails, applyActs_cons, applyActs_cons, applyActs_nil, modJournal, applyAct_chip, post, applyAct_chip]
  exact ⟨_, rfl, spare_post.trans (spare_congr rfl rfl rfl)⟩

/-- An event is posted at its time; nothing else of the state enters it. -/
theorem post_congr {t : State} {code fn place addr info : Nat} (hcyc : t.cyc = s.cyc) (hgtime : t.gtime = s.gtime) :
    post t code fn place addr info = post s code fn place addr info := by
  rw [post, post, hcyc, hgtime]

theorem reseedActs_none (h : s.chip.spare = none) : reseedActs (applyActs (partnerFails s) s) = [post s 0x18 0 0 0 0] := by
  obtain ⟨k, hk, hspare⟩ := partnerFails_state (s := s)
  rw [hk, reseedActs]
  simp only [hspare, h]
  exact List.singleton_inj.mpr (post_congr rfl rfl)

/-- The spare that holds every record becomes the partner (R341). -/
theorem reseededActs_of_whole (h3 : s.chip.journal.state = 3) (h : s.chip.journal.tail ≤ s.chip.journal.spareAck) :
    reseededActs s = [modJournal (fun j => { j with
      partner := j.rseed, ringBase := j.spareBase, rseed := 0, state := 1, dur := j.spareAck, pcom := j.head - 1, sentAt := []
      heard := some j.spareAck })] :=
  if_pos (by simp [reseeded, h3, h])

/-! The hosting side. -/

section Writer

variable (hv : s.chip.journal.hv = true) (hwfail : s.chip.journal.wfail = false)

include hv hwfail

theorem downActs_fails : downActs s = writerFails s := if_pos (by rw [hv, hwfail]; rfl)

theorem writerSilent_of_long (hrecords : s.chip.journal.hostedHead < s.chip.journal.hostedNext)
    (hlong : s.chip.journal.heardAt + 4 * s.chip.journal.ackb ≤ s.cyc) : writerSilent s = true := by
  simp only [writerSilent, hv, hwfail, hrecords, hlong, decide_true, Bool.not_false, Bool.and_self]

end Writer

section WriterSilent

variable (hsilent : writerSilent s = true)

include hsilent

theorem silentActs_fails (hduty : s.chip.duty.getLsbD 1 = false) : silentActs s = writerFails s := by
  rw [silentActs, hsilent, hduty]
  exact (if_neg Bool.false_ne_true).trans (if_neg Bool.false_ne_true)

theorem silentActs_asks (hduty : s.chip.duty.getLsbD 1 = true) :
    silentActs s = [modJournal (fun j => { j with heardAt := s.cyc }), .chip (fun h => h.raise 0 1)] := by
  rw [silentActs, hsilent, askHost, hduty]
  exact (if_neg Bool.false_ne_true).trans (if_pos rfl)

end WriterSilent

/-! Emissions. -/

/-- An element sent on a channel carries it. -/
theorem sentElement_channel {q fn ch k : Nat} {bytes : List Byte} {ps : List Bool} {hold : Hold} {h : Chip} :
    (sentElement s q fn ch bytes ps hold k h).element.channel = ch := by
  rw [sentElement]
  split <;> rfl

/-- The emissions of a module in the fatal state or without any: none is due (R362). -/
theorem emissionDue_none (h : s.chip.fatal = true ∨ s.chip.emits = []) : emissionDue s = none := by
  rw [emissionDue]
  obtain h | h := h
  · exact if_pos h
  · simp [h]

/-- An entry without an emission has no other place. -/
theorem place_silent {e : Emit} (h : e.silent = true) : e.place s = .silent := if_pos h

theorem silent_false_of_place {e : Emit} (h : e.place s ≠ .silent) : e.silent = false := by
  by_contra hne
  exact h (place_silent (eq_true_of_ne_false hne))

section Emissions

variable {e : Emit} {rest : List Emit} (hemits : s.chip.emits = e :: rest)

include hemits

/-- The first entry leaves the emit buffer. -/
theorem performs_free_head : performs (.chip (fun h => { h with emits := h.emits.erase e }) :: l) s = performs (.chip (fun h => { h with emits := rest }) :: l) s := by
  refine performs_congr ?_
  rw [applyActs_cons, applyActs_cons, applyAct_chip, applyAct_chip, hemits, List.erase_cons_head]

variable (hfatal : s.chip.fatal = false)

include hfatal

theorem emissionDue_silent (hdur : e.replay = true ∨ e.number < s.chip.journal.dur) (hsilent : e.silent = true) : emissionDue s = some e := by
  have hfirst : s.chip.emits.find? (fun e => (e.replay || e.number < s.chip.journal.dur) && (e.silent || e.place s = .sent)) = some e := by
    rw [hemits, List.find?_cons_of_pos]
    simp [hdur, hsilent]
  simp only [emissionDue, hfatal, hfirst, Bool.false_eq_true, if_false]

/-- The oldest emission is due when no entry can be freed and nothing holds it back (R339). -/
theorem emissionDue_oldest (hdur : e.replay = true ∨ (e.number < s.chip.journal.dur ∧ s.chip.journal.state ≠ 2 ∧ s.chip.journal.state ≠ 3))
    (hhold : holdClear s e.hold = true) (hgoes : e.place s ∉ [.silent, .sent, .waits])
    (hrest : ∀ x ∈ rest, x.silent = false ∧ x.place s ≠ .sent) : emissionDue s = some e := by
  have hsent : e.place s ≠ .sent := fun h => hgoes (by simp [h])
  have hwaits : e.place s ≠ .waits := fun h => hgoes (by simp [h])
  have hsilent : e.silent = false := silent_false_of_place (s := s) fun h => hgoes (by simp [h])
  have hfreed : s.chip.emits.find? (fun e => (e.replay || e.number < s.chip.journal.dur) && (e.silent || e.place s = .sent)) = none := by
    refine List.find?_eq_none.mpr fun x hx => ?_
    have hx : x.silent = false ∧ x.place s ≠ .sent := by
      obtain rfl | hx := List.mem_cons.mp (hemits ▸ hx)
      · exact ⟨hsilent, hsent⟩
      · exact hrest x hx
    simp [hx.1, hx.2]
  have hready : (holdClear s e.hold && (e.replay || (e.number < s.chip.journal.dur && s.chip.journal.state ≠ 2 && s.chip.journal.state ≠ 3)) &&
      e.place s ≠ .waits) = true := by simp [hhold, hwaits, hdur, and_assoc]
  have holdest : s.chip.emits.find? (fun e => !e.silent) = some e := by rw [hemits, List.find?_cons_of_pos (by simp [hsilent])]
  simp only [emissionDue, hfatal, hfreed, holdest, hready, Bool.false_eq_true, if_false, if_true]

end Emissions

theorem emissionActs_none (h : emissionDue s = none) : emissionActs s = [] := by
  simp only [emissionActs, h]

section Due

variable {e : Emit} (hdue : emissionDue s = some e)

include hdue

theorem emissionActs_silent (hplace : e.place s = .silent) : emissionActs s = [.chip (fun h => { h with emits := h.emits.erase e })] := by
  simp only [emissionActs, hdue, hplace]

theorem emissionActs_home {h : Home} {off : Nat} (hplace : e.place s = .home h off) (hfence : fencedFrom s h (e.q / 4) = false) : emissionActs s =
    .chip (fun h => { h with emits := h.emits.erase e }) ::
      noteWrite engineRank h off 8 :: writeHome s h off (leBytes 8 e.payload.toNat) (List.replicate 8 false) := by
  simp only [emissionActs, hdue, hplace, hfence, Bool.false_eq_true, if_false]

theorem emissionActs_fault {k : Nat} (hplace : e.place s = .fault k) : emissionActs s =
    .chip (fun h => { h with emits := h.emits.erase e }) :: post s 0x1B e.fn (e.q / 4) e.target.toNat e.number :: emitFault s e k := by
  simp only [emissionActs, hdue, hplace]

/-- An emission into a channel is an element from then on, and its entry waits for it. -/
theorem emissionActs_channel {ch : Nat} {rest : List Emit} (hplace : e.place s = .channel ch) (hemits : s.chip.emits = e :: rest) (hnew : e ∉ rest) :
    ∃ t x, performs (emissionActs s) s = .next t ∧ t.chip.elements = s.chip.elements ++ [x] ∧ x.element.channel = ch ∧
      t.chip.emits = { e with sent := some s.chip.nextElem } :: rest := by
  have hmap : s.chip.emits.map (fun y => if y = e then { y with sent := some s.chip.nextElem } else y) = { e with sent := some s.chip.nextElem } :: rest := by
    rw [hemits, List.map_cons, if_pos rfl]
    exact congrArg _ ((List.map_congr_left fun y hy => if_neg (ne_of_mem_of_not_mem hy hnew)).trans (List.map_id rest))
  simp only [emissionActs, hdue, hplace]
  refine ⟨_, _, rfl, rfl, ?_, hmap⟩
  exact sentElement_channel

end Due

/-! The obligation, clause by clause. -/

/-- What the ring of the hosting side leaves, with the step's own end. -/
theorem performs_kept : ∃ t, performs (keptActs s r) s = .next t ∧ t.chip.journal.hostedNext = s.chip.journal.hostedNext + 1 ∧
    (∀ p, s.chip.route s.chip.journal.writer = some p →
      (t.chip.port p).out = (s.chip.port p).out ++ [.journalAck (s.chip.journal.hostedNext + 1)]) ∧
    ∀ a, t.readByte .hbm a =
      if ringPlace s.chip.journal.hostBase s.chip.journal.hostLog r.number ≤ a ∧ a < ringPlace s.chip.journal.hostBase s.chip.journal.hostLog r.number + 64
      then (recordBytes r).getD (a - ringPlace s.chip.journal.hostBase s.chip.journal.hostLog r.number) 0 else s.readByte .hbm a := by
  refine ⟨_, rfl, ?_⟩
  rw [applyActs_bump]
  exact kept_after

/-- Settles O48: each event performs what its list of effects holds, and each clause names the branch of the list that its premises take. -/
theorem journalEvents : Obligations.JournalEvents := by
  unfold Obligations.JournalEvents
  intro s
  refine ⟨?_, ?_, ?_, ?_, ?_, ?_, ?_, ?_, ?_, ?_, ?_⟩
  · intro r ok h
    exact congrArg (performs · s) (recordActs_ignored h)
  · intro r ok hv hwfail hwriter hlo hhi
    refine ⟨fun hok hnext => ?_, fun h => congrArg (performs · s) (recordActs_refused hv hwfail hwriter hlo hhi h)⟩
    have hkept : exec (.journalRecordReceive r ok) s = performs (keptActs s r) s := recordActs_kept hv hwfail hwriter hlo hhi hok hnext
    exact ⟨hkept, hkept ▸ performs_kept⟩
  · intro m n
    refine ⟨fun h3 hm => congrArg (performs · s) (ackActs_spare h3 hm), fun h3 hpval hm => congrArg (performs · s) (ackActs_partner h3 hpval hm), fun h3 h => ?_⟩
    exact congrArg (performs · s) (ackActs_other h3 h)
  · intro h
    exact ⟨congrArg (performs · s) (resendTimeoutActs_none h), congrArg (performs · s) (partnerActs_none h)⟩
  · intro since hfatal hsent
    refine ⟨fun h => ?_, fun h => ?_, fun h => ?_, fun h hduty => ?_, fun h hduty => ⟨?_, fun hspare => ?_⟩⟩
    · exact congrArg (performs · s) (resendTimeoutActs_early hsent hfatal h)
    · exact congrArg (performs · s) (resendTimeoutActs_due hsent hfatal h)
    · exact congrArg (performs · s) (partnerActs_early hsent h)
    · exact congrArg (performs · s) (partnerActs_assisted (partnerSilent_of_long hsent h) hduty)
    · exact congrArg (performs · s) (partnerActs_reseeds (partnerSilent_of_long hsent h) hduty)
    · refine congrArg (performs · s) ((partnerActs_reseeds (partnerSilent_of_long hsent h) hduty).trans ?_)
      rw [reseedActs_none hspare]
      rfl
  · intro h3 hwhole
    exact congrArg (performs · s) (reseededActs_of_whole h3 hwhole)
  · intro hv hwfail
    exact congrArg (performs · s) (downActs_fails hv hwfail)
  · intro hv hwfail hrecords hlong
    have hsilent := writerSilent_of_long hv hwfail hrecords hlong
    exact ⟨fun hduty => congrArg (performs · s) (silentActs_fails hsilent hduty), fun hduty => congrArg (performs · s) (silentActs_asks hsilent hduty)⟩
  · intro h
    exact congrArg (performs · s) (emissionActs_none (emissionDue_none h))
  · intro e l hemits hfatal hdur hsilent
    have hdue := emissionDue_silent hemits hfatal hdur hsilent
    exact (congrArg (performs · s) (emissionActs_silent hdue (place_silent hsilent))).trans (performs_free_head hemits)
  · intro e l hemits hfatal hdur hhold hnew hrest
    have hdue := emissionDue_oldest hemits hfatal hdur hhold (hrest := hrest)
    refine ⟨fun h off hplace hfence => ?_, fun n hplace => ?_, fun ch hplace => ?_⟩
    · have hdue := hdue (by simp [hplace])
      exact (congrArg (performs · s) (emissionActs_home hdue hplace hfence)).trans (performs_free_head hemits)
    · have hdue := hdue (by simp [hplace])
      exact (congrArg (performs · s) (emissionActs_fault hdue hplace)).trans (performs_free_head hemits)
    · have hdue := hdue (by simp [hplace])
      exact emissionActs_channel hdue hplace hemits hnew

end Sys2Proof.Machine
end

section
/-! PROOFS. What an ECC check leaves: it marks units anew and posts events (10 R254, 19 R359). -/

namespace Sys2Proof.Machine

variable {s t : State} {a : Act} {h : Chip} {k fn u : Nat} {p : Posted} {places : List (Home × Nat × Nat)}

/-- An event posted leaves the TLBs, the ranges under way and the hosts' held writes. -/
theorem post_l1 : (h.post k p).l1 = h.l1 := by simp only [Chip.post, apply_ite Chip.l1, ite_self]
theorem post_tlb : (h.post k p).tlb = h.tlb := by simp only [Chip.post, apply_ite Chip.tlb, ite_self]
theorem post_moving : (h.post k p).moving = h.moving := by simp only [Chip.post, apply_ite Chip.moving, ite_self]

/-- A micro-operation that marks a unit of memory or posts an event. -/
def Act.marksOrPosts (s : State) (a : Act) : Prop := (∃ h u v, a = .mark h u v) ∨ ∃ code fn place addr info, a = post s code fn place addr info

theorem eccUnit_marksOrPosts {g : Home} {m : UnitMark} (ha : a ∈ eccUnit s fn g u m) : a.marksOrPosts s := by
  have both : ∀ v code fn place addr info, a ∈ [Act.mark g u v, post s code fn place addr info] → a.marksOrPosts s := by
    intro v code fn place addr info hm
    obtain rfl | hm := List.mem_cons.mp hm
    · exact .inl ⟨_, _, _, rfl⟩
    · exact .inr ⟨_, _, _, _, _, List.mem_singleton.mp hm⟩
  unfold eccUnit at ha
  split at ha
  · exact both _ _ _ _ _ _ ha
  · exact both _ _ _ _ _ _ ha
  · exact both _ _ _ _ _ _ ha
  · exact both _ _ _ _ _ _ ha
  · exact both _ _ _ _ _ _ ha
  · exact .inl ⟨_, _, _, List.mem_singleton.mp ha⟩
  · exact absurd ha List.not_mem_nil

theorem eccChecks_marksOrPosts (ha : a ∈ eccChecks s places fn) : a.marksOrPosts s := by
  rw [eccChecks, List.mem_flatMap] at ha
  obtain ⟨g, -, ha⟩ := ha
  obtain ⟨e, -, ha⟩ := List.mem_flatMap.mp ha
  exact eccUnit_marksOrPosts ha

/-- What no posted event changes of the chip is as it was after a mark or a post. -/
theorem Act.marksOrPosts.keeps_chip (ha : a.marksOrPosts s) {β : Type} {f : Chip → β} (hf : ∀ h k p, f (Chip.post h k p) = f h) :
    f (applyAct a t).chip = f t.chip := by
  obtain ⟨g, u, v, rfl⟩ | ⟨code, fn, place, addr, info, rfl⟩ := ha
  · exact congrArg f setMem_chip
  · exact hf _ _ _

theorem Act.marksOrPosts.keeps_readByte (ha : a.marksOrPosts s) {g : Home} {b : Nat} : (applyAct a t).readByte g b = t.readByte g b := by
  obtain ⟨h, u, v, rfl⟩ | ⟨code, fn, place, addr, info, rfl⟩ := ha
  · have hmem : (t.setMem h (t.mem h) (SMap.set .clear (t.marks h) (h.key (8 * u) / 8) v)).mem g = t.mem g := by
      cases h <;> cases g <;> rfl
    exact congrArg (Memory.read · (g.key b)) hmem
  · cases g <;> rfl

theorem eccChecks_chip {β : Type} {f : Chip → β} (hf : ∀ h k p, f (Chip.post h k p) = f h) :
    f (applyActs (eccChecks s places fn) t).chip = f t.chip :=
  applyActs_keeps (p := fun t => f t.chip) (fun _ ha _ => (eccChecks_marksOrPosts ha).keeps_chip hf) t

theorem eccChecks_readByte {g : Home} {b : Nat} : (applyActs (eccChecks s places fn) t).readByte g b = t.readByte g b :=
  applyActs_keeps (p := fun t => t.readByte g b) (fun _ ha _ => (eccChecks_marksOrPosts ha).keeps_readByte) t

end Sys2Proof.Machine
end

section
/-! PROOFS. TLBs as they are filled and as translations are dropped (10 R243, R244). -/

namespace Sys2Proof.Machine

variable {s : State} {e x : TlbEntry} {h : Chip} {m : SMap (List TlbEntry)} {c d fn lo hi va pick k table cap : Nat} {cs : List Nat}

/-! Filling. -/

/-- An entry stands in the TLB of a core and in its die's (R243). -/
def InTlbs (e : TlbEntry) (c : Nat) (h : Chip) : Prop := e ∈ SMap.get [] h.l1 c ∧ e ∈ SMap.get [] h.tlb (c / 256)

theorem mem_tlbInsert {l : List TlbEntry} (hcap : 0 < cap) : e ∈ tlbInsert cap l e := by
  obtain ⟨n, rfl⟩ : ∃ n, cap = n + 1 := ⟨cap - 1, by omega⟩
  exact List.mem_cons_self

/-- An entry put into one TLB stands there, and in every TLB where it stood before. -/
theorem mem_get_insert (hcap : 0 < cap) (hin : c = d ∨ e ∈ SMap.get [] m c) :
    e ∈ SMap.get [] (SMap.set [] m d (tlbInsert cap (SMap.get [] m d) e)) c := by
  by_cases hc : c = d
  · subst hc
    rw [SMap.get_set_of_ne (List.ne_nil_of_mem (mem_tlbInsert hcap))]
    exact mem_tlbInsert hcap
  · rw [SMap.get_set_other hc]
    exact hin.resolve_left hc

theorem inTlbs_fill (hin : c = d ∨ InTlbs e c h) : InTlbs e c (fillTlbs d e h) :=
  ⟨mem_get_insert (by decide) (hin.imp_right And.left), mem_get_insert (by decide) (hin.imp (congrArg (· / 256)) And.right)⟩

/-- The fills of several cores' TLBs, those of their dies included. -/
def fillsOf (e : TlbEntry) (cs : List Nat) : List Act := cs.map (fun c => .chip (fillTlbs c e))

theorem inTlbs_fills (hin : InTlbs e c s.chip) : InTlbs e c (applyActs (fillsOf e cs) s).chip := by
  induction cs generalizing s with
  | nil => exact hin
  | cons d cs ih => exact ih (inTlbs_fill (.inr hin))

/-- The first core's fill stands through those of the others. -/
theorem inTlbs_fills_head : InTlbs e c (applyActs (fillsOf e (c :: cs).eraseDups) s).chip := by
  rw [List.eraseDups_cons]
  exact inTlbs_fills (s := applyAct (.chip (fillTlbs c e)) s) (inTlbs_fill (.inl rfl))

/-! Dropping. -/

/-- What a map's list holds stands in one of its entries. -/
theorem exists_mem_of_mem_get (hx : x ∈ SMap.get [] m c) : ∃ l, (c, l) ∈ m ∧ x ∈ l :=
  ⟨_, SMap.mem_of_get_ne (List.ne_nil_of_mem hx), hx⟩

/-- No entry of the function that meets the dropped addresses stays in any TLB. -/
theorem dropTlb_apart (hx : x ∈ SMap.get [] (h.dropTlb fn lo hi).l1 c ∨ x ∈ SMap.get [] (h.dropTlb fn lo hi).tlb c) (hfn : x.fn = fn) :
    hi < x.base ∨ x.base + x.size ≤ lo := by
  have kept : ∀ m : SMap (List TlbEntry),
      x ∈ SMap.get [] ((m.map (fun e => (e.1, e.2.filter (fun e : TlbEntry => !(e.fn = fn && e.base ≤ hi && lo < e.base + e.size))))).filter (fun e => !e.2.isEmpty)) c →
      hi < x.base ∨ x.base + x.size ≤ lo := by
    intro m hm
    obtain ⟨l, hl, hx⟩ := exists_mem_of_mem_get hm
    obtain ⟨y, -, hy⟩ := List.mem_map.mp (List.mem_filter.mp hl).1
    obtain ⟨-, rfl⟩ := Prod.mk.inj hy
    have hkeep := (List.mem_filter.mp hx).2
    simp only [hfn, decide_true, Bool.true_and, Bool.not_eq_true', Bool.and_eq_false_iff, decide_eq_false_iff_not] at hkeep
    omega
  exact hx.elim (kept _) (kept _)

/-! What a walk finds. -/

/-- One level of a walk finds a page, or the walk goes on one level down. -/
theorem walkLevel_cases (hfound : walkLevel s fn va pick k table = some e) :
    0 < e.size ∨ ∃ j next, k = j + 1 ∧ walkLevel s fn va pick j next = some e := by
  unfold walkLevel at hfound
  dsimp only at hfound
  rw [Option.ite_none_left_eq_some] at hfound
  obtain ⟨-, hfound⟩ := hfound
  split at hfound
  · rw [Option.ite_none_right_eq_some] at hfound
    obtain ⟨-, hfound⟩ := hfound
    rw [← Option.some.inj hfound]
    exact .inl (Nat.two_pow_pos _)
  · cases k with
    | zero => exact absurd hfound (by simp)
    | succ k => exact .inr ⟨k, _, rfl, hfound⟩

theorem walkLevel_size (hfound : walkLevel s fn va pick k table = some e) : 0 < e.size := by
  induction k generalizing table with
  | zero => exact (walkLevel_cases hfound).resolve_right (fun ⟨j, _, hj, _⟩ => absurd hj (Nat.succ_ne_zero j).symm)
  | succ k ih =>
    obtain hsize | ⟨j, next, hj, hnext⟩ := walkLevel_cases hfound
    · exact hsize
    · obtain rfl := Nat.succ.inj hj
      exact ih hnext

/-- A page found by a walk has bytes. -/
theorem walkNow_size (hfound : walkNow s fn va pick = some e) : 0 < e.size := by
  rw [walkNow] at hfound
  split at hfound
  · exact walkLevel_size hfound
  · exact absurd hfound (by simp)

end Sys2Proof.Machine
end

section
/-! PROOFS. A page walk as it ends: the accesses that waited for it, the TLBs that it fills, and the walks that go on (10 R243, R245, R256, R264). -/

namespace Sys2Proof.Machine

variable {s t : State} {w : Walk} {a b : Access} {e : TlbEntry} {x : Act} {k : Work} {l old : List Access} {c fn va n i : Nat}

/-! Accesses whose bound or order a walk's end settles. -/

/-- The bound that the units of a store get changes nothing else of them (R256). -/
theorem mem_rebound (ha : a ∈ l) : ∃ b ∈ rebound s old l, b = { a with bound := b.bound } := by
  refine ⟨_, List.mem_map_of_mem ha, ?_⟩
  dsimp only
  split <;> rfl

/-- The accesses that an access is found to follow change nothing else of it (R264). -/
theorem mem_alignDeps (ha : a ∈ l) : ∃ b ∈ alignDeps s l, b = { a with deps := b.deps } := by
  obtain ⟨i, hi, rfl⟩ := List.getElem_of_mem ha
  refine ⟨_, List.mem_mapIdx.mpr ⟨i, hi, rfl⟩, ?_⟩
  dsimp only
  split <;> rfl

/-! The walks that begin. -/

/-- An access joins walks in flight, or one more walk begins, under the next name (R243). -/
theorem walkFor_cases {o : Option Nat} :
    (∃ f : Walk → Walk, (∀ y, (f y).id = y.id) ∧ k.walkFor s c fn va n o = { k with walks := k.walks.map f }) ∨
      ∃ y : Walk, y.id = k.nextId ∧ k.walkFor s c fn va n o = { k with walks := k.walks ++ [y], nextId := k.nextId + 1 } := by
  unfold Work.walkFor
  dsimp only
  split_ifs
  · refine .inl ⟨_, fun y => ?_, rfl⟩
    split_ifs <;> rfl
  · exact .inr ⟨_, rfl, rfl⟩

theorem walkFor_accesses {o : Option Nat} : (k.walkFor s c fn va n o).accesses = k.accesses := by
  obtain ⟨f, -, h⟩ | ⟨y, -, h⟩ := walkFor_cases (s := s) (c := c) (fn := fn) (va := va) (n := n) (k := k) (o := o) <;> rw [h]

/-- No walk has the name i, which is an earlier one, so none will have it. -/
def Work.NoWalk (i : Nat) (k : Work) : Prop := i < k.nextId ∧ ∀ y ∈ k.walks, y.id ≠ i

theorem noWalk_walkFor {o : Option Nat} (hk : k.NoWalk i) : (k.walkFor s c fn va n o).NoWalk i := by
  obtain ⟨hnext, hwalks⟩ := hk
  obtain ⟨f, hf, h⟩ | ⟨y, hy, h⟩ := walkFor_cases (s := s) (c := c) (fn := fn) (va := va) (n := n) (k := k) (o := o)
  · rw [h]
    exact ⟨hnext, List.forall_mem_map.mpr fun y hy => hf y ▸ hwalks y hy⟩
  · rw [h]
    exact ⟨Nat.lt_succ_of_lt hnext, List.forall_mem_append.mpr ⟨hwalks, List.forall_mem_singleton.mpr (hy ▸ Nat.ne_of_gt hnext)⟩⟩

/-- The walks that the addresses left over wait for, each with the core that it is for. -/
def Work.walksForAll (s : State) (fn n : Nat) (k : Work) (l : List (Nat × Nat)) : Work := l.foldl (fun k p => k.walkFor s p.1 fn p.2 n none) k

theorem walksForAll_accesses {l : List (Nat × Nat)} : (k.walksForAll s fn n l).accesses = k.accesses := by
  induction l generalizing k with
  | nil => rfl
  | cons p l ih => exact ih.trans walkFor_accesses

theorem noWalk_walksForAll {l : List (Nat × Nat)} (hk : k.NoWalk i) : (k.walksForAll s fn n l).NoWalk i := by
  induction l generalizing k with
  | nil => exact hk
  | cons p l ih => exact ih (noWalk_walkFor hk)

/-! The end of a walk. -/

/-- What a walk finds as it ends. -/
def Walk.finds (s : State) (w : Walk) : Option TlbEntry := walkNow s w.fn (w.page * 4096) (s.choice 0)

/-- The work as the end of a walk leaves it, before what it does not serve begins walks of its own. -/
def Work.walkEnded (s : State) (w : Walk) (k : Work) : Work :=
  { k with
    failed := if (w.finds s).isSome then k.failed else k.failed ++ [(w.die, w.fn, w.page)]
    walks := (k.walks.filter (fun x => x.id ≠ w.id)).map (fun x =>
      if some x.id = (s.work.walks.find? (fun x => x.die = w.die && !x.started)).map (fun x => x.id) then { x with started := true, at_ := s.cyc + 1 + s.choice 1 } else x)
    accesses := alignDeps s (rebound s k.accesses (k.accesses.map (fun a => a.afterWalk s w (w.finds s))))
    copies := k.copies.map (fun y => y.afterWalk s w (w.finds s)) }

theorem noWalk_walkEnded (hid : w.id < k.nextId) : (k.walkEnded s w).NoWalk w.id := by
  refine ⟨hid, List.forall_mem_map.mpr fun y hy => ?_⟩
  have hy : y.id ≠ w.id := of_decide_eq_true (List.mem_filter.mp hy).2
  split <;> exact hy

/-- An access to the walk's page that waits for a walk has its translation, or fault 0, when the walk ends (R243, R245). -/
theorem walkEnded_serves (ha : a ∈ k.accesses) (hfn : a.fn = w.fn) (hdie : a.q / 1024 = w.die) (hpage : a.va / 4096 = w.page) (hwait : a.trans = .waiting) :
    ∃ b ∈ (k.walkEnded s w).accesses, b.id = a.id ∧ b.va = a.va ∧ b.trans = afterWalk s (w.finds s) a.va (a.kind ≠ .load) := by
  obtain ⟨b, hb, hbound⟩ := mem_rebound (s := s) (old := k.accesses) (List.mem_map_of_mem (f := fun a => a.afterWalk s w (w.finds s)) ha)
  obtain ⟨d, hd, hdeps⟩ := mem_alignDeps (s := s) hb
  have hserves : w.serves (w.finds s) a.va = true := by simp [Walk.serves, hpage]
  have hafter : a.afterWalk s w (w.finds s) =
      { a with pieces := settleParts s w (w.finds s) true a.pieces, trans := afterWalk s (w.finds s) a.va (a.kind ≠ .load) } := by
    simp [Access.afterWalk, hfn, hdie, hwait, hserves]
  refine ⟨d, hd, ?_⟩
  rw [hdeps, hbound]
  dsimp only
  rw [hafter]
  exact ⟨rfl, rfl, rfl⟩

/-- The fills of a walk that found a page: the core that it was begun for, and those whose accesses it serves (R243). -/
def walkFills (found : Option TlbEntry) (cs : List Nat) : List Act :=
  match found with
  | some e => fillsOf e cs.eraseDups
  | none => []

/-- A walk that ends fills TLBs, checks what it has read, gives tile rows their translations, and leaves the work with further walks. -/
theorem walkActs_ended (hstarted : w.started = true) (hdue : w.at_ ≤ s.cyc) : ∃ (cs : List Nat) (places : List PagePart) (rows : List Act) (f : Work → Work),
    walkActs s w = walkFills (w.finds s) (w.core :: cs) ++ partChecks s 0 places ++ rows ++ [.work f] ∧ (∀ x ∈ rows, ∃ n v, x = .stage n v) ∧
      ∀ k, ∃ l, f k = (k.walkEnded s w).walksForAll s w.fn (s.cyc + 1 + s.choice 3) l := by
  have hends : ¬ (!w.started || decide (s.cyc < w.at_)) = true := by simp [hstarted, hdue]
  rw [walkActs, if_neg hends]
  exact ⟨_, _, _, _, rfl, List.forall_mem_map.mpr fun y _ => ⟨_, _, rfl⟩, fun k => ⟨_, rfl⟩⟩

/-- What no fill, check or tile row changes of the state is what the work's end finds. -/
theorem walkFills_keeps {β : Type} {p : State → β} {found : Option TlbEntry} {cs : List Nat} (hp : ∀ t h, p { t with chip := h } = p t) :
    p (applyActs (walkFills found cs) t) = p t := by
  refine applyActs_keeps (fun x hx t => ?_) t
  unfold walkFills at hx
  split at hx
  · obtain ⟨c, -, rfl⟩ := List.mem_map.mp hx
    exact hp t _
  · exact absurd hx List.not_mem_nil

theorem stages_keep {β : Type} {p : State → β} {rows : List Act} (hrows : ∀ x ∈ rows, ∃ n v, x = .stage n v) (hp : ∀ t m, p { t with staging := m } = p t) :
    p (applyActs rows t) = p t := by
  refine applyActs_keeps (fun x hx t => ?_) t
  obtain ⟨n, v, rfl⟩ := hrows x hx
  exact hp t _

/-- The state after the end of a walk: its work, and the TLBs as its fills leave them. -/
theorem walkActs_state (hstarted : w.started = true) (hdue : w.at_ ≤ s.cyc) : ∃ cs l,
    (applyActs (walkActs s w) s).work = (s.work.walkEnded s w).walksForAll s w.fn (s.cyc + 1 + s.choice 3) l ∧
      (applyActs (walkActs s w) s).chip.l1 = (applyActs (walkFills (w.finds s) (w.core :: cs)) s).chip.l1 ∧
      (applyActs (walkActs s w) s).chip.tlb = (applyActs (walkFills (w.finds s) (w.core :: cs)) s).chip.tlb := by
  obtain ⟨cs, places, rows, f, hacts, hrows, hwork⟩ := walkActs_ended hstarted hdue
  obtain ⟨l, hl⟩ := hwork s.work
  refine ⟨cs, l, ?_⟩
  rw [hacts, applyActs_append, applyActs_append, applyActs_append, ← hl]
  refine ⟨?_, ?_, ?_⟩
  · exact congrArg f ((stages_keep (p := State.work) hrows fun _ _ => rfl).trans (eccChecks_work.trans (walkFills_keeps (p := State.work) fun _ _ => rfl)))
  · exact (stages_keep (p := fun t => t.chip.l1) hrows fun _ _ => rfl).trans (eccChecks_chip fun _ _ _ => post_l1)
  · exact (stages_keep (p := fun t => t.chip.tlb) hrows fun _ _ => rfl).trans (eccChecks_chip fun _ _ _ => post_tlb)

theorem exec_tlbWalkComplete (hw : s.work.walks.find? (fun x => x.id = i) = some w) : exec (.tlbWalkComplete i) s = performs (walkActs s w) s := by
  show execTlbWalkComplete i s = _
  rw [execTlbWalkComplete, hw]
  rfl

/-- What a walk that ends leaves: no walk of its name, its translation at the accesses to its page, and the page in the TLBs (R243, R245). -/
theorem walk_ends (hw : s.work.walks.find? (fun x => x.id = w.id) = some w) (hstarted : w.started = true) (hdue : w.at_ ≤ s.cyc) (hid : w.id < s.work.nextId) :
    ∃ t, exec (.tlbWalkComplete w.id) s = .next t ∧ (∀ y ∈ t.work.walks, y.id ≠ w.id) ∧
      (∀ a ∈ s.work.accesses, a.fn = w.fn → a.q / 1024 = w.die → a.va / 4096 = w.page → a.trans = .waiting →
        ∃ b ∈ t.work.accesses, b.id = a.id ∧ b.va = a.va ∧ b.trans = afterWalk s (w.finds s) a.va (a.kind ≠ .load)) ∧
      (∀ e, w.finds s = some e → InTlbs e w.core t.chip) ∧ (w.finds s = none → t.chip.l1 = s.chip.l1 ∧ t.chip.tlb = s.chip.tlb) := by
  obtain ⟨cs, l, hwork, hl1, htlb⟩ := walkActs_state hstarted hdue
  refine ⟨_, exec_tlbWalkComplete hw, ?_⟩
  rw [applyActs_bump, applyAct_bump]
  dsimp only
  refine ⟨?_, fun a ha hfn hdie hpage hwait => ?_, fun e he => ?_, fun hnone => ?_⟩
  · rw [hwork]
    exact (noWalk_walksForAll (noWalk_walkEnded hid)).2
  · rw [hwork, walksForAll_accesses]
    exact walkEnded_serves ha hfn hdie hpage hwait
  · rw [InTlbs, hl1, htlb, he]
    exact inTlbs_fills_head
  · rw [hl1, htlb, hnone]
    exact ⟨rfl, rfl⟩

end Sys2Proof.Machine
end

section
/-! PROOFS. Invalidations, and host-shared pages as they pass between device and host (10 R244, R246, R270). -/

namespace Sys2Proof.Machine

variable {s t : State} {e x : TlbEntry} {i : Invalidation} {v : Word} {b toHost : Bool} {a c fn va table first n : Nat}

/-! Invalidations. -/

theorem invalidateActs_names (hgo : v.getLsbD 8 = false) : invalidateActs s v = [.chip (fun h => { h with invFn := (v.extractLsb' 0 5).toNat })] :=
  if_pos (by rw [hgo]; rfl)

theorem invalidateActs_starts (hgo : v.getLsbD 8 = true) : invalidateActs s v =
    [.chip (fun h => { (h.dropTlb (v.extractLsb' 0 5).toNat s.chip.invLo.toNat s.chip.invHi.toNat) with
      invFn := (v.extractLsb' 0 5).toNat, invDone := false
      invalidating := some ((h.invalidating.getD {}).and (translationUsers s (v.extractLsb' 0 5).toNat s.chip.invLo.toNat s.chip.invHi.toNat)) })] :=
  if_neg (by rw [hgo]; decide)

/-- An invalidation waits for nothing more once what used the dropped translations has performed (R244). -/
theorem not_busy (haccs : ∀ a ∈ s.work.accesses, a.id ∈ i.accs → a.performed = true)
    (hcopies : ∀ y ∈ s.work.copies, ∀ n, (y.id, n) ∈ i.copies → n ≤ y.cursor ∧ ∀ a ∈ s.work.accesses, a.origin = some y.id → a.performed = true)
    (hrows : ∀ k va, (k, va) ∈ i.rows → (SMap.get {} s.staging k).va ≠ va ∨ (SMap.get {} s.staging k).present = true ∨
      (SMap.get {} s.staging k).bad = true ∨ (SMap.get {} s.staging k).parts = []) : i.busy s = false := by
  have hbusyAccs : s.work.accesses.any (fun a => !a.performed && i.accs.contains a.id) = false := by
    refine List.any_eq_false.mpr fun a ha hbusy => ?_
    obtain ⟨hopen, hin⟩ := Bool.and_eq_true_iff.mp hbusy
    rw [haccs a ha (List.contains_iff_mem.mp hin)] at hopen
    exact Bool.false_ne_true hopen
  have hbusyCopies : s.work.copies.any (fun y => i.copies.any (fun e => e.1 = y.id &&
      (y.cursor < e.2 || s.work.accesses.any (fun a => !a.performed && a.origin = some y.id)))) = false := by
    refine List.any_eq_false.mpr fun y hy hbusy => ?_
    obtain ⟨⟨k, n⟩, hin, hbusy⟩ := List.any_eq_true.mp hbusy
    simp only [Bool.and_eq_true, Bool.or_eq_true, decide_eq_true_eq, List.any_eq_true, Bool.not_eq_true'] at hbusy
    obtain ⟨rfl, hbusy⟩ := hbusy
    obtain ⟨hcursor, hdone⟩ := hcopies y hy n hin
    obtain hbusy | ⟨a, ha, hopen, horigin⟩ := hbusy
    · omega
    · exact absurd (hdone a ha horigin) (by simp [hopen])
  have hbusyRows : i.rows.any (fun e => let x := SMap.get {} s.staging e.1; x.va = e.2 && !x.present && !x.bad && !x.parts.isEmpty) = false := by
    refine List.any_eq_false.mpr fun e he hbusy => ?_
    simp only [Bool.and_eq_true, decide_eq_true_eq, Bool.not_eq_true', List.isEmpty_eq_false_iff] at hbusy
    obtain ⟨⟨⟨hva, hpresent⟩, hbad⟩, hparts⟩ := hbusy
    obtain h | h | h | h := hrows e.1 e.2 he
    · exact h hva
    · simp [hpresent] at h
    · simp [hbad] at h
    · exact hparts h
  rw [Invalidation.busy, hbusyAccs, hbusyCopies, hbusyRows]
  rfl

theorem exec_tlbInvalidateComplete (hinv : s.chip.invalidating = some i) (hdone : i.busy s = false) :
    exec .tlbInvalidateComplete s = performs [.chip (fun h => { h with invalidating := none, invDone := true })] s := by
  have hready : invalidated s = true := by simp only [invalidated, hinv, hdone, Bool.not_false]
  show execTlbInvalidateComplete s = _
  rw [execTlbInvalidateComplete, if_pos hready]
  rfl

/-! Handovers. -/

/-- A byte of device memory after a write there. -/
theorem readByte_write_hbm {bs : List Byte} {ps : List Bool} {d : Nat} : (applyAct (.write .hbm a bs ps) s).readByte .hbm d =
    if a ≤ d ∧ d < a + bs.length then bs.getD (d - a) 0 else s.readByte .hbm d := readByte_write rfl

/-- The end of an event changes neither memory nor the chip. -/
theorem readByte_bump {g : Home} : (applyAct bump t).readByte g a = t.readByte g a := readByte_control (l := [bump]) (List.forall_mem_singleton.mpr rfl)
theorem chip_bump : (applyAct bump t).chip = t.chip := rfl

/-- Single bytes written eight apart, and nothing else of device memory changed. -/
theorem readByte_spaced {f : Nat → Byte} {g : Nat → Bool} :
    (applyActs ((List.range n).map (fun i => Act.write .hbm (first + 8 * i) [f i] [g i])) t).readByte .hbm a =
      if first ≤ a ∧ a < first + 8 * n ∧ (a - first) % 8 = 0 then f ((a - first) / 8) else t.readByte .hbm a := by
  induction n with
  | zero => rw [if_neg (by omega)]; rfl
  | succ n ih =>
    rw [List.range_succ, List.map_append, applyActs_append, List.map_singleton, applyActs_cons, applyActs_nil, readByte_write_hbm, ih, List.length_singleton]
    by_cases hlast : a = first + 8 * n
    · rw [if_pos (by omega), if_pos (by omega), hlast, Nat.sub_self, Nat.add_sub_cancel_left, Nat.mul_div_cancel_left n (by decide)]
      rfl
    · rw [if_neg (by omega)]
      by_cases hin : first ≤ a ∧ a < first + 8 * n ∧ (a - first) % 8 = 0
      · rw [if_pos hin, if_pos (by omega)]
      · rw [if_neg hin, if_neg (by omega)]

/-- The first byte of the 16 entries of the page that an address lies in. -/
def ownFirst (table va : Nat) : Nat := table + 8 * (va / 4096 % 512 / 16 * 16)

/-- OWN in the 16 entries of a page: bit 6 of their first bytes, and nothing else of device memory. -/
theorem setOwn_readByte : (applyActs (setOwn s table va b) t).readByte .hbm a =
    if ownFirst table va ≤ a ∧ a < ownFirst table va + 128 ∧ (a - ownFirst table va) % 8 = 0 then
      (if b then s.readByte .hbm a ||| 0x40 else s.readByte .hbm a &&& 0xBF) else t.readByte .hbm a := by
  have hacts : setOwn s table va b = (List.range 16).map (fun i => Act.write .hbm (ownFirst table va + 8 * i)
      [if b then s.readByte .hbm (ownFirst table va + 8 * i) ||| 0x40 else s.readByte .hbm (ownFirst table va + 8 * i) &&& 0xBF]
      [s.unitPoisoned .hbm (ownFirst table va + 8 * i)]) := by
    simp only [setOwn, ownFirst, Nat.mul_add, Nat.add_assoc]
  rw [hacts, readByte_spaced (f := fun i => if b then s.readByte .hbm (ownFirst table va + 8 * i) ||| 0x40 else s.readByte .hbm (ownFirst table va + 8 * i) &&& 0xBF)]
  by_cases hin : ownFirst table va ≤ a ∧ a < ownFirst table va + 128 ∧ (a - ownFirst table va) % 8 = 0
  · rw [if_pos hin, if_pos hin, show ownFirst table va + 8 * ((a - ownFirst table va) / 8) = a by omega]
  · rw [if_neg hin, if_neg hin]

theorem setOwn_chip : (applyActs (setOwn s table va b) t).chip = t.chip := by
  refine applyActs_keeps (p := State.chip) (fun x hx t => ?_) t
  obtain ⟨i, -, rfl⟩ := List.mem_map.mp hx
  exact setMem_chip

/-- The second half of a handover: OWN in the page's entries, and its translations dropped. -/
def ownActs (s : State) (fn table va : Nat) (toHost : Bool) (e : TlbEntry) : List Act :=
  setOwn s table va toHost ++ [.chip (fun h => h.dropTlb fn e.base (e.base + e.size - 1))]

/-- The first half of a page's handover to the host where no access is still to write it: the copies that wait for a walk to it find it. -/
def findActs (s : State) (e : TlbEntry) : List Act :=
  [.work (fun w => { w with
    accesses := w.accesses.map (fun a => if ([] : List Nat).contains a.id then a.found s e else a), copies := w.copies.map (fun y => y.found s e) })]

theorem writesFirst_none (haccs : ∀ a ∈ s.work.accesses, writesPage a e = false) : writesFirst s e = findActs s e := by
  have hnone : s.work.accesses.filter (fun a => writesPage a e) = [] := List.filter_eq_nil_iff.mpr fun a ha => by simp [haccs a ha]
  rw [writesFirst, hnone]
  rfl

/-- Then no write to the page is still to perform. -/
theorem pageWritten_found (haccs : ∀ a ∈ s.work.accesses, writesPage a e = false) (hheld : pageHeld s e = false)
    (hcopies : ∀ y ∈ s.work.copies, ∀ k ∈ (y.found s e).chunks, ∀ pa, k.dst = .done pa → rangesMeet pa k.n e.pa e.size = false) :
    pageWritten (applyActs (findActs s e) s) e = false := by
  have haccs' : (s.work.accesses.map (fun a => if ([] : List Nat).contains a.id then a.found s e else a)).any (fun a => writesPage a e) = false := by
    simpa using haccs
  have hcopies' : (s.work.copies.map (fun y => y.found s e)).any (fun y => y.chunks.any (fun k => match k.dst with
      | .done pa => rangesMeet pa k.n e.pa e.size | _ => false)) = false := by
    simp only [List.any_eq_false, List.mem_map, forall_exists_index, and_imp, forall_apply_eq_imp_iff₂, Bool.not_eq_true]
    intro y hy k hk
    split
    · next pa hdst => exact hcopies y hy k hk pa hdst
    · rfl
  exact Bool.or_eq_false_iff.mpr ⟨Bool.or_eq_false_iff.mpr ⟨haccs', hheld⟩, hcopies'⟩

/-- A handover of a host-shared page whose owner it changes, once no device write to it is open (R246, R270). -/
theorem handoverActs_eq (hwalk : walkNow s fn va (s.choice 0) = some e) (htable : leafTable s fn va = some table) (hshared : e.hostShared = true)
    (hown : e.own ≠ toHost) (hwritten : toHost = true → (∀ a ∈ s.work.accesses, writesPage a e = false) ∧ pageHeld s e = false ∧
      ∀ y ∈ s.work.copies, ∀ k ∈ (y.found s e).chunks, ∀ pa, k.dst = .done pa → rangesMeet pa k.n e.pa e.size = false) :
    handoverActs s fn va toHost = (if toHost then findActs s e else []) ++ ownActs (applyActs (if toHost then findActs s e else []) s) fn table va toHost e := by
  have hpasses : ¬ (!e.hostShared || decide (e.own = toHost)) = true := by simp [hshared, hown]
  simp only [handoverActs, hwalk, htable, if_neg hpasses]
  cases toHost with
  | false => rfl
  | true =>
    obtain ⟨haccs, hheld, hcopies⟩ := hwritten rfl
    have hopen : ¬ pageWritten (applyActs (findActs s e) s) e = true := by rw [pageWritten_found haccs hheld hcopies]; exact Bool.false_ne_true
    rw [writesFirst_none haccs, if_neg hopen]
    rfl

/-- A handover changes OWN in the page's entries alone of device memory (R246). -/
theorem ownActs_readByte : (applyActs (ownActs s fn table va toHost e) t).readByte .hbm a =
    if ownFirst table va ≤ a ∧ a < ownFirst table va + 128 ∧ (a - ownFirst table va) % 8 = 0 then
      (if toHost then s.readByte .hbm a ||| 0x40 else s.readByte .hbm a &&& 0xBF) else t.readByte .hbm a := by
  rw [ownActs, applyActs_append, readByte_control (List.forall_mem_singleton.mpr rfl), setOwn_readByte]

theorem ownActs_chip : (applyActs (ownActs s fn table va toHost e) t).chip = t.chip.dropTlb fn e.base (e.base + e.size - 1) := by
  rw [ownActs, applyActs_append, applyActs_cons, applyActs_nil, applyAct_chip]
  dsimp only
  rw [setOwn_chip]

/-- No translation of the page is left. -/
theorem ownActs_apart (hsize : 0 < e.size) (hx : x ∈ SMap.get [] (applyActs (ownActs s fn table va toHost e) t).chip.l1 c ∨
    x ∈ SMap.get [] (applyActs (ownActs s fn table va toHost e) t).chip.tlb c) (hfn : x.fn = fn) : e.base + e.size ≤ x.base ∨ x.base + x.size ≤ e.base := by
  rw [ownActs_chip] at hx
  have := dropTlb_apart hx hfn
  omega

theorem handover_passes (hwalk : walkNow s fn va (s.choice 0) = some e) (htable : leafTable s fn va = some table) (hshared : e.hostShared = true)
    (hown : e.own ≠ toHost) (hwritten : toHost = true → (∀ a ∈ s.work.accesses, writesPage a e = false) ∧ pageHeld s e = false ∧
      ∀ y ∈ s.work.copies, ∀ k ∈ (y.found s e).chunks, ∀ pa, k.dst = .done pa → rangesMeet pa k.n e.pa e.size = false) :
    ∃ t, exec (.pageHandover fn va toHost) s = .next t ∧
      (∀ a, t.readByte .hbm a = if ownFirst table va ≤ a ∧ a < ownFirst table va + 128 ∧ (a - ownFirst table va) % 8 = 0 then
        (if toHost then s.readByte .hbm a ||| 0x40 else s.readByte .hbm a &&& 0xBF) else s.readByte .hbm a) ∧
      ∀ c x, x ∈ SMap.get [] t.chip.l1 c ∨ x ∈ SMap.get [] t.chip.tlb c → x.fn = fn → e.base + e.size ≤ x.base ∨ x.base + x.size ≤ e.base := by
  have hfound : ∀ a, (applyActs (if toHost then findActs s e else []) s).readByte .hbm a = s.readByte .hbm a := fun a =>
    readByte_control (by cases toHost <;> simp [findActs, Act.control])
  have hexec : exec (.pageHandover fn va toHost) s = performs (handoverActs s fn va toHost) s := rfl
  refine ⟨_, hexec, ?_⟩
  rw [applyActs_bump, handoverActs_eq hwalk htable hshared hown hwritten, applyActs_append]
  generalize applyActs (if toHost then findActs s e else []) s = u at hfound
  refine ⟨fun a => ?_, fun c x hx hfn => ?_⟩
  · rw [readByte_bump, ownActs_readByte, hfound a]
  · rw [chip_bump] at hx
    exact ownActs_apart (walkNow_size hwalk) hx hfn

end Sys2Proof.Machine
end

section
/-! PROOFS. Ranges as they move: the three stages of a migration, and what it held in the order held (10 R253). -/

namespace Sys2Proof.Machine

variable {s t : State} {e : BitVec 192} {a : Access} {n off fn b pa : Nat} {m : Nat × Nat}

/-! Lists in the order of a key. -/

section Sorted

variable {α : Type} {key : α → Nat} {x z : α} {l : List α}

theorem mem_insertBy : z ∈ insertBy key x l ↔ z = x ∨ z ∈ l := by
  induction l with
  | nil => simp [insertBy]
  | cons y l ih =>
    rw [insertBy]
    split
    · exact List.mem_cons
    · rw [List.mem_cons, ih, List.mem_cons]
      tauto

theorem insertBy_pairwise (hl : l.Pairwise (fun a b => key a ≤ key b)) : (insertBy key x l).Pairwise (fun a b => key a ≤ key b) := by
  induction l with
  | nil => exact List.pairwise_singleton _ _
  | cons y l ih =>
    obtain ⟨hhead, htail⟩ := List.pairwise_cons.mp hl
    rw [insertBy]
    split
    · next hlt =>
      refine List.pairwise_cons.mpr ⟨fun z hz => ?_, hl⟩
      obtain rfl | hz := List.mem_cons.mp hz
      · exact hlt.le
      · exact hlt.le.trans (hhead z hz)
    · next hge =>
      refine List.pairwise_cons.mpr ⟨fun z hz => ?_, ih htail⟩
      obtain rfl | hz := mem_insertBy.mp hz
      · exact Nat.not_lt.mp hge
      · exact hhead z hz

theorem sortBy_pairwise : (sortBy key l).Pairwise (fun a b => key a ≤ key b) := by
  have grows : ∀ r : List α, r.Pairwise (fun a b => key a ≤ key b) → (l.foldl (fun a x => insertBy key x a) r).Pairwise (fun a b => key a ≤ key b) := by
    induction l with
    | nil => exact fun r hr => hr
    | cons x l ih => exact fun r hr => ih _ (insertBy_pairwise hr)
  exact grows [] List.Pairwise.nil

end Sorted

/-- What a range holds is released by name, a host's write before the access that took its name (R253). -/
theorem heldOrder_pairwise : (heldOrder s n).Pairwise (fun a b => a.1 ≤ b.1) := by
  refine sortBy_pairwise.imp fun {a b} hle => ?_
  split at hle <;> split at hle <;> omega

/-! The stages. -/

theorem exec_rangeMigration {stage : Nat} : exec (.rangeMigration n off stage) s = performs (migrateActs s n off stage) s := rfl

/-- Stage 0: W is cleared, and the range is under migration. -/
theorem migrateActs_begins (hidle : s.chip.moving.find? (fun m => m.1 = n) = none) (hvalid : (SMap.get 0 s.chip.ranges n).getLsbD 0 = true)
    (hstay : (SMap.get 0 s.chip.ranges n).getLsbD 2 = true → ∀ l ∈ s.work.launches, l.fn ≠ rangeField (SMap.get 0 s.chip.ranges n) 4 5) :
    migrateActs s n off 0 = [.chip (fun h => { h with
      ranges := SMap.set 0 h.ranges n (setField (SMap.get 0 s.chip.ranges n) 1 1 0), moving := h.moving ++ [(n, 0)] })] := by
  have hmoves : ¬ (!(SMap.get 0 s.chip.ranges n).getLsbD 0 ||
      ((SMap.get 0 s.chip.ranges n).getLsbD 2 && residentFn s (rangeField (SMap.get 0 s.chip.ranges n) 4 5))) = true := by
    rw [hvalid, Bool.not_true, Bool.false_or, Bool.and_eq_true_iff, residentFn, List.any_eq_true]
    rintro ⟨hstays, l, hl, hfn⟩
    exact hstay hstays l hl (of_decide_eq_true hfn)
  unfold migrateActs
  rw [hidle]
  exact if_neg hmoves

/-- Stage 1's copy of the bytes, where no write to the old place is open. -/
def moveActs (s : State) (e : BitVec 192) (n off : Nat) : List Act :=
  eccChecks s [(.hbm, rangeField e 144 24 * 2 ^ 16, rangeBytes e)] (rangeField e 4 5) ++
    [.write .hbm (off % 2 ^ 24 * 2 ^ 16) (s.readBytes .hbm (rangeField e 144 24 * 2 ^ 16) (rangeBytes e)) (s.readPoison .hbm (rangeField e 144 24 * 2 ^ 16) (rangeBytes e)),
      .chip (fun h => { h with moving := h.moving.map (fun m => if m.1 = n then (n, off % 2 ^ 24 + 1) else m) })]

theorem openWrites_nil (haccs : NoWriteTo s pa b) :
    s.work.accesses.filter (fun a => !a.performed && a.kind.stores && a.devicePlaces.any (fun p => rangesMeet p.1 p.2 pa b)) = [] := by
  refine List.filter_eq_nil_iff.mpr fun a ha hopen => ?_
  obtain ⟨hopen, hmeets⟩ := Bool.and_eq_true_iff.mp hopen
  obtain ⟨hopen, hstores⟩ := Bool.and_eq_true_iff.mp hopen
  obtain ⟨p, hp, hmeets⟩ := List.any_eq_true.mp hmeets
  obtain h | h | h := haccs a ha
  · exact absurd h (by simpa using hopen)
  · exact absurd hstores (by rw [h]; exact Bool.false_ne_true)
  · exact absurd hmeets (by rw [h p hp]; exact Bool.false_ne_true)

theorem chunkWrites_false (hcopies : ∀ y ∈ s.work.copies, ∀ k ∈ y.chunks, ∀ q, k.dst = .done q → rangesMeet q k.n pa b = false) :
    chunkWrites s pa b = false := by
  refine List.any_eq_false.mpr fun y hy hopen => ?_
  obtain ⟨k, hk, hopen⟩ := List.any_eq_true.mp hopen
  split at hopen
  · next q hdst => exact absurd hopen (by rw [hcopies y hy k hk q hdst]; exact Bool.false_ne_true)
  · exact Bool.false_ne_true hopen

/-- With nothing to perform, nothing is brought forward. -/
theorem bringForward_nil {fuel : Nat} : bringForward fuel [] s = [] := by cases fuel <;> rfl

theorem migrateActs_copies (hmoving : s.chip.moving.find? (fun m => m.1 = n) = some m)
    (haccs : NoWriteTo s (rangeField (SMap.get 0 s.chip.ranges n) 144 24 * 2 ^ 16) (rangeBytes (SMap.get 0 s.chip.ranges n)))
    (hcopies : ∀ y ∈ s.work.copies, ∀ k ∈ y.chunks, ∀ pa, k.dst = .done pa →
      rangesMeet pa k.n (rangeField (SMap.get 0 s.chip.ranges n) 144 24 * 2 ^ 16) (rangeBytes (SMap.get 0 s.chip.ranges n)) = false) :
    migrateActs s n off 1 = moveActs s (SMap.get 0 s.chip.ranges n) n off := by
  have hnone := openWrites_nil haccs
  have hchunks : ¬ chunkWrites s (rangeField (SMap.get 0 s.chip.ranges n) 144 24 * 2 ^ 16) (rangeBytes (SMap.get 0 s.chip.ranges n)) = true := by
    rw [chunkWrites_false hcopies]
    exact Bool.false_ne_true
  have hopen : s.work.accesses.any (fun a => ([] : List Nat).contains a.id && !a.performed) = false := List.any_eq_false.mpr fun _ _ => Bool.false_ne_true
  simp only [migrateActs, hmoving]
  rw [hnone, List.map_nil, bringForward_nil, applyActs_nil, hopen, Bool.false_or, if_neg hchunks, List.nil_append, moveActs]

theorem readBytes_getD {h : Home} {k i : Nat} (hi : i < k) : (s.readBytes h b k).getD i 0 = s.readByte h (b + i) := by
  have key : ∀ m : Memory, ∀ c i, i < k → (Memory.readBytes m c k).getD i 0 = Memory.read m (c + i) := by
    clear hi
    intro m
    induction k with
    | zero => intro c i hi; omega
    | succ k ih =>
      intro c i hi
      cases i with
      | zero => rfl
      | succ i => rw [Memory.readBytes, List.getD_cons_succ, ih (c + 1) i (by omega), Nat.add_right_comm, Nat.add_assoc]
  rw [State.readBytes, key _ _ _ hi, State.readByte, key_add]

/-- The bytes of the range stand at its new place too, and the rest of device memory is as it was. -/
theorem moveActs_readByte : (applyActs (moveActs s e n off) s).readByte .hbm b =
    if off % 2 ^ 24 * 2 ^ 16 ≤ b ∧ b < off % 2 ^ 24 * 2 ^ 16 + rangeBytes e then s.readByte .hbm (b - off % 2 ^ 24 * 2 ^ 16 + rangeField e 144 24 * 2 ^ 16)
    else s.readByte .hbm b := by
  have hlen : (s.readBytes .hbm (rangeField e 144 24 * 2 ^ 16) (rangeBytes e)).length = rangeBytes e := Memory.readBytes_length
  rw [moveActs, applyActs_append, applyActs_cons, readByte_control (List.forall_mem_singleton.mpr rfl), readByte_write_hbm, hlen, eccChecks_readByte]
  split
  · rw [readBytes_getD (by omega), Nat.add_comm]
  · rfl

theorem moveActs_moving (hmoving : s.chip.moving.find? (fun m => m.1 = n) = some m) :
    (n, off % 2 ^ 24 + 1) ∈ (applyActs (moveActs s e n off) s).chip.moving := by
  have hmem : m ∈ s.chip.moving := List.mem_of_find?_eq_some hmoving
  have hname : m.1 = n := by simpa using List.find?_some hmoving
  rw [moveActs, applyActs_append, applyActs_cons, applyActs_cons, applyActs_nil, applyAct_chip, applyAct_write]
  dsimp only
  rw [setMem_chip, eccChecks_chip (f := Chip.moving) fun _ _ _ => post_moving]
  exact List.mem_map.mpr ⟨m, hmem, if_pos hname⟩

/-- The entry with which a range goes on after stage 2: with W, at its new place unless it stays (R253). -/
def movedEntry (s : State) (n off : Nat) : BitVec 192 :=
  let e := SMap.get 0 s.chip.ranges n
  setField (if e.getLsbD 2 && residentFn s (rangeField e 4 5) then e else setField e 144 24 off) 1 1 1

/-- Stage 2's update of a range: its entry, and what it held translated by it. -/
def settleRange (s : State) (n off : Nat) : List Act :=
  [.chip (fun h => { h with
    ranges := SMap.set 0 h.ranges n (movedEntry s n off), moving := h.moving.filter (fun k => k.1 ≠ n), hostHeld := [] }),
    .work (fun w => w.rangeMoved s n (movedEntry s n off))]

theorem migrateActs_releases (hmoving : s.chip.moving.find? (fun m => m.1 = n) = some m) (hput : ∀ x ∈ s.work.putOff, x.2 ≠ .range n off 1)
    (hcopied : ((SMap.get 0 s.chip.ranges n).getLsbD 2 && residentFn s (rangeField (SMap.get 0 s.chip.ranges n) 4 5)) = true ∨ m.2 = off % 2 ^ 24 + 1) :
    migrateActs s n off 2 = settleRange s n off ++ releaseOrder (s.work.accesses.length + 1) (heldOrder s n) (applyActs (settleRange s n off) s) := by
  have hnotPut : ¬ s.work.putOff.any (fun e => e.2 = .range n off 1) = true := fun h => by
    obtain ⟨x, hx, heq⟩ := List.any_eq_true.mp h
    exact hput x hx (of_decide_eq_true heq)
  have hgoes : ¬ (decide (m.2 ≠ off % 2 ^ 24 + 1) &&
      !((SMap.get 0 s.chip.ranges n).getLsbD 2 && residentFn s (rangeField (SMap.get 0 s.chip.ranges n) 4 5))) = true := by
    rw [Bool.and_eq_true_iff, decide_eq_true_eq, Bool.not_eq_true']
    rintro ⟨hplace, hstays⟩
    obtain h | h := hcopied
    · exact absurd h (by rw [hstays]; exact Bool.false_ne_true)
    · exact hplace h
  unfold migrateActs
  rw [hmoving]
  dsimp only
  refine (if_neg hnotPut).trans ((if_neg hgoes).trans ?_)
  rfl

/-- An access that a range holds has its translation by the new entry, and is due at once (R253). -/
theorem mem_rangeMoved (ha : a ∈ s.work.accesses) (hheld : a.trans = .held n) : ∃ d ∈ (s.work.rangeMoved s n e).accesses,
    d.id = a.id ∧ d.trans = checkMapping s (rangePa e a.va) true false true ∧ d.at_ = min a.at_ s.cyc := by
  obtain ⟨d, hd, hbound⟩ := mem_rebound (s := s) (old := s.work.accesses) (List.mem_map_of_mem (f := fun a => a.rangeMoved s n e) ha)
  refine ⟨d, hd, ?_⟩
  rw [hbound]
  simp [Access.rangeMoved, hheld]

end Sys2Proof.Machine
end

section
/-! PROOFS. Walks, invalidations, handovers and range moves: the statement assembled (10 R243 to R246, R253). -/

namespace Sys2Proof.Machine

/-- Settles O40: each event by what its list of effects holds. -/
theorem translationEvents : Obligations.TranslationEvents := by
  unfold Obligations.TranslationEvents
  refine ⟨fun w s hw hstarted hdue hid => ?_, fun v s => ⟨fun hgo => ?_, fun hgo => ?_⟩, fun i s hinv haccs hcopies hrows => ?_,
    fun fn va table toHost e s hwalk htable hshared hown hwritten => ?_, fun n off s => ⟨fun hidle hvalid hstay => ?_, fun m hmoving haccs hcopies => ?_, ?_⟩⟩
  · exact walk_ends hw hstarted hdue hid
  · exact congrArg (performs · s) (invalidateActs_names hgo)
  · have hexec : exec (.tlbInvalidate v) s = performs (invalidateActs s v) s := rfl
    rw [hexec, invalidateActs_starts hgo]
    exact ⟨_, rfl, rfl, rfl, rfl, fun c e hin hfn => dropTlb_apart hin hfn⟩
  · exact exec_tlbInvalidateComplete hinv (not_busy haccs hcopies hrows)
  · exact handover_passes hwalk htable hshared hown hwritten
  · exact congrArg (performs · s) (migrateActs_begins hidle hvalid hstay)
  · rw [exec_rangeMigration, migrateActs_copies hmoving haccs hcopies]
    refine ⟨_, rfl, ?_⟩
    rw [applyActs_bump, chip_bump]
    exact ⟨moveActs_moving hmoving, fun a => readByte_bump.trans moveActs_readByte⟩
  · intro stays m hmoving hput hcopied e' l
    exact ⟨congrArg (performs · s) (migrateActs_releases hmoving hput hcopied), heldOrder_pairwise, fun a ha hheld => mem_rangeMoved ha hheld⟩

end Sys2Proof.Machine
end

section
/-! PROOFS. Device memory's stacks: refresh, heartbeats, takeover, retrain (10 R249, R250, R252), and a layer's map-out (R251). -/

namespace Sys2Proof.Machine

variable {s : State} {k layer : Nat} {temps : List Nat}

/-! Map-out. -/

theorem exec_layerMapOut {stage : Nat} (hlayer : layer < 16) : exec (.layerMapOut k layer stage) s = performs (mapOutActs s k layer stage) s := by
  show execLayerMapOut k layer stage s = _
  rw [execLayerMapOut, Nat.mod_eq_of_lt hlayer]
  rfl

theorem mapOutActs_moved (h : (s.stackAt k).leaving ≠ some layer ∨ (s.stackAt k).leavingHost = true ∨ regionMapped s k layer = false) : mapOutActs s k layer 1 = [] := by
  refine if_pos ?_
  obtain h | h | h := h <;> simp [h]

section Leaving

variable (hleaving : (s.stackAt k).leaving = some layer)
include hleaving

theorem mapOutActs_moves (hhost : (s.stackAt k).leavingHost = false) (hmapped : regionMapped s k layer = true) (hquiet : ownQuiescing s = false) :
    mapOutActs s k layer 1 = regionMoves s k layer ++ [again s (.layer k layer 1)] := by
  have hstays : ¬ (decide ((s.stackAt k).leaving ≠ some layer) || (s.stackAt k).leavingHost || !regionMapped s k layer) = true := by
    simp [hleaving, hhost, hmapped]
  exact (if_neg hstays).trans (if_neg (by rw [hquiet]; exact Bool.false_ne_true))

theorem mapOutActs_waits (hmapped : regionMapped s k layer = false) (hbusy : layerBusy s k layer = true) :
    mapOutActs s k layer 2 = [again s (.layer k layer 2)] := by
  have hleft : ¬ (decide ((s.stackAt k).leaving ≠ some layer) || regionMapped s k layer) = true := by simp [hleaving, hmapped]
  exact (if_neg hleft).trans (if_pos (by rw [hbusy]; rfl))

/-- The commit of a layer's map-out: out of service, its region wiped, the event (R251; log 54). -/
theorem mapOutActs_commits (hmapped : regionMapped s k layer = false) (hbusy : layerBusy s k layer = false) (hquiet : ownQuiescing s = false) :
    let l : List Act := [modStack k (fun t => { t with good := setField t.good layer 1 0, leaving := none }),
      .wipe .hbm (2 ^ 32 * 3 * (16 * (k / 3) + layer)) (2 ^ 32 * 3), post s 0x19 0 k 0 layer]
    mapOutActs s k layer 2 = l ++ resumeOwn (applyActs l s) := by
  have hleft : ¬ (decide ((s.stackAt k).leaving ≠ some layer) || regionMapped s k layer) = true := by simp [hleaving, hmapped]
  exact (if_neg hleft).trans (if_neg (by rw [hbusy, hquiet]; exact Bool.false_ne_true))

end Leaving

/-! Refresh. -/

/-- What a stack's evaluation sets: its layers' rates, and the highest of them in its reports of the last 100 µs (R249, R250). -/
def setRates (s : State) (k : Nat) (temps : List Nat) : Act :=
  let rates := (List.range 16).map (fun i => refreshRate ((s.stackAt k).rates.getD i 1) (temps.getD i 0))
  modStack k (fun y => { y with
    rates := rates, evalAt := s.cyc, reports := ((s.stackAt k).reports.filter (fun e => s.cyc ≤ e.1 + 100000)) ++ [(s.cyc, rates.foldl max 1)] })

theorem exec_refreshRateEval : exec (.refreshRateEval k temps) s =
    performs (setRates s k temps :: (if temps.any (fun t => 105 < t) then post s 0x1A 0 k 0 0 :: quiesceAll s else resumeOwn s)) s := rfl

/-- The rate by the band of the reading: up at once, down 2 °C below the band's edge (R249). -/
theorem refreshRate_bands (old x : Nat) :
    (95 < x → refreshRate old x = 4) ∧ (85 < x → x ≤ 95 → old ≤ 2 → refreshRate old x = 2) ∧ (x ≤ 85 → old ≤ 1 → refreshRate old x = 1) ∧
      (x ≤ 83 → refreshRate old x = 1) ∧ (83 < x → x ≤ 85 → old = 2 → refreshRate old x = 2) ∧ (93 < x → x ≤ 95 → old = 4 → refreshRate old x = 4) := by
  simp only [refreshRate]
  refine ⟨fun hx => ?_, fun hlo hx hold => ?_, fun hx hold => ?_, fun hx => ?_, fun hlo hx hold => ?_, fun hlo hx hold => ?_⟩ <;> split_ifs <;> omega

/-! Heartbeats. -/

theorem exec_heartbeat : exec (.heartbeat k) s = performs (heartbeatActs s k) s := rfl

/-- The heartbeats in a row with the one that comes (R250). -/
def beatsNow (s : State) (k : Nat) : Nat := if s.cyc < (s.stackAt k).lastBeat + 2000 then (s.stackAt k).beats + 1 else 1

theorem heartbeatActs_eq : heartbeatActs s k = modStack k (fun y => { y with lastBeat := s.cyc, beats := beatsNow s k }) ::
    (if (s.stackAt k).tko = true ∧ beatsNow s k = 16 then askHost s 2 else []) :=
  congrArg (_ :: ·) (if_congr (by rw [Bool.and_eq_true, decide_eq_true_eq]; rfl) rfl rfl)

theorem takeoverActs_unreported (hbeat : 0 < (s.stackAt k).lastBeat) (htko : (s.stackAt k).tko = false) (hmissed : (s.stackAt k).lastBeat + 4000 ≤ s.cyc)
    (hreports : ∀ e ∈ (s.stackAt k).reports, e.1 + 100000 < s.cyc) : takeoverActs s k =
      [modStack k (fun y => { y with tko := true, beats := 0, handback := false, src := 2, tkoRate := 4 }), post s 0x06 0 k 0 0] := by
  have hmiss : ¬ (!beatMissed s k) = true := by simp [beatMissed, hbeat, htko, hmissed]
  have hrecent : recentRates (s.stackAt k) s.cyc = [] := by
    rw [recentRates, List.filter_eq_nil_iff.mpr fun e he => by simpa using hreports e he, List.map_nil]
  rw [takeoverActs, if_neg hmiss, hrecent]
  rfl

/-! Retrain. -/

/-- The saves with a deadline that a retrain of a stack waits for (R252; log 78). -/
def retrainSaves (s : State) : List (Nat × Nat) :=
  (s.cores.filter (fun e => s.choice e.1 % 2 = 1)).filterMap (fun e => (deadlineSave s e.1).map (fun t => (e.1, t)))

theorem exec_retrainRequest : exec (.retrainRequest k) s = performs [modStack k (fun y =>
    if (retrainSaves s).isEmpty then { y with retrain := true } else { y with rtd := true, waits := retrainSaves s })] s := rfl

theorem retrainSaves_deadline {w : Nat × Nat} (hw : w ∈ retrainSaves s) : deadlineSave s w.1 = some w.2 := by
  obtain ⟨e, -, hsave⟩ := List.mem_filterMap.mp hw
  obtain ⟨t, ht, rfl⟩ := Option.map_eq_some_iff.mp hsave
  exact ht

theorem retrainSaves_nil (h : ∀ e ∈ s.cores, deadlineSave s e.1 = none) : retrainSaves s = [] :=
  List.filterMap_eq_nil_iff.mpr fun e he => by rw [h e (List.mem_filter.mp he).1, Option.map_none]

end Sys2Proof.Machine
end

section
/-! PROOFS. Lantern: sensors, the heat map, images, reports (10 R253, 19 R371, R373, R374, R376). -/

namespace Sys2Proof.Machine

variable {s : State} {n : Nat} {r : Int} {i : FirmwareImage}

/-! The heat map. -/

theorem exec_heatMapPublish : exec .heatMapPublish s = performs (modLantern (fun l => { l with heat := heatMap s, heatAt := s.cyc }) :: askHost s 5) s := rfl

/-- Rows of the same length one after another: how many values, and which stands where. -/
theorem length_flatMap_range {α : Type} {f : Nat → List α} {m k : Nat} (hf : ∀ i, (f i).length = k) : ((List.range m).flatMap f).length = m * k := by
  simp [List.length_flatMap, hf]

theorem getD_flatMap_range {α : Type} {f : Nat → List α} {d : α} {m k i : Nat} (hf : ∀ i, (f i).length = k) (hi : i < m * k) :
    ((List.range m).flatMap f).getD i d = (f (i / k)).getD (i % k) d := by
  induction m with
  | zero => omega
  | succ m ih =>
    have hlen := length_flatMap_range (m := m) hf
    rw [List.range_succ, List.flatMap_append, List.flatMap_singleton]
    by_cases h : i < m * k
    · rw [List.getD_append _ _ _ _ (by omega), ih h]
    · have hk : 0 < k := by
        by_contra h0
        obtain rfl : k = 0 := by omega
        omega
      have hdiv : i / k = m := by
        rw [Nat.div_eq_iff hk]
        rw [Nat.succ_mul] at hi
        omega
      have hmod : i % k = i - m * k := by rw [← hdiv, Nat.mod_eq_sub_div_mul]
      rw [List.getD_append_right _ _ _ _ (by omega), hlen, hdiv, hmod]

theorem heatMap_length : (heatMap s).length = 576 := by
  rw [heatMap]
  dsimp only
  rw [List.length_append, length_flatMap_range (k := 32) (fun _ => List.length_replicate), length_flatMap_range (k := 16) (fun _ => by rw [List.length_map, List.length_range])]

/-- The last 192 bytes of the map are the layers' readings. -/
theorem heatMap_layers (hi : n < 192) : (heatMap s).getD (384 + n) 0 = min (SMap.get 0 s.chip.lantern.sensors (16 + n)).toNat 255 := by
  have hmod : n % 16 < 16 := Nat.mod_lt _ (by decide)
  rw [heatMap]
  dsimp only
  have hlen : ∀ f : Nat → Nat, ((List.range 12).flatMap (fun k => List.replicate 32 (f k))).length = 384 := fun f =>
    length_flatMap_range (fun _ => List.length_replicate)
  rw [List.getD_append_right _ _ _ _ (by rw [hlen]; omega), hlen, Nat.add_sub_cancel_left,
    getD_flatMap_range (k := 16) (fun _ => by rw [List.length_map, List.length_range]) hi, List.getD_eq_getElem _ _ (by simpa using hmod), List.getElem_map, List.getElem_range]
  have hsensor : layerSensor (n / 16) (n % 16) = 16 + n := by rw [layerSensor]; omega
  rw [heatByte, hsensor]

/-! Sensors. -/

theorem exec_sensorSample : exec (.sensorSample n r) s = performs (sensorActs s n r) s := rfl

/-- A reading published. -/
def readingAct (n : Nat) (r : Int) : Act := modLantern (fun l => { l with sensors := SMap.set 0 l.sensors n r })

/-- The thermal trip: its event, the dies stopped, the stacks in self-refresh (R376). -/
def tripActs (s : State) (n : Nat) : List Act :=
  [post s 0x23 0 (256 * (n / 4)) 0 n, .chip (fun h => { h with
    halted := true, hbmStacks := (List.range 12).foldl (fun m k => SMap.set {} m k { SMap.get {} m k with selfRefresh := true }) h.hbmStacks })]

theorem sensorActs_eq : sensorActs s n r = readingAct n r ::
    (if n < 16 ∧ 420 < r then post s 0x1A 0 (256 * (n / 4)) 0 n :: quiesceAll s else resumeOwn (applyAct (readingAct n r) s)) ++
    (if n < 16 ∧ 460 ≤ r then tripActs s n else []) := by
  have hhot : (decide (n < 16) && decide (420 < r)) = true ↔ n < 16 ∧ 420 < r := by rw [Bool.and_eq_true, decide_eq_true_eq, decide_eq_true_eq]
  have htrip : (decide (n < 16) && decide (460 ≤ r)) = true ↔ n < 16 ∧ 460 ≤ r := by rw [Bool.and_eq_true, decide_eq_true_eq, decide_eq_true_eq]
  exact congrArg₂ (fun a b => (readingAct n r :: a) ++ b) (if_congr hhot rfl rfl) (if_congr htrip rfl rfl)

/-! Images and reports. -/

theorem exec_imageWrite (hpower : s.chip.lantern.powered = true) : exec (.imageWrite i) s = performs (match imageFailure s.chip.lantern i with
    | some k => [post s 0x32 0 0 0 k]
    | none => [modLantern (fun l => { l with inactive := some i, staged := true }), post s 0x32 0 0 0 0]) s := by
  show execImageWrite i s = _
  rw [execImageWrite, imageActs, if_neg (by rw [hpower]; decide)]
  rfl

theorem imageFailure_good {l : Lantern} (hed : i.edOk = true) (hml : i.mlOk = true) (hversion : l.fuse ≤ i.version) : imageFailure l i = none := by
  simp [imageFailure, hed, hml, hversion]

theorem imageFailure_bad {l : Lantern} (h : i.edOk = false ∨ i.mlOk = false ∨ i.version < l.fuse) : ∃ n, n ≠ 0 ∧ imageFailure l i = some n := by
  rw [imageFailure]
  by_cases hed : i.edOk = true
  · by_cases hml : i.mlOk = true
    · have hversion : i.version < l.fuse := by simpa [hed, hml] using h
      exact ⟨3, by decide, by simp [hed, hml, hversion]⟩
    · exact ⟨2, by decide, by simp [hed, hml]⟩
  · exact ⟨1, by decide, by simp [hed]⟩

/-- A report: what is attested, and the free words of the signatures (R374; log 16). -/
def reportWords (s : State) (nonce : BitVec 256) : List Word := attested s nonce ++ (List.range signatureWords).map (fun k => Config.freeWord (s.work.free + k))

theorem exec_attestationRequest {nonce : BitVec 256} (hpower : s.chip.lantern.powered = true) :
    exec (.attestationRequest nonce) s = performs [modLantern (fun l => { l with report := reportWords s nonce })] s := by
  show execAttestationRequest nonce s = _
  rw [execAttestationRequest, attestActs, if_neg (by rw [hpower]; decide)]
  rfl

theorem reportWords_nonce {nonce : BitVec 256} (hn : n < 4) : (reportWords s nonce).getD n 0 = nonce.extractLsb' (64 * n) 64 := by
  interval_cases n <;> rfl

theorem reportWords_fuse {nonce : BitVec 256} : (reportWords s nonce).getD 6 0 = BitVec.ofNat 64 s.chip.lantern.fuse := rfl

end Sys2Proof.Machine
end

section
/-! PROOFS. Soft errors by store, and the host link's answers (19 R359, R360, R368, 18 R352, R362). -/

namespace Sys2Proof.Machine

variable {s : State} {e : ErrorTarget} {q : LinkRequest} {h : Home} {u : Nat} {b : Bool}

/-! Soft errors. -/

theorem softActs_row_double (hstore : e.store = 0) (hdouble : e.double = true) :
    softActs s e = [.row (e.place % 1024) (e.index / 256 % 512) (poisonedWords (e.index % 256))] := by
  simp only [softActs, hstore, hdouble, Config.cores]

theorem softActs_row_single (hstore : e.store = 0) (hdouble : e.double = false) : softActs s e =
    [if (s.rowOf (e.place % 1024) (e.index / 256 % 512)).flip.getLsbD (e.index % 256) then
      .row (e.place % 1024) (e.index / 256 % 512) (poisonedWords (e.index % 256))
    else .flipRow (e.place % 1024) (e.index / 256 % 512) ((s.rowOf (e.place % 1024) (e.index / 256 % 512)).flip ||| (1 : BitVec 256) <<< (e.index % 256))] := by
  simp only [softActs, hstore, hdouble, Config.cores]
  exact (apply_ite (fun a => [a]) _ _ _).symm

theorem softActs_spd (hstore : e.store = 1) : softActs s e = flipUnit s (.spd (e.place % 1024)) (e.index % 2 ^ 19) e.double := by
  simp only [softActs, hstore]
  rfl

theorem softActs_bos (hstore : e.store = 2) : softActs s e = flipUnit s (.bos (e.place % 1024)) (e.index % 2 ^ 18) e.double := by
  simp only [softActs, hstore]
  rfl

theorem softActs_sye (hstore : e.store = 3) : softActs s e = flipUnit s (.sye (e.place % 4)) (e.index % (Config.syeSram / 8)) e.double := by
  simp only [softActs, hstore]
  rfl

theorem softActs_hbm (hstore : e.store = 4) : softActs s e = flipUnit s .hbm e.index e.double := by
  simp only [softActs, hstore]

/-- Several bits flipped outside an SYE wait for a read to poison the unit (R359; log 57). -/
theorem flipUnit_double (hsye : ∀ d, h ≠ .sye d) : flipUnit s h u true = [.mark h u .flips] := by
  cases h with
  | sye d => exact absurd rfl (hsye d)
  | _ => unfold flipUnit; split <;> simp_all

/-- One bit flipped outside an SYE: the first or the second of its unit, none where the unit is past correction already (log 57). -/
def flippedOnce (h : Home) (u : Nat) : UnitMark → List Act
  | .clear => [.mark h u .flip]
  | .flip => [.mark h u .flips]
  | .flips | .error | .stored => []

theorem flipUnit_single (hsye : ∀ d, h ≠ .sye d) : flipUnit s h u false = flippedOnce h u (s.unitMark h (8 * u)) := by
  cases hmark : s.unitMark h (8 * u) <;> cases h <;> simp [flipUnit, hmark, flippedOnce] at hsye ⊢

theorem flipUnit_sye {d : Nat} (hmark : s.unitMark (.sye d) (8 * u) = .flip ∨ (s.unitMark (.sye d) (8 * u) = .clear ∧ b = true)) :
    flipUnit s (.sye d) u b = [.mark (.sye d) u .error, post s 0x20 0 (256 * d) (8 * u) 0] := by
  obtain hmark | ⟨hmark, rfl⟩ := hmark
  · simp only [flipUnit, hmark]
  · simp only [flipUnit, hmark]

/-! The host link. -/

section Powered

variable (hpower : s.chip.lantern.powered = true)
include hpower

/-- While the link is down, a configuration request is to be tried again, any other is not supported (R362, R377). -/
theorem requestLinkActs_down (hdown : s.chip.lantern.up = false) : requestLinkActs s q = [hostAnswer q.fn [] (if q.config then 2 else 1)] := by
  simp only [requestLinkActs, hpower, hdown, Bool.not_true, Bool.not_false, Bool.false_eq_true, if_false, if_true, stRetry, stUnsupported]

section Up

variable (hup : s.chip.lantern.up = true)
include hup

theorem requestLinkActs_disabled (hfn : fnEnabled s q.fn = false) : requestLinkActs s q = [hostAnswer q.fn [] 1] := by
  simp only [requestLinkActs, hpower, hup, hfn, Bool.not_true, Bool.not_false, Bool.false_eq_true, if_false, if_true, stUnsupported]

theorem requestLinkActs_config (hfn : fnEnabled s q.fn = true) (hconfig : q.config = true) (hread : q.write = none) :
    requestLinkActs s q = [hostAnswer q.fn (wordsRead (configRead s q.fn) q.addr q.size) 0] := by
  simp only [requestLinkActs, hpower, hup, hfn, hconfig, hread, Bool.not_true, Bool.false_eq_true, if_false, if_true, stOk]

theorem requestLinkActs_blocked (hfn : fnEnabled s q.fn = true) (hconfig : q.config = false) (hblocked : hostBlocked s q.fn = true) :
    requestLinkActs s q = [hostAnswer q.fn [] 1] := by
  simp only [requestLinkActs, hpower, hup, hfn, hconfig, hblocked, Bool.not_true, Bool.false_eq_true, if_false, if_true, stUnsupported]

end Up

/-- A link that blocks no request of a function is up. -/
theorem requestLinkActs_register (hfn : fnEnabled s q.fn = true) (hconfig : q.config = false) (hopen : hostBlocked s q.fn = false)
    (haddr : 2 ^ 60 ≤ q.addr) (hread : q.write = none) :
    requestLinkActs s q = [hostAnswer q.fn (wordsRead (registerRead s) (barOffset q.fn (q.addr - 2 ^ 60)) q.size) 0] := by
  have hup : s.chip.lantern.up = true := by
    have hlink := hopen
    simp only [hostBlocked, Bool.or_eq_false_iff, Bool.not_eq_false'] at hlink
    obtain ⟨⟨⟨hup, -⟩, -⟩, -⟩ := hlink
    exact hup
  simp only [requestLinkActs, hpower, hup, hfn, hconfig, hopen, hread, barBase, if_pos haddr, Bool.not_true, Bool.false_eq_true, if_false, stOk]

end Powered

end Sys2Proof.Machine
end

section
/-! PROOFS. The stacks' events, Lantern's, and the host link's: the statement assembled (10 R247 to R253, 19 R359, R360, R368 to R376). -/

namespace Sys2Proof.Machine

/-- Settles O45: each event by what its list of effects holds. -/
theorem stackAndLanternEvents : Obligations.StackAndLanternEvents := by
  unfold Obligations.StackAndLanternEvents
  intro k s t l
  refine ⟨fun layer hlayer => ?_, fun temps => ?_, refreshRate_bands, ?_, ?_, rfl, ?_, ?_, rfl, ?_, ?_, fun w => rfl, fun i hpower => ?_,
    fun n hpower => ?_, fun e => ?_, fun q hpower => ?_⟩
  · refine ⟨exec_layerMapOut hlayer, fun h => ?_, fun hleaving hhost hmapped hquiet => ?_, fun hleaving hmapped => ⟨fun hbusy => ?_, fun hbusy hquiet => ?_⟩⟩
    · exact (exec_layerMapOut hlayer).trans (congrArg (performs · s) (mapOutActs_moved h))
    · exact (exec_layerMapOut hlayer).trans (congrArg (performs · s) (mapOutActs_moves hleaving hhost hmapped hquiet))
    · exact (exec_layerMapOut hlayer).trans (congrArg (performs · s) (mapOutActs_waits hleaving hmapped hbusy))
    · exact (exec_layerMapOut hlayer).trans (congrArg (performs · s) (mapOutActs_commits hleaving hmapped hbusy hquiet))
  · intro rates sets
    refine ⟨fun hcool => ?_, fun hhot => ?_⟩
    · have hany : ¬ temps.any (fun t => 105 < t) = true := by simpa using hcool
      exact exec_refreshRateEval.trans (congrArg (fun r => performs (sets :: r) s) (if_neg hany))
    · have hany : temps.any (fun t => 105 < t) = true := by simpa using hhot
      exact exec_refreshRateEval.trans (congrArg (fun r => performs (sets :: r) s) (if_pos hany))
  · exact exec_heartbeat.trans (congrArg (performs · s) heartbeatActs_eq)
  · exact fun hbeat htko hmissed hreports => congrArg (performs · s) (takeoverActs_unreported hbeat htko hmissed hreports)
  · intro hnone
    rw [exec_retrainRequest, retrainSaves_nil hnone]
    rfl
  · exact ⟨retrainSaves s, fun w hw => retrainSaves_deadline hw, exec_retrainRequest⟩
  · exact ⟨heatMap s, exec_heatMapPublish, heatMap_length, fun i hi => heatMap_layers hi⟩
  · exact fun n r => exec_sensorSample.trans (congrArg (performs · s) sensorActs_eq)
  · refine ⟨fun hed hml hversion => ?_, fun hbad => ?_⟩
    · rw [exec_imageWrite hpower, imageFailure_good hed hml hversion]
    · obtain ⟨n, hn, hfails⟩ := imageFailure_bad hbad
      refine ⟨n, hn, ?_⟩
      rw [exec_imageWrite hpower, hfails]
  · exact ⟨reportWords s n, exec_attestationRequest hpower, fun i hi => reportWords_nonce hi, reportWords_fuse⟩
  · refine ⟨fun hstore hdouble => ?_, fun hstore hdouble => ?_, fun hstore hdouble => ?_, fun hstore hdouble => ?_,
      ⟨fun hstore hdouble => ?_, fun hstore hdouble => ?_, fun hstore hdouble => ?_, fun hstore hdouble => ?_⟩, fun hstore hmark => ?_⟩
    · exact congrArg (performs · s) (softActs_row_double hstore hdouble)
    · exact congrArg (performs · s) ((softActs_spd hstore).trans (hdouble ▸ flipUnit_double (fun _ => Home.noConfusion)))
    · exact congrArg (performs · s) ((softActs_bos hstore).trans (hdouble ▸ flipUnit_double (fun _ => Home.noConfusion)))
    · exact congrArg (performs · s) (softActs_row_single hstore hdouble)
    · exact congrArg (performs · s) ((softActs_spd hstore).trans (hdouble ▸ flipUnit_single (fun _ => Home.noConfusion)))
    · exact congrArg (performs · s) ((softActs_bos hstore).trans (hdouble ▸ flipUnit_single (fun _ => Home.noConfusion)))
    · exact congrArg (performs · s) ((softActs_hbm hstore).trans (hdouble ▸ flipUnit_single (fun _ => Home.noConfusion)))
    · exact congrArg (performs · s) ((softActs_hbm hstore).trans (hdouble ▸ flipUnit_double (fun _ => Home.noConfusion)))
    · exact congrArg (performs · s) ((softActs_sye hstore).trans (flipUnit_sye hmark))
  · refine ⟨fun hdown => ?_, fun hup hfn => ?_, fun hup hfn hconfig hread => ?_, fun hfn hconfig hblocked hup => ?_, fun hfn hconfig hopen haddr hread => ?_⟩
    · exact congrArg (performs · s) (requestLinkActs_down hpower hdown)
    · exact congrArg (performs · s) (requestLinkActs_disabled hpower hup hfn)
    · exact congrArg (performs · s) (requestLinkActs_config hpower hup hfn hconfig hread)
    · exact congrArg (performs · s) (requestLinkActs_blocked hpower hup hfn hconfig hblocked)
    · exact congrArg (performs · s) (requestLinkActs_register hpower hfn hconfig hopen haddr hread)

end Sys2Proof.Machine
end

section
/-! PROOFS. Taking a trap: the flags in flight, the frame, the handler's state, and the timer (12 R275, R276, 13 R294 to R300). -/

namespace Sys2Proof.Machine

variable {s t : State} {q lo epc i k : Nat} {cause : Cause} {a : Act} {h : Home} {l : List Act}

/-! The flags in flight are set before the frame takes them. -/

/-- Two sequencers agree in what the extent of their frames depends on. -/
def SameExtent (y z : Seq) : Prop := z.loops = y.loops ∧ z.events = y.events ∧ z.orderFaults = y.orderFaults

/-- The micro-operations that set flags: none of them touches a loop stack or an event. -/
inductive FlagAct : Act → Prop
  | seq (r : Nat) (f : Seq → Seq) (h : ∀ y, SameExtent y (f y)) : FlagAct (.seq r f)
  | lanes (r k : Nat) (v : MaskBits) : FlagAct (.lanes r k v)

theorem flagActs_kinds {p : FlagPost} (ha : a ∈ flagActs s p) : FlagAct a := by
  obtain rfl | ha := List.mem_cons.mp ha
  · refine .seq _ _ fun y => ?_
    split_ifs <;> exact ⟨rfl, rfl, rfl⟩
  · split at ha
    · obtain ⟨k, -, hk⟩ := List.mem_filterMap.mp ha
      split at hk
      · exact absurd hk (by simp)
      · exact Option.some.inj hk ▸ .lanes _ _ _
    · exact absurd ha List.not_mem_nil

theorem flagActsAll_kinds {ps : List FlagPost} (ha : a ∈ flagActsAll s ps) : FlagAct a := by
  induction ps generalizing s with
  | nil => exact absurd ha List.not_mem_nil
  | cons p ps ih => exact (List.mem_append.mp ha).elim flagActs_kinds ih

/-- The micro-operations that set the flags in flight of a sequencer. -/
def setFlags (s : State) (q : Nat) : List Act := flagActsAll s (s.work.flagPosts.filter (fun p => p.q = q))

/-- The state in which the frame is written. -/
def flagged (s : State) (q : Nat) : State := applyActs (setFlags s q) s

theorem FlagAct.keeps_extent (ha : FlagAct a) (ht : Canonical t) {y : Seq} (hP : SameExtent y (t.seqOf q)) :
    SameExtent y ((applyAct a t).seqOf q) := by
  cases ha with
  | seq r f hf =>
    by_cases hr : q = r
    · subst hr
      obtain ⟨hloops, hevents, horder⟩ := hf (t.seqOf q)
      rw [seqOf_seq_same ht.seqs, SameExtent, hloops, hevents, horder]
      exact hP
    · rw [seqOf_seq_other hr]
      exact hP
  | lanes r k v => exact hP

theorem flagged_cyc : (flagged s q).cyc = s.cyc :=
  applyActs_keeps (p := State.cyc) (fun _ ha _ => by cases flagActsAll_kinds ha <;> rfl) s

theorem flagged_work : (flagged s q).work = s.work :=
  applyActs_keeps (p := State.work) (fun _ ha _ => by cases flagActsAll_kinds ha <;> rfl) s

/-- Setting flags changes nothing that the frame's extent depends on. -/
theorem frameSpan_flagged (hs : Canonical s) : frameSpan (flagged s q) q = frameSpan s q := by
  have hextent : SameExtent (s.seqOf q) ((flagged s q).seqOf q) :=
    applyActs_holds (P := fun t => SameExtent (s.seqOf q) (t.seqOf q)) hs ⟨rfl, rfl, rfl⟩ fun _ ha _ ht => (flagActsAll_kinds ha).keeps_extent ht
  obtain ⟨hloops, hevents, horder⟩ := hextent
  have hlatches : latchesOf (flagged s q) q = latchesOf s q := by rw [latchesOf, flagged_cyc, flagged_work, latchesOf]
  rw [frameSpan, hlatches, hloops, hevents, horder, frameSpan]

/-! The parts of the frame. -/

theorem length_flatMap_of_forall {α β : Type} {f : α → List β} {m : List α} (hf : ∀ x, (f x).length = k) : (m.flatMap f).length = k * m.length := by
  simp [List.length_flatMap, hf, Nat.mul_comm]

theorem headerTail_length {y : Seq} {n m : Nat} : (headerTail y n m).length = 80 := by
  simp only [headerTail, List.length_append, leBytes_length]

theorem loopEntry_bytes_length {e : LoopEntry} : e.bytes.length = 32 := by
  simp only [LoopEntry.bytes, List.length_append, leBytes_length]

theorem latchBytes_length {f : Flight} {n : Nat} {e : Option Nat} : (f.latchBytes n e).length = 32 := by
  simp only [Flight.latchBytes, List.length_append, leBytes_length]

theorem pending_bytes_length {e : Pending} : e.bytes.length = 64 := by
  simp only [Pending.bytes, List.length_append, leBytes_length]

/-! The micro-operations of a trap entry. -/

/-- The micro-operations of an entry into the handler of q that leave the frame's first lo bytes: on sequencers, on flags, on the work in
progress, and writes of the frame from byte lo on. -/
inductive EntryAct (s : State) (q lo : Nat) : Act → Prop
  | seq (r : Nat) (f : Seq → Seq) : EntryAct s q lo (.seq r f)
  | lanes (r k : Nat) (v : MaskBits) : EntryAct s q lo (.lanes r k v)
  | work (f : Work → Work) : EntryAct s q lo (.work f)
  | frame (off : Nat) (bs : List Byte) (hlo : lo ≤ off) (hend : off + bs.length ≤ frameSpan s q) :
      EntryAct s q lo (putBytes (q / 4) (frameOff q + off) bs)

theorem FlagAct.entryAct (ha : FlagAct a) : EntryAct s q lo a := by
  cases ha with
  | seq r f _ => exact .seq r f
  | lanes r k v => exact .lanes r k v

/-- What depends on no sequencer, flag, work or scratchpad is kept. -/
theorem EntryAct.keeps {β : Type} {p : State → β}
    (hp : ∀ t m fl w b ps, p { t with seqs := m, laneFlags := fl, work := w, spd := b, spdPoison := ps } = p t)
    (ha : EntryAct s q lo a) (t : State) : p (applyAct a t) = p t := by
  cases ha with
  | seq r f => exact hp t _ t.laneFlags t.work t.spd t.spdPoison
  | lanes r k v => exact hp t t.seqs _ t.work t.spd t.spdPoison
  | work f => exact hp t t.seqs t.laneFlags _ t.spd t.spdPoison
  | frame off bs hlo hend => exact hp t t.seqs t.laneFlags t.work _ _

/-- A byte that does not lie in the frame from its byte lo on. -/
def Apart (s : State) (q lo : Nat) (h : Home) (b : Nat) : Prop :=
  ¬ (h.kind = 0 ∧ (Home.spd (q / 4)).key (frameOff q) + lo ≤ h.key b ∧ h.key b < (Home.spd (q / 4)).key (frameOff q) + frameSpan s q)

theorem EntryAct.keeps_apart {b : Nat} (ha : EntryAct s q lo a) (hout : Apart s q lo h b) (t : State) :
    (applyAct a t).readByte h b = t.readByte h b := by
  have hcontrol : a.control = true → (applyAct a t).readByte h b = t.readByte h b := fun hc =>
    readByte_control (l := [a]) (List.forall_mem_singleton.mpr hc)
  cases ha with
  | seq r f => exact hcontrol rfl
  | lanes r k v => cases h <;> rfl
  | work f => exact hcontrol rfl
  | frame off bs hlo hend =>
    rw [putBytes, readByte_write_any, key_add, if_neg]
    rintro ⟨hkind, hfirst, hlast⟩
    exact hout ⟨hkind, by omega, by omega⟩

theorem apart_of_not_inFrame {b : Nat} (hout : ¬ InFrame s q h b) : Apart s q 0 h b := by
  rintro ⟨hkind, hfirst, hlast⟩
  refine hout ⟨hkind, h.key b - (Home.spd (q / 4)).key (frameOff q), by omega, ?_⟩
  refine Eq.trans ?_ (key_add (h := .spd (q / 4)) (a := frameOff q)).symm
  omega

theorem apart_head (hi : i < lo) : Apart s q lo (.spd (q / 4)) (frameOff q + i) := by
  rintro ⟨-, hfirst, -⟩
  rw [key_add] at hfirst
  omega

/-! The entry's list. -/

/-- The flag registers of a sequencer and its first-event record are clear. -/
def FlagsClear (y : Seq) : Prop := y.fls0 = 0 ∧ y.fls1 = 0 ∧ y.fls2 = 0 ∧ y.fls3 = 0 ∧ y.fev = 0

/-- What the last micro-operation of an entry makes of its sequencer y: the handler's state, flags that stay clear, the timer disarmed
if it is the cause. -/
structure Handles (s : State) (cause : Cause) (y z : Seq) : Prop where
  pc : z.pc = 2
  run : z.run = .run
  hnd : z.hnd = true
  resumeAt : z.resumeAt = s.cyc + 16
  loops : z.loops = []
  rep : z.rep = none
  flags : FlagsClear y → FlagsClear z
  timer : cause.code = 0x30 → z.tcmp.getLsbD 48 = false

theorem getLsbD_disarmed {w : Word} : (w &&& ~~~((1 : Word) <<< 48)).getLsbD 48 = false := by simp

/-- The events that a frame takes are all that its sequencer has (R299). -/
theorem frameEvents_length {y : Seq} : (if cause.code = 0x33 then y.orderFaults.take 1 ++ y.events ++ y.orderFaults.drop 1
    else y.events ++ y.orderFaults).length = y.events.length + y.orderFaults.length := by
  split
  · simp only [List.length_append, List.length_take, List.length_drop]
    omega
  · exact List.length_append

/-- An entry sets the flags in flight, writes EPC and TCAUSE at the frame's start and the rest of the frame behind them, clears the flags,
and changes its sequencer last. -/
theorem enterTrap_eq : ∃ tail frame w f, enterTrap s q epc cause = setFlags s q ++
      putBytes (q / 4) (frameOff q) (leBytes 8 epc ++ leBytes 8 (causeWord cause).toNat ++ tail) :: frame ++ clearFlags q ++ [.work w, .seq q f] ∧
    tail.length = 80 ∧ (∀ a ∈ frame, EntryAct (flagged s q) q 0x100 a) ∧ ∀ y, Handles s cause y (f y) := by
  refine ⟨_, _, _, _, rfl, headerTail_length, fun a ha => ?_, fun y => ⟨rfl, rfl, rfl, congrArg (· + 16) flagged_cyc, rfl, rfl, id, fun hc => ?_⟩⟩
  · simp only [List.mem_cons, List.not_mem_nil, or_false] at ha
    obtain rfl | rfl | rfl | rfl := ha
    · refine .frame 0x100 _ (Nat.le_refl _) ?_
      rw [List.length_append, List.length_replicate, length_flatMap_of_forall (fun _ => loopEntry_bytes_length), frameSpan, flagged, setFlags]
      omega
    · refine .frame 0x200 _ (by omega) ?_
      rw [length_flatMap_range (fun _ => leBytes_length), frameSpan]
      omega
    · refine .frame 0xE00 _ (by omega) ?_
      rw [length_flatMap_of_forall (fun _ => latchBytes_length), frameSpan, flagged, setFlags]
      omega
    · refine .frame 0x1600 _ (by omega) ?_
      rw [length_flatMap_of_forall (fun _ => pending_bytes_length), frameEvents_length, frameSpan, flagged, setFlags]
      omega
  · simp only [hc, if_true]
    exact getLsbD_disarmed

theorem clearFlags_kinds (ha : a ∈ clearFlags q) : EntryAct s q lo a := by
  obtain rfl | ha := List.mem_cons.mp ha
  · exact .seq _ _
  · obtain ⟨k, -, rfl⟩ := List.mem_map.mp ha
    exact .lanes _ _ _

theorem EntryAct.of_span {u : State} (hspan : frameSpan u q = frameSpan s q) (ha : EntryAct u q lo a) (hlo : k ≤ lo) : EntryAct s q k a := by
  cases ha with
  | seq r f => exact .seq r f
  | lanes r k v => exact .lanes r k v
  | work f => exact .work f
  | frame off bs hoff hend => exact .frame off bs (hlo.trans hoff) (hspan ▸ hend)

/-! What an entry leaves. -/

/-- Clearing a sequencer's flags clears its lane flags, and nothing after it in an entry sets one. -/
theorem clearFlags_laneFlag {w : Work → Work} {f : Seq → Seq} (ht : Canonical t) (hk : k < 24) :
    (applyActs (clearFlags q ++ [.work w, .seq q f]) t).laneFlag q k = 0 := by
  refine applyActs_holds_of_mem (P := fun u => u.laneFlag q k = 0) (b := .lanes q k 0) ht ?_ (fun u hu => SMap.get_set_same hu.laneFlags)
    (fun a ha u hu hP => ?_)
  · exact List.mem_append_left _ (.tail _ (List.mem_map.mpr ⟨k, List.mem_range.mpr hk, rfl⟩))
  · simp only [clearFlags, List.mem_append, List.mem_cons, List.mem_map, List.not_mem_nil, or_false] at ha
    obtain (rfl | ⟨n, -, rfl⟩) | rfl | rfl := ha
    · exact hP
    · by_cases hn : k = n
      · subst hn
        exact SMap.get_set_same hu.laneFlags
      · exact (SMap.get_set_other (by omega)).trans hP
    · exact hP
    · exact hP

/-- The sequencer after its flags are cleared and its last change. -/
theorem clearFlags_seqOf {w : Work → Work} {f : Seq → Seq} (ht : Canonical t) : (applyActs (clearFlags q ++ [.work w, .seq q f]) t).seqOf q =
    f { t.seqOf q with fls0 := 0, fls1 := 0, fls2 := 0, fls3 := 0, fev := 0, fevAt := 0 } := by
  have hlanes (u : State) : (applyActs ((List.range 24).map (fun k => .lanes q k 0)) u).seqs = u.seqs :=
    applyActs_keeps (p := State.seqs) (fun a ha v => by obtain ⟨k, -, rfl⟩ := List.mem_map.mp ha; rfl) u
  rw [applyActs_append, seqOf_work_seq (applyActs_canonical ht _), clearFlags, applyActs_cons, State.seqOf, hlanes]
  exact congrArg f (seqOf_seq_same ht.seqs)

theorem header_getD_epc {tail : List Byte} {v : Nat} {c : Word} (hi : i < 8) : (leBytes 8 v ++ leBytes 8 c.toNat ++ tail).getD i 0 =
    (BitVec.ofNat 64 v).extractLsb' (8 * i) 8 := by
  rw [List.append_assoc, List.getD_append _ _ _ _ (by rwa [leBytes_length]), leBytes_getD hi]
  refine BitVec.eq_of_getLsbD_eq fun j hj => ?_
  have hbit : 8 * i + j < 64 := by omega
  rw [BitVec.getLsbD_extractLsb', BitVec.getLsbD_ofNat, BitVec.getLsbD_ofNat, Nat.testBit_div_two_pow, Nat.add_comm j]
  simp only [hj, hbit, decide_true, Bool.true_and]

theorem header_getD_tcause {tail : List Byte} {v : Nat} {c : Word} (hi : i < 8) : (leBytes 8 v ++ leBytes 8 c.toNat ++ tail).getD (8 + i) 0 =
    c.extractLsb' (8 * i) 8 := by
  rw [List.append_assoc, List.getD_append_right _ _ _ _ (by rw [leBytes_length]; omega), leBytes_length, Nat.add_sub_cancel_left,
    List.getD_append _ _ _ _ (by rwa [leBytes_length]), leBytes_getD hi, ofNat_div_eq_extractLsb']

/-- A byte of the frame's header, after acts that leave the frame's first 256 bytes. -/
theorem frameByte_header {bs : List Byte} (hl : ∀ a ∈ l, EntryAct s q 0x100 a) (hlen : bs.length ≤ 0x100) (hi : i < bs.length) :
    frameByte (applyActs l (applyAct (putBytes (q / 4) (frameOff q) bs) t)) q i = bs.getD i 0 := by
  have hkey := key_add (h := .spd (q / 4)) (a := frameOff q) (k := i)
  calc _ = (applyAct (putBytes (q / 4) (frameOff q) bs) t).readByte (.spd (q / 4)) (frameOff q + i) :=
        applyActs_keeps (p := fun u => u.readByte (.spd (q / 4)) (frameOff q + i))
          (fun a ha u => (hl a ha).keeps_apart (apart_head (Nat.lt_of_lt_of_le hi hlen)) u) _
    _ = _ := by
      rw [putBytes, readByte_write rfl, hkey, if_pos (by omega), Nat.add_sub_cancel_left]

/-- Every micro-operation of an entry is one on sequencers, flags, the work in progress or the frame. -/
theorem enterTrap_kinds (hs : Canonical s) (ha : a ∈ enterTrap s q epc cause ++ [bump]) : EntryAct s q 0 a := by
  obtain ⟨tail, frame, w, f, heq, htail, hframe, -⟩ := enterTrap_eq (s := s) (q := q) (epc := epc) (cause := cause)
  simp only [heq, List.mem_append, List.mem_cons, List.not_mem_nil, or_false] at ha
  obtain (((ha | rfl | ha) | ha) | rfl | rfl) | rfl := ha
  · exact (flagActsAll_kinds ha).entryAct
  · refine .frame 0 _ (Nat.le_refl _) ?_
    rw [List.length_append, List.length_append, leBytes_length, leBytes_length, htail, frameSpan]
    omega
  · exact (hframe a ha).of_span (frameSpan_flagged hs) (Nat.zero_le _)
  · exact clearFlags_kinds ha
  · exact .work _
  · exact .seq _ _
  · exact .work _

/-- What depends on no sequencer, flag, work or scratchpad is kept by an entry. -/
theorem enterTrap_keeps {β : Type} {p : State → β} (hs : Canonical s)
    (hp : ∀ t m fl w b ps, p { t with seqs := m, laneFlags := fl, work := w, spd := b, spdPoison := ps } = p t) :
    p (applyActs (enterTrap s q epc cause ++ [bump]) s) = p s :=
  applyActs_keeps (fun _ ha t => (enterTrap_kinds hs ha).keeps hp t) s

theorem enterTrap_readByte {b : Nat} (hs : Canonical s) (hout : ¬ InFrame s q h b) :
    (applyActs (enterTrap s q epc cause ++ [bump]) s).readByte h b = s.readByte h b :=
  applyActs_keeps (p := fun t => t.readByte h b) (fun _ ha t => (enterTrap_kinds hs ha).keeps_apart (apart_of_not_inFrame hout) t) s

/-- The sequencer in its handler. -/
theorem enterTrap_seqOf (hs : Canonical s) : ∃ y, FlagsClear y ∧ Handles s cause y ((applyActs (enterTrap s q epc cause ++ [bump]) s).seqOf q) := by
  obtain ⟨tail, frame, w, f, heq, -, -, hf⟩ := enterTrap_eq (s := s) (q := q) (epc := epc) (cause := cause)
  rw [applyActs_bump, seqOf_bump, heq, List.append_assoc, applyActs_append, clearFlags_seqOf (applyActs_canonical hs _)]
  exact ⟨_, ⟨rfl, rfl, rfl, rfl, rfl⟩, hf _⟩

theorem laneFlag_bump : (applyAct bump t).laneFlag q k = t.laneFlag q k := rfl

theorem enterTrap_laneFlag (hs : Canonical s) (hk : k < 24) : (applyActs (enterTrap s q epc cause ++ [bump]) s).laneFlag q k = 0 := by
  obtain ⟨tail, frame, w, f, heq, -, -, -⟩ := enterTrap_eq (s := s) (q := q) (epc := epc) (cause := cause)
  rw [applyActs_bump, laneFlag_bump, heq, List.append_assoc, applyActs_append]
  exact clearFlags_laneFlag (applyActs_canonical hs _) hk

/-- The first bytes of the frame are EPC, TCAUSE and the rest of the header. -/
theorem enterTrap_header (hs : Canonical s) : ∃ tail : List Byte, tail.length = 80 ∧ ∀ i, i < 96 →
    frameByte (applyActs (enterTrap s q epc cause ++ [bump]) s) q i = (leBytes 8 epc ++ leBytes 8 (causeWord cause).toNat ++ tail).getD i 0 := by
  obtain ⟨tail, frame, w, f, heq, htail, hframe, -⟩ := enterTrap_eq (s := s) (q := q) (epc := epc) (cause := cause)
  have hlen : (leBytes 8 epc ++ leBytes 8 (causeWord cause).toNat ++ tail).length = 96 := by
    rw [List.length_append, List.length_append, leBytes_length, leBytes_length, htail]
  refine ⟨tail, htail, fun i hi => ?_⟩
  have hrest : ∀ a ∈ frame ++ (clearFlags q ++ ([.work w, .seq q f] ++ [bump])), EntryAct s q 0x100 a := by
    intro a ha
    simp only [List.mem_append, List.mem_cons, List.not_mem_nil, or_false] at ha
    obtain ha | ha | (rfl | rfl) | rfl := ha
    · exact (hframe a ha).of_span (frameSpan_flagged hs) (Nat.le_refl _)
    · exact clearFlags_kinds ha
    · exact .work _
    · exact .seq _ _
    · exact .work _
  rw [heq, List.append_assoc, List.append_assoc, List.append_assoc, applyActs_append, List.cons_append, applyActs_cons]
  exact frameByte_header hrest (by omega) (by omega)

/-- An entry into a handler: the sequencer, the frame, and what stays. -/
theorem enterTrap_entered (hs : Canonical s) : Entered s (applyActs (enterTrap s q epc cause ++ [bump]) s) q epc cause := by
  obtain ⟨y, hclear, hy⟩ := enterTrap_seqOf (q := q) (epc := epc) (cause := cause) hs
  obtain ⟨h0, h1, h2, h3, hfev⟩ := hy.flags hclear
  obtain ⟨tail, -, hbyte⟩ := enterTrap_header (q := q) (epc := epc) (cause := cause) hs
  refine ⟨hy.pc, hy.run, hy.hnd, hy.resumeAt, hy.loops, hy.rep, h0, h1, h2, h3, hfev,
    fun k hk => enterTrap_laneFlag hs hk, fun i hi => ?_, fun i hi => ?_, fun h b hout => enterTrap_readByte hs hout, ?_⟩
  · rw [hbyte i (by omega), header_getD_epc hi]
  · rw [hbyte (8 + i) (by omega), header_getD_tcause hi]
  · exact ⟨enterTrap_keeps (p := State.scalars) hs fun _ _ _ _ _ _ => rfl, enterTrap_keeps (p := State.masks) hs fun _ _ _ _ _ _ => rfl,
      enterTrap_keeps (p := State.glints) hs fun _ _ _ _ _ _ => rfl, enterTrap_keeps (p := State.rows) hs fun _ _ _ _ _ _ => rfl,
      enterTrap_keeps (p := State.mps) hs fun _ _ _ _ _ _ => rfl, enterTrap_keeps (p := State.ths) hs fun _ _ _ _ _ _ => rfl,
      enterTrap_keeps (p := State.tags) hs fun _ _ _ _ _ _ => rfl, enterTrap_keeps (p := State.chip) hs fun _ _ _ _ _ _ => rfl⟩

/-- An entry for the timer disarms it (R275). -/
theorem enterTrap_disarms (hs : Canonical s) (hc : cause.code = 0x30) :
    ((applyActs (enterTrap s q epc cause ++ [bump]) s).seqOf q).tcmp.getLsbD 48 = false := by
  obtain ⟨y, -, hy⟩ := enterTrap_seqOf (q := q) (epc := epc) (cause := cause) hs
  exact hy.timer hc

/-! Which traps are entered. -/

theorem exec_trapEntry : exec (.trapEntry q cause) s = performs (takeTrap s q (s.seqOf q).pc cause) s := rfl

theorem takeTrap_outside (hh : (s.seqOf q).hnd = false) : takeTrap s q epc cause = enterTrap s q epc cause := by
  simp only [takeTrap, hh, Bool.false_and, Bool.false_eq_true, if_false]

/-- A precise cause in a handler is a double fault (R300). -/
theorem takeTrap_precise (hh : (s.seqOf q).hnd = true) (hc : cause.code < 0x20 ∨ cause.code = 0x32) :
    takeTrap s q epc cause = doubleFault s (q / 4) := by
  have hprecise : (decide (cause.code < 0x20) || decide (cause.code = 0x32)) = true := by simpa using hc
  simp only [takeTrap, hh, hprecise, Bool.and_self, if_true]

theorem exec_timerInterrupt (hdue : timerDue (s.seqOf q) s.cyc = true) (hh : (s.seqOf q).hnd = false) :
    exec (.timerInterrupt q) s = performs (takeTrap s q (s.seqOf q).pc (asyncCause s q 0x30)) s := by
  show execTimerInterrupt q s = _
  simp only [execTimerInterrupt, hdue, hh, Bool.not_false, Bool.and_self, if_true]
  rfl

/-- Settles O34: an entry outside a handler, a double fault inside one, and the timer's entry. -/
theorem trapEntryEffects : Obligations.TrapEntryEffects := by
  intro q cause s hs
  refine ⟨fun hh => ⟨_, ?_, enterTrap_entered hs⟩, fun hh hc => ?_, fun harmed hreached hh => ⟨_, ?_, enterTrap_entered hs, enterTrap_disarms hs rfl⟩⟩
  · rw [exec_trapEntry, takeTrap_outside hh]
    rfl
  · rw [exec_trapEntry, takeTrap_precise hh hc]
  · have hdue : timerDue (s.seqOf q) s.cyc = true := Bool.and_eq_true_iff.mpr ⟨harmed, decide_eq_true hreached⟩
    rw [exec_timerInterrupt hdue hh, takeTrap_outside hh]
    rfl

end Sys2Proof.Machine
end

section
/-! PROOFS. The arbiter: the queue of highest precedence among those that are ready and fit the slice (13 R286, R381). -/

namespace Sys2Proof.Machine

variable {y : Core} {t n m : Nat} {run : Option Nat} {reset : Bool} {a b : Nat × Queue} {l : List (Nat × Queue)}

/-! The order of the queues. -/

/-- The number by which the arbiter orders the queues of a core: effective rank, the running queue, PASS, and the lower number (R286). -/
def arbiterKey (run : Option Nat) (x : Nat × Queue) : Nat := x.2.eff * 2 ^ 20 + (if run = some x.1 then 2 ^ 12 else 0) + x.2.pass * 16 + (8 - x.1)

theorem better_eq : better run a b = if arbiterKey run a < arbiterKey run b then b else a := rfl

theorem better_mem : better run a b = a ∨ better run a b = b := by
  rw [better_eq]
  split
  · exact .inr rfl
  · exact .inl rfl

theorem arbiterKey_better : arbiterKey run a ≤ arbiterKey run (better run a b) ∧ arbiterKey run b ≤ arbiterKey run (better run a b) := by
  rw [better_eq]
  split <;> omega

/-- The best of a list is one of it, and no other one has a greater key. -/
theorem foldl_better : l.foldl (better run) a ∈ a :: l ∧ ∀ x ∈ a :: l, arbiterKey run x ≤ arbiterKey run (l.foldl (better run) a) := by
  induction l generalizing a with
  | nil => simp
  | cons b l ih =>
    obtain ⟨hmem, hmax⟩ := ih (a := better run a b)
    obtain ⟨ha, hb⟩ := arbiterKey_better (run := run) (a := a) (b := b)
    have hbest := hmax _ List.mem_cons_self
    refine ⟨?_, fun x hx => ?_⟩
    · rw [List.foldl_cons]
      obtain h | h := List.mem_cons.mp hmem
      · rw [h]
        obtain h | h := better_mem (run := run) (a := a) (b := b) <;> simp [h]
      · exact List.mem_cons_of_mem _ (List.mem_cons_of_mem _ h)
    · rw [List.foldl_cons]
      obtain rfl | rfl | hx := by simpa only [List.mem_cons] using hx
      · exact ha.trans hbest
      · exact hb.trans hbest
      · exact hmax x (List.mem_cons_of_mem _ hx)

theorem bestQueue_eq_none : bestQueue run l = none ↔ l = [] := by cases l <;> simp [bestQueue]

theorem bestQueue_eq_some (h : bestQueue run l = some n) : ∃ q, (n, q) ∈ l ∧ ∀ x ∈ l, arbiterKey run x ≤ arbiterKey run (n, q) := by
  cases l with
  | nil => exact absurd h nofun
  | cons a l =>
    obtain ⟨hmem, hmax⟩ := foldl_better (run := run) (a := a) (l := l)
    obtain rfl : (l.foldl (better run) a).1 = n := Option.some.inj h
    exact ⟨_, hmem, hmax⟩

/-- With 8 queues and a PASS of at most 16 the greatest key is that of the precedence of R286. -/
theorem precedes_of_key {p q : Queue} (hn : n < 8) (hm : m < 8) (hp : p.pass ≤ 16) (hq : q.pass ≤ 16) (h : arbiterKey run (m, q) ≤ arbiterKey run (n, p)) :
    Precedes run n p m q := by
  have hkey : ∀ (k : Nat) (x : Queue), arbiterKey run (k, x) = x.eff * 2 ^ 20 + (if run = some k then 2 ^ 12 else 0) + x.pass * 16 + (8 - k) := fun _ _ => rfl
  rw [hkey, hkey] at h
  have heff : q.eff ≤ p.eff := by split at h <;> split at h <;> omega
  obtain hlt | heq := heff.lt_or_eq
  · exact .inl hlt
  refine .inr ⟨heq, ?_⟩
  by_cases hnrun : run = some n <;> by_cases hmrun : run = some m
  · obtain rfl : n = m := Option.some.inj (hnrun.symm.trans hmrun)
    exact .inr ⟨Iff.rfl, by omega⟩
  · exact .inl ⟨hnrun, hmrun⟩
  · rw [if_neg hnrun, if_pos hmrun] at h
    omega
  · rw [if_neg hnrun, if_neg hmrun] at h
    exact .inr ⟨iff_of_false hnrun hmrun, by omega⟩

/-! The queues that the arbiter chooses from. -/

/-- The ready queues of a core, with their numbers; none of a core out of service (R286, R363). -/
def readyQueues (y : Core) : List (Nat × Queue) := if y.outOfService then [] else (y.queues.mapIdx (fun i q => (i, q))).filter (fun e => e.2.ready)

/-- The ready queues whose run fits what is left of the slice. -/
def fittingQueues (y : Core) (t : Nat) : List (Nat × Queue) := (readyQueues y).filter (fun e => e.2.run ≤ sliceLeft y t)

theorem mem_readyQueues {q : Queue} : (n, q) ∈ readyQueues y ↔
    (y.outOfService = false ∧ n < y.queues.length ∧ (y.queues.getD n {}).ready = true) ∧ y.queues.getD n {} = q := by
  rw [readyQueues]
  cases y.outOfService with
  | true => simp
  | false =>
    simp only [Bool.false_eq_true, if_false, List.mem_filter, List.mem_mapIdx, Prod.mk.injEq, true_and]
    constructor
    · rintro ⟨⟨i, hi, rfl, rfl⟩, hready⟩
      rw [List.getD_eq_getElem _ _ hi]
      exact ⟨⟨hi, hready⟩, rfl⟩
    · rintro ⟨⟨hn, hready⟩, rfl⟩
      rw [List.getD_eq_getElem _ _ hn] at hready ⊢
      exact ⟨⟨n, hn, rfl, rfl⟩, hready⟩

theorem mem_fittingQueues {q : Queue} : (n, q) ∈ fittingQueues y t ↔ (n, q) ∈ readyQueues y ∧ q.run ≤ sliceLeft y t := by
  rw [fittingQueues, List.mem_filter, decide_eq_true_eq]

/-! The decision. -/

theorem arbitrate_eq : arbitrate y t run reset = match bestQueue run (fittingQueues y t) with
    | some n => .grant n
    | none => match (if reset then bestQueue run (readyQueues y) else none) with
      | some n => .long n
      | none => .idle := by
  unfold arbitrate
  rfl

theorem arbitrate_eq_grant : arbitrate y t run reset = .grant n ↔ bestQueue run (fittingQueues y t) = some n := by
  rw [arbitrate_eq]
  cases bestQueue run (fittingQueues y t) with
  | some k => simp
  | none => cases (if reset then bestQueue run (readyQueues y) else none) <;> simp

theorem arbitrate_eq_long : arbitrate y t run reset = .long n ↔ fittingQueues y t = [] ∧ reset = true ∧ bestQueue run (readyQueues y) = some n := by
  rw [arbitrate_eq, ← bestQueue_eq_none (run := run)]
  cases bestQueue run (fittingQueues y t) with
  | some k => simp
  | none => cases reset <;> cases bestQueue run (readyQueues y) <;> simp

theorem arbitrate_eq_idle : arbitrate y t run reset = .idle ↔ fittingQueues y t = [] ∧ (reset = true → readyQueues y = []) := by
  rw [arbitrate_eq, ← bestQueue_eq_none (run := run), ← bestQueue_eq_none (run := run)]
  cases bestQueue run (fittingQueues y t) with
  | some k => simp
  | none => cases reset <;> cases bestQueue run (readyQueues y) <;> simp

/-- The best of some of a core's ready queues is one of them and has the precedence over them. -/
theorem bestQueue_precedes (hlen : y.queues.length = 8) (hpass : ∀ q ∈ y.queues, q.pass ≤ 16) (hl : ∀ n q, (n, q) ∈ l → (n, q) ∈ readyQueues y)
    (h : bestQueue run l = some n) : (n, y.queues.getD n {}) ∈ l ∧
      ∀ m, (m, y.queues.getD m {}) ∈ l → Precedes run n (y.queues.getD n {}) m (y.queues.getD m {}) := by
  obtain ⟨q, hmem, hmax⟩ := bestQueue_eq_some h
  obtain ⟨⟨-, hn, -⟩, rfl⟩ := mem_readyQueues.mp (hl n q hmem)
  have bound : ∀ k, k < y.queues.length → (y.queues.getD k {}).pass ≤ 16 := fun k hk => by
    rw [List.getD_eq_getElem _ _ hk]
    exact hpass _ (List.getElem_mem hk)
  refine ⟨hmem, fun m hm => ?_⟩
  obtain ⟨⟨-, hmlen, -⟩, -⟩ := mem_readyQueues.mp (hl m _ hm)
  exact precedes_of_key (hlen ▸ hn) (hlen ▸ hmlen) (bound n hn) (bound m hmlen) (hmax _ hm)

/-- Settles O41: the best queue that fits, at a slice reset the best one at all, else none. -/
theorem arbiterChoice : Obligations.ArbiterChoice := by
  intro y t run reset hlen hpass q ready fits
  have hready : ∀ n, ready n ↔ (n, q n) ∈ readyQueues y := fun n => by
    rw [mem_readyQueues, hlen, and_iff_left (rfl : y.queues.getD n {} = q n)]
  have hfits : ∀ n, fits n ↔ (n, q n) ∈ fittingQueues y t := fun n => by rw [mem_fittingQueues, ← hready]
  have hsub : ∀ n p, (n, p) ∈ fittingQueues y t → (n, p) ∈ readyQueues y := fun _ _ h => (mem_fittingQueues.mp h).1
  refine ⟨fun n h => ?_, fun n h => ?_, fun h => ?_⟩
  · obtain ⟨hmem, hbest⟩ := bestQueue_precedes hlen hpass hsub (arbitrate_eq_grant.mp h)
    exact ⟨(hfits n).mpr hmem, fun m hm => hbest m ((hfits m).mp hm)⟩
  · obtain ⟨hnone, hreset, h⟩ := arbitrate_eq_long.mp h
    obtain ⟨hmem, hbest⟩ := bestQueue_precedes hlen hpass (fun _ _ h => h) h
    exact ⟨hreset, (hready n).mpr hmem, fun m hm => by simpa [hnone] using (hfits m).mp hm, fun m hm => hbest m ((hready m).mp hm)⟩
  · obtain ⟨hnone, hall⟩ := arbitrate_eq_idle.mp h
    exact ⟨fun m hm => by simpa [hnone] using (hfits m).mp hm, fun hreset m hm => by simpa [hall hreset] using (hready m).mp hm⟩

end Sys2Proof.Machine
end

section
/-! PROOFS. Writes of module registers: rings, duty, cap and takeover (10 R250, 13 R282, 19 R368, R375), the journal and its pairing (17 R332, R335,
R340, R344), routes (15 R313, R314), and the other offsets of BAR 0 (10 R241, R244, 19 R367). -/

namespace Sys2Proof.Machine

variable {s t : State} {fn k n m off : Nat} {v : Word} {r : Ring} {j : Journal} {l : List Act}

/-! The ring registers (R282). -/

/-- A write of ring registers, by what it makes of the ring as it stands. -/
theorem performs_modRing {f : Ring → Ring} (h : f (s.chip.ring fn) = r) :
    performs [modRing fn f] s = performs [.chip (fun h => { h with rings := SMap.set {} h.rings fn r })] s := by
  subst h
  exact performs_congr rfl

theorem exec_ringEnableWrite : exec (.ringEnableWrite fn v) s = performs (ringEnable s fn v) s := rfl
theorem exec_cmdtailWrite : exec (.cmdtailWrite fn v) s = performs (cmdTail s fn v) s := rfl
theorem exec_cplheadWrite : exec (.cplheadWrite fn v) s = performs (cplHead s fn v) s := rfl

/-- A ring's sizes allow its enabling. -/
def Ring.sized (r : Ring) : Prop := 4 ≤ r.cmdLog ∧ r.cmdLog ≤ 16 ∧ 4 ≤ r.cplLog ∧ r.cplLog ≤ 16

/-- A ring as a write of its enable register leaves it. -/
def Ring.enabled (r : Ring) (v : Word) : Ring :=
  { r with en := v.getLsbD 0 && 4 ≤ r.cmdLog && r.cmdLog ≤ 16 && 4 ≤ r.cplLog && r.cplLog ≤ 16, irq := v.getLsbD 1 }

theorem enabled_sized (h : r.sized) : r.enabled v = { r with en := v.getLsbD 0, irq := v.getLsbD 1 } := by
  obtain ⟨h1, h2, h3, h4⟩ := h
  simp [Ring.enabled, h1, h2, h3, h4]

theorem enabled_unsized (h : ¬ r.sized) : r.enabled v = { r with en := false, irq := v.getLsbD 1 } := by
  have hen : (v.getLsbD 0 && 4 ≤ r.cmdLog && r.cmdLog ≤ 16 && 4 ≤ r.cplLog && r.cplLog ≤ 16) = false := by
    rw [Bool.eq_false_iff]
    intro hen
    simp only [Bool.and_eq_true, decide_eq_true_eq] at hen
    exact h ⟨hen.1.1.1.2, hen.1.1.2, hen.1.2, hen.2⟩
  rw [Ring.enabled, hen]

section Unblocked

variable (hopen : hostBlocked s fn = false)

include hopen

theorem ringEnable_open : ringEnable s fn v = [modRing fn (fun r => r.enabled v)] := if_neg (by simp [hopen])

theorem cmdTail_open : cmdTail s fn v = [modRing fn (fun r => { r with cmdTail := v.toNat % 2 ^ 32 })] := if_neg (by simp [hopen])

theorem cplHead_open : cplHead s fn v = drainRecords { s.chip.ring fn with cplHead := v.toNat % 2 ^ 32 } fn := if_neg (by simp [hopen])

end Unblocked

section Blocked

variable (hblocked : hostBlocked s fn = true)

include hblocked

theorem ringEnable_blocked : ringEnable s fn v = [] := if_pos hblocked
theorem cmdTail_blocked : cmdTail s fn v = [] := if_pos hblocked
theorem cplHead_blocked : cplHead s fn v = [] := if_pos hblocked

end Blocked

/-- A completion ring for which no record waits takes its registers, and nothing is written. -/
theorem drainRecords_empty (h : r.waiting = []) : drainRecords r fn = [.chip (fun h => { h with rings := SMap.set {} h.rings fn r })] := by
  simp [drainRecords, h, writeRecords]

/-- A ring after one record has been written. -/
def Ring.recorded (r : Ring) : Ring :=
  { r with waiting := [], cplTail := (r.cplTail + 1) % 2 ^ 32, messages := r.messages + (if r.irq then 1 else 0) }

/-- The one record that waits is written where the ring has space, with its message. -/
theorem drainRecords_one {e : BitVec 128} (hwait : r.waiting = [e]) (hroom : r.used < 2 ^ r.cplLog) : drainRecords r fn =
    [.write .host (r.cplBase + 16 * (r.cplTail % 2 ^ r.cplLog)) (leBytes 16 e.toNat) (List.replicate 16 false),
      .chip (fun h =>
        let h := { h with rings := SMap.set {} h.rings fn r.recorded }
        if r.irq then h.raise fn 0 else h)] := by
  have hw : writeRecords 1 r = ([(r.cplBase + 16 * (r.cplTail % 2 ^ r.cplLog), e)], r.recorded) := by
    simp only [writeRecords, hwait, hroom, if_true]
    rfl
  simp only [drainRecords, hwait, List.length_singleton, hw]
  rfl

/-! Duty, cap, takeover (R250, R368, R375). -/

theorem exec_dutyWrite (hopen : hostBlocked s 0 = false) : exec (.dutyWrite v) s = performs (dutyActs v) s := by
  have : exec (.dutyWrite v) s = performs (if hostBlocked s 0 then [] else dutyActs v) s := rfl
  rw [this, hopen]
  rfl

theorem exec_pwrcapWrite (hopen : hostBlocked s 0 = false) : exec (.pwrcapWrite v) s = performs (powerCapActs v) s := by
  have : exec (.pwrcapWrite v) s = performs (if hostBlocked s 0 then [] else powerCapActs v) s := rfl
  rw [this, hopen]
  rfl

theorem powerCapActs_inside (hlo : 2400 ≤ v.toNat % 2 ^ 13) (hhi : v.toNat % 2 ^ 13 ≤ 4400) :
    powerCapActs v = [.chip (fun h => { h with cap := v.toNat % 2 ^ 13 })] :=
  if_pos (Bool.and_eq_true_iff.mpr ⟨decide_eq_true hlo, decide_eq_true hhi⟩)

theorem powerCapActs_outside (h : v.toNat % 2 ^ 13 < 2400 ∨ 4400 < v.toNat % 2 ^ 13) : powerCapActs v = [] := if_neg (by simpa using by omega)

theorem exec_tkoWrite {byHost : Bool} : exec (.tkoWrite k byHost) s =
    performs (if byHost = s.chip.duty.getLsbD 2 ∧ (s.stackAt k).tko = true ∧ 16 ≤ (s.stackAt k).beats then [modStack k (fun t => { t with
      handback := true, handbackAt := s.cyc + 1 + s.choice 0 % (3900 / max 1 (s.stackAt k).tkoRate) })] else []) s := by
  have hacts : exec (.tkoWrite k byHost) s = performs (tkoActs s k byHost) s := rfl
  rw [hacts, tkoActs]
  simp only [Bool.and_eq_true, decide_eq_true_eq, and_assoc]
  split <;> exact performs_congr rfl

/-! Routes (R313, R314). -/

theorem release_routes {h : Chip} : (h.release m).routes = h.routes := by
  rw [Chip.release]
  split
  · rfl
  · split <;> rfl

/-! The journal's registers (R332, R340, R344). -/

theorem exec_mcurWrite : exec (.mcurWrite v) s = performs (cursorActs s v) s := rfl

theorem exec_jpcomWrite {forwarded : Bool} : exec (.jpcomWrite v forwarded) s = performs (pcomActs s v forwarded) s := rfl

theorem pcomActs_unmarked (h : v.toNat ∉ s.chip.journal.hostedMarks) : pcomActs s v false = [] := by
  simp [pcomActs, h]

theorem pcomActs_marked (hopen : hostBlocked s 0 = false) (h : v.toNat ∈ s.chip.journal.hostedMarks) : pcomActs s v false =
    [modJournal (fun j => { j with hostedCom := v.toNat }), .chip (fun h => h.tell s.cyc s.chip.journal.writer (.commit v.toNat))] := by
  simp [pcomActs, h, hopen]

/-! The pairing registers (R335). -/

theorem exec_mirrorPairingWrite : exec (.mirrorPairingWrite k v) s = performs (pairingActs s k v) s := rfl

theorem post_journal {h : Chip} {p : Posted} : (h.post k p).journal = h.journal := by simp only [Chip.post, apply_ite Chip.journal, ite_self]

theorem send_journal {h : Chip} {fs : List (Flit × Nat)} : (h.send m fs).journal = h.journal := by
  rw [Chip.send]
  split <;> rfl

theorem sendRecord_journal {h : Chip} {bs : List Byte} {ps : List Bool} : (h.sendRecord fn bs ps).journal = h.journal := by
  rw [Chip.sendRecord]
  split
  · exact send_journal
  · rfl

/-- The sending of records again changes nothing of the journal itself. -/
theorem resendActs_journal : (applyActs (resendActs s n m) t).chip.journal = t.chip.journal := by
  refine applyActs_keeps (p := fun t => t.chip.journal) (fun a ha u => ?_) t
  have found {b i} (hb : b ∈ eccChecks s [(.hbm, ringPlace s.chip.journal.localBase s.chip.journal.ringLog (n + i), 64)] (s.chip.journal.tagOf (n + i))) :
      (applyAct b u).chip.journal = u.chip.journal := (eccChecks_marksOrPosts hb).keeps_chip fun _ _ _ => post_journal
  simp only [resendActs, List.mem_flatMap] at ha
  obtain ⟨i, -, ha⟩ := ha
  split at ha <;> obtain ha | ha := List.mem_append.mp ha
  · exact found ha
  · obtain rfl := List.mem_singleton.mp ha
    exact post_journal
  · exact found ha
  · obtain rfl := List.mem_singleton.mp ha
    exact sendRecord_journal

theorem settle_unpaired (h : j.pval = false) : j.settle.state = 0 := by simp [Journal.settle, h]

/-- A journal that starts to send: its records not yet durable count as first sent now (R338). -/
def startPairing (s : State) (f : Journal → Journal) : List Act :=
  let t := applyAct (modJournal f) s
  modJournal f :: (if s.chip.journal.state = 0 && t.chip.journal.state = 1 then
    modJournal (fun j => { j with sentAt := j.sentFrom j.head s.cyc }) :: resendActs t t.chip.journal.head t.chip.journal.tail else [])

/-- Whether or not the journal starts to send, only the cycles of its records change beside what the write makes of it. -/
theorem startPairing_journal (f : Journal → Journal) :
    ∃ sent, (applyActs (startPairing s f ++ [bump]) s).chip.journal = { f s.chip.journal with sentAt := sent } := by
  rw [startPairing, applyActs_bump]
  split
  · refine ⟨(f s.chip.journal).sentFrom (f s.chip.journal).head s.cyc, ?_⟩
    exact (resendActs_journal (t := applyAct (modJournal fun j => { j with sentAt := j.sentFrom j.head s.cyc }) (applyAct (modJournal f) s))).trans rfl
  · exact ⟨(f s.chip.journal).sentAt, rfl⟩

/-- MPAIR: partner, PVAL and ACKB, whose values below 1,024 keep the old one (log 79). -/
theorem mirrorPairing_partner : ∃ t, exec (.mirrorPairingWrite 0x040 v) s = .next t ∧ t.chip.journal.partner = (v.extractLsb' 0 10).toNat ∧
    t.chip.journal.pval = v.getLsbD 10 ∧
    t.chip.journal.ackb = (if 1024 ≤ (v.extractLsb' 32 24).toNat then (v.extractLsb' 32 24).toNat else s.chip.journal.ackb) ∧
    (v.getLsbD 10 = false → t.chip.journal.state = 0) := by
  refine ⟨_, rfl, ?_⟩
  obtain ⟨sent, hj⟩ := startPairing_journal (s := s) (fun j => ({ j with
    partner := (v.extractLsb' 0 10).toNat, heard := if v.getLsbD 10 && j.partner = (v.extractLsb' 0 10).toNat then j.heard else none, pval := v.getLsbD 10
    ackb := if 1024 ≤ (v.extractLsb' 32 24).toNat then (v.extractLsb' 32 24).toNat else j.ackb } : Journal).settle)
  refine ⟨congrArg Journal.partner hj, congrArg Journal.pval hj, congrArg Journal.ackb hj, fun hpval => (congrArg Journal.state hj).trans (settle_unpaired hpval)⟩

/-- MRING: the own ring and its local copy. -/
theorem mirrorPairing_ring : ∃ t, exec (.mirrorPairingWrite 0x042 v) s = .next t ∧ t.chip.journal.ringBase = (v.extractLsb' 0 24).toNat ∧
    t.chip.journal.ringLog = (v.extractLsb' 24 5).toNat ∧ t.chip.journal.localBase = (v.extractLsb' 32 24).toNat := by
  refine ⟨_, rfl, ?_⟩
  obtain ⟨sent, hj⟩ := startPairing_journal (s := s) (fun j => ({ j with
    ringBase := (v.extractLsb' 0 24).toNat, ringLog := (v.extractLsb' 24 5).toNat, localBase := (v.extractLsb' 32 24).toNat } : Journal).settle)
  exact ⟨congrArg Journal.ringBase hj, congrArg Journal.ringLog hj, congrArg Journal.localBase hj⟩

theorem pairingActs_spares (h : s.chip.journal.state ≠ 2) : pairingActs s 0x041 v = [modJournal (fun j => { j with spares := v &&& 0x7FF7FF7FF7FF })] := by
  simp [pairingActs, h]

/-- MHOST: a writer that becomes valid starts at the HEAD it has told. -/
theorem mirrorPairing_host (hv : v.getLsbD 29 = true) (hnew : s.chip.journal.hv = false) : ∃ t, exec (.mirrorPairingWrite 0x043 v) s = .next t ∧
    t.chip.journal.hv = true ∧ t.chip.journal.writer = (v.extractLsb' 32 10).toNat ∧ t.chip.journal.hostedNext = s.chip.journal.hostedHead ∧
    t.chip.journal.wfail = false := by
  refine ⟨_, rfl, ?_⟩
  simp [pairingActs, modJournal, hv, hnew]

/-! The other offsets of BAR 0 (R367). -/

theorem exec_registerWrite : exec (.registerWrite off v) s = performs (registerActs s off v) s := rfl

/-- The offsets of DUTY and PWRCAP do what their own events do. -/
theorem exec_registerWrite_duty : exec (.registerWrite 0x20000 v) s = exec (.dutyWrite v) s := rfl
theorem exec_registerWrite_cap : exec (.registerWrite 0x20008 v) s = exec (.pwrcapWrite v) s := rfl

theorem not_between {lo hi : Nat} (h : off < lo ∨ hi ≤ off) : ¬ (decide (lo ≤ off) && decide (off < hi)) = true := by
  simp only [Bool.and_eq_true, decide_eq_true_eq]
  omega

section Offsets

variable (hopen : hostBlocked s 0 = false)

include hopen

theorem registerActs_range (hn : n < 256) (hk : k < 3) : registerActs s (0x50000 + 32 * n + 8 * k) v = [.chip (fun h => { h with
    ranges := SMap.set 0 h.ranges n (setField (SMap.get 0 h.ranges n) (64 * k) 64 v.toNat &&& rangeMask) })] := by
  rw [registerActs, if_neg (by omega), if_neg (by omega), hopen, if_neg Bool.false_ne_true, if_neg (by omega), if_neg (by omega), if_neg (not_between (by omega)),
    if_neg (not_between (by omega)), if_neg (not_between (by omega)), if_pos (by simp; omega), show (0x50000 + 32 * n + 8 * k - 0x50000) / 32 = n by omega,
    show (0x50000 + 32 * n + 8 * k - 0x50000) / 8 % 4 = k by omega, writeRange, if_neg (by omega)]

theorem registerActs_root (hm : m < 17) : registerActs s (0x60000 + 8 * m) v =
    [.chip (fun h => { h with roots := SMap.set 0 h.roots m (v &&& 0xFFFFF00001) })] := by
  rw [registerActs, if_neg (by omega), if_neg (by omega), hopen, if_neg Bool.false_ne_true, if_neg (by omega), if_neg (by omega), if_neg (not_between (by omega)),
    if_neg (not_between (by omega)), if_neg (not_between (by omega)), if_neg (not_between (by omega)), if_pos (by simp; omega),
    show (0x60000 + 8 * m - 0x60000) / 8 = m by omega, rootMask]

theorem exec_registerWrite_invalidate : exec (.registerWrite 0x60110 v) s = exec (.tlbInvalidate v) s := by
  have hwrite : exec (.registerWrite 0x60110 v) s = performs (if hostBlocked s 0 then [] else invalidateActs s v) s := rfl
  rw [hwrite, hopen]
  rfl

theorem exec_registerWrite_jpcom : exec (.registerWrite 0x80048 v) s = exec (.jpcomWrite v false) s := by
  have hwrite : exec (.registerWrite 0x80048 v) s = performs (if hostBlocked s 0 then [] else pcomActs s v false) s := rfl
  rw [hwrite, hopen]
  rfl

end Offsets

/-- Settles O44: each register's write, by the lemma for that register. -/
theorem registerWrites : Obligations.RegisterWrites := by
  intro fn v s r ring sizes j f
  refine ⟨fun hopen => ?_, fun hblocked => ?_, fun hopen => ?_, fun k byHost => exec_tkoWrite, fun m => ⟨_, rfl, release_routes⟩, exec_mcurWrite,
    ⟨_, rfl, rfl⟩, fun hopen hmark => ?_, fun hmark => ?_, mirrorPairing_partner, fun hstate => ?_, mirrorPairing_ring, mirrorPairing_host⟩
  · rw [exec_ringEnableWrite, exec_cmdtailWrite, exec_cplheadWrite, ringEnable_open hopen, cmdTail_open hopen, cplHead_open hopen]
    refine ⟨fun h => performs_modRing (enabled_sized h), fun h => performs_modRing (enabled_unsized h), performs_modRing rfl, rfl, fun h => ?_, fun e he hroom => ?_⟩
    · exact congrArg (performs · s) (drainRecords_empty (r := { r with cplHead := v.toNat % 2 ^ 32 }) h)
    · exact congrArg (performs · s) (drainRecords_one (r := { r with cplHead := v.toNat % 2 ^ 32 }) he hroom)
  · rw [exec_ringEnableWrite, exec_cmdtailWrite, exec_cplheadWrite, ringEnable_blocked hblocked, cmdTail_blocked hblocked, cplHead_blocked hblocked]
    exact ⟨rfl, rfl, rfl⟩
  · refine ⟨exec_dutyWrite hopen, fun hlo hhi => ?_, fun h => ?_, exec_registerWrite_duty, exec_registerWrite_cap, exec_registerWrite_invalidate hopen,
      exec_registerWrite_jpcom hopen, fun n k hn hk => ?_, fun m hm => ?_⟩
    · rw [exec_pwrcapWrite hopen, powerCapActs_inside hlo hhi]
    · rw [exec_pwrcapWrite hopen, powerCapActs_outside h]
    · rw [exec_registerWrite, registerActs_range hopen hn hk]
    · rw [exec_registerWrite, registerActs_root hopen hm]
  · refine ⟨_, exec_jpcomWrite, ?_⟩
    rw [pcomActs_marked hopen hmark]
    exact congrArg Journal.hostedCom tell_journal
  · rw [exec_jpcomWrite, pcomActs_unmarked hmark]
  · rw [exec_mirrorPairingWrite, pairingActs_spares hstate]

end Sys2Proof.Machine
end

section
/-! PROOFS. What a list of micro-operations can change: the parts of the state that each one touches, and the lists that the module's events share. -/

namespace Sys2Proof.Machine

variable {s t : State} {l k : List Act} {ps qs : List StatePart} {c d n m fn q r i : Nat} {a : Act}

/-- The parts of the state that the scheduling and packet events speak of. -/
inductive StatePart where
  | seqs | scalars | rows | cores | saved | work | chip
  deriving DecidableEq

/-- The parts that a micro-operation touches. -/
def Act.touches : Act → List StatePart
  | .scalar _ _ _ | .clearSeq _ => [.scalars]
  | .row _ _ _ | .flipRow _ _ _ | .clearCore _ => [.rows]
  | .seq _ _ => [.seqs]
  | .core _ _ => [.cores]
  | .work _ => [.work]
  | .chip _ => [.chip]
  | .save _ _ | .forget _ | .stow _ _ => [.saved]
  | .restore _ _ | .unload => [.seqs, .scalars, .rows, .cores, .saved]
  | _ => []

/-- A list of micro-operations touches no other parts than those listed. -/
def TouchesOnly (ps : List StatePart) (l : List Act) : Prop := ∀ a ∈ l, a.touches ⊆ ps

@[simp] theorem touchesOnly_nil : TouchesOnly ps [] := fun _ ha => absurd ha List.not_mem_nil

@[simp] theorem touchesOnly_cons : TouchesOnly ps (a :: l) ↔ a.touches ⊆ ps ∧ TouchesOnly ps l := List.forall_mem_cons

@[simp] theorem touchesOnly_append : TouchesOnly ps (l ++ k) ↔ TouchesOnly ps l ∧ TouchesOnly ps k := List.forall_mem_append

@[simp] theorem touchesOnly_map {α : Type} {f : α → Act} {xs : List α} : TouchesOnly ps (xs.map f) ↔ ∀ x ∈ xs, (f x).touches ⊆ ps := List.forall_mem_map

@[simp] theorem touchesOnly_flatMap {α : Type} {f : α → List Act} {xs : List α} : TouchesOnly ps (xs.flatMap f) ↔ ∀ x ∈ xs, TouchesOnly ps (f x) := by
  simp only [TouchesOnly, List.mem_flatMap]
  exact ⟨fun h x hx a ha => h a ⟨x, hx, ha⟩, fun h a ⟨x, hx, ha⟩ => h x hx a ha⟩

@[simp] theorem touchesOnly_ite {p : Prop} [Decidable p] : TouchesOnly ps (if p then l else k) ↔ (p → TouchesOnly ps l) ∧ (¬ p → TouchesOnly ps k) := by
  split <;> simp [*]

theorem TouchesOnly.mono (h : TouchesOnly ps l) (hp : ps ⊆ qs) : TouchesOnly qs l := fun a ha => List.Subset.trans (h a ha) hp

/-! A part that is not touched stays as it was. -/

/-- Each part of u that a micro-operation does not touch is that of t. -/
structure Untouched (a : Act) (t u : State) : Prop where
  seqs : StatePart.seqs ∉ a.touches → u.seqs = t.seqs
  scalars : StatePart.scalars ∉ a.touches → u.scalars = t.scalars
  rows : StatePart.rows ∉ a.touches → u.rows = t.rows
  cores : StatePart.cores ∉ a.touches → u.cores = t.cores
  saved : StatePart.saved ∉ a.touches → u.saved = t.saved
  work : StatePart.work ∉ a.touches → u.work = t.work
  chip : StatePart.chip ∉ a.touches → u.chip = t.chip

theorem untouched_refl : Untouched a t t := ⟨fun _ => rfl, fun _ => rfl, fun _ => rfl, fun _ => rfl, fun _ => rfl, fun _ => rfl, fun _ => rfl⟩

theorem untouched_setMem {h : Home} {b : Memory} {marks : SMap UnitMark} : Untouched a t (t.setMem h b marks) :=
  ⟨fun _ => setMem_seqs, fun _ => setMem_scalars, fun _ => setMem_rows, fun _ => setMem_cores, fun _ => setMem_saved, fun _ => setMem_work, fun _ => setMem_chip⟩

theorem applyAct_untouched (a : Act) (t : State) : Untouched a t (applyAct a t) := by
  cases a with
  | write | mark | wipe => exact untouched_setMem
  | record c => exact untouched_setMem (h := .spd c)
  | scalar | mask =>
    simp only [applyAct]
    split
    · exact untouched_refl
    · constructor <;> simp [Act.touches]
  | restore =>
    simp only [applyAct]
    split
    · constructor <;> simp [Act.touches, State.putCore]
    · exact untouched_refl
  | _ => constructor <;> simp [Act.touches, applyAct]

section Frame

variable (h : TouchesOnly ps l)

include h

theorem TouchesOnly.not_mem {p : StatePart} (hp : p ∉ ps) (ha : a ∈ l) : p ∉ a.touches := fun hmem => hp (h a ha hmem)

theorem TouchesOnly.seqs (hp : StatePart.seqs ∉ ps := by decide) : (applyActs l s).seqs = s.seqs :=
  applyActs_keeps (p := State.seqs) (fun a ha t => (applyAct_untouched a t).seqs (h.not_mem hp ha)) s

theorem TouchesOnly.scalars (hp : StatePart.scalars ∉ ps := by decide) : (applyActs l s).scalars = s.scalars :=
  applyActs_keeps (p := State.scalars) (fun a ha t => (applyAct_untouched a t).scalars (h.not_mem hp ha)) s

theorem TouchesOnly.rows (hp : StatePart.rows ∉ ps := by decide) : (applyActs l s).rows = s.rows :=
  applyActs_keeps (p := State.rows) (fun a ha t => (applyAct_untouched a t).rows (h.not_mem hp ha)) s

theorem TouchesOnly.cores (hp : StatePart.cores ∉ ps := by decide) : (applyActs l s).cores = s.cores :=
  applyActs_keeps (p := State.cores) (fun a ha t => (applyAct_untouched a t).cores (h.not_mem hp ha)) s

theorem TouchesOnly.saved (hp : StatePart.saved ∉ ps := by decide) : (applyActs l s).saved = s.saved :=
  applyActs_keeps (p := State.saved) (fun a ha t => (applyAct_untouched a t).saved (h.not_mem hp ha)) s

theorem TouchesOnly.work (hp : StatePart.work ∉ ps := by decide) : (applyActs l s).work = s.work :=
  applyActs_keeps (p := State.work) (fun a ha t => (applyAct_untouched a t).work (h.not_mem hp ha)) s

theorem TouchesOnly.chip (hp : StatePart.chip ∉ ps := by decide) : (applyActs l s).chip = s.chip :=
  applyActs_keeps (p := State.chip) (fun a ha t => (applyAct_untouched a t).chip (h.not_mem hp ha)) s

theorem TouchesOnly.seqOf (hp : StatePart.seqs ∉ ps := by decide) : (applyActs l s).seqOf q = s.seqOf q := by rw [State.seqOf, h.seqs hp, State.seqOf]

theorem TouchesOnly.coreOf (hp : StatePart.cores ∉ ps := by decide) : (applyActs l s).coreOf c = s.coreOf c := by rw [State.coreOf, h.cores hp, State.coreOf]

theorem TouchesOnly.queueOf (hp : StatePart.cores ∉ ps := by decide) : (applyActs l s).queueOf c n = s.queueOf c n := by
  rw [State.queueOf, h.coreOf hp, State.queueOf]

theorem TouchesOnly.rowOf (hp : StatePart.rows ∉ ps := by decide) : (applyActs l s).rowOf c n = s.rowOf c n := by rw [State.rowOf, h.rows hp, State.rowOf]

end Frame

/-! The lists that several events share. -/

theorem bump_touches : TouchesOnly [.work] [bump] := by simp [bump, Act.touches]

theorem post_touches {code place addr info : Nat} : (post s code fn place addr info).touches = [.chip] := rfl

theorem complete_touches {v : BitVec 128} : TouchesOnly [.chip] (complete s fn v) := by simp [complete, drainRecords, Act.touches]

theorem eccChecks_touches {places : List (Home × Nat × Nat)} : TouchesOnly [.chip] (eccChecks s places fn) := by
  intro a ha
  obtain ⟨h, u, v, rfl⟩ | ⟨code, fn, place, addr, info, rfl⟩ := eccChecks_marksOrPosts ha
  · simp [Act.touches]
  · simp [post_touches]

theorem deviceChecks_touches {va pick : Nat} : TouchesOnly [.chip] (deviceChecks s c fn va n pick) := by
  simp only [deviceChecks, touchesOnly_append, eccChecks_touches, and_self]

/-- A write of device memory. -/
def Act.writesDevice (a : Act) : Prop := ∃ pa bs marks, a = .write .hbm pa bs marks

/-- Writes of device virtual memory that meet no fault are writes of device memory (R245). -/
theorem writeDevice_writes {va pick : Nat} {bs : List Byte} {marks : List Bool} (h : writeDevice s c fn va pick bs marks = .ok l) :
    ∀ a ∈ l, a.writesDevice := by
  have fold : ∀ (pages : List (Nat × Nat)) (acc : Except (Nat × Nat) (List Act)), (∀ l, acc = .ok l → ∀ a ∈ l, a.writesDevice) →
      ∀ l, pages.foldl (fun acc p =>
        match acc with
        | .error e => .error e
        | .ok l =>
          match translateNow s c fn p.1 pick true with
          | .done pa => .ok (l ++ [.write .hbm pa ((bs.drop (p.1 - va)).take p.2) ((marks.drop (p.1 - va)).take p.2)])
          | .fault k => .error (k, p.1)
          | _ => .error (3, p.1)) acc = .ok l → ∀ a ∈ l, a.writesDevice := by
    intro pages
    induction pages with
    | nil => exact fun acc hacc l hl => hacc l hl
    | cons p pages ih =>
      intro acc hacc
      refine ih _ fun l hl => ?_
      cases acc with
      | error e => cases hl
      | ok l' =>
        simp only at hl
        split at hl
        · obtain rfl := Except.ok.inj hl
          rw [List.forall_mem_append, List.forall_mem_singleton]
          exact ⟨hacc l' rfl, _, _, _, rfl⟩
        · cases hl
        · cases hl
  exact fold _ (.ok []) (fun l hl => by obtain rfl := Except.ok.inj hl; exact List.forall_mem_nil _) l h

theorem touchesOnly_of_writesDevice (h : ∀ a ∈ l, a.writesDevice) : TouchesOnly [] l := fun a ha => by
  obtain ⟨pa, bs, marks, rfl⟩ := h a ha
  simp [Act.touches]

theorem clearFlags_touches : TouchesOnly [.seqs] (clearFlags q) := by simp [clearFlags, Act.touches]

theorem stopCore_touches : TouchesOnly [.seqs] (stopCore c) := by simp [stopCore, Act.touches]

theorem loadImages_touches {y : Kernel} : TouchesOnly [] (loadImages s c fn y) := by
  simp only [loadImages, touchesOnly_append, touchesOnly_map, touchesOnly_flatMap, Act.touches]
  refine ⟨⟨⟨⟨fun a ha => ?_, ?_⟩, ?_⟩, ?_⟩, fun d _ => ?_⟩
  · obtain ⟨i, hi, rfl⟩ := List.mem_mapIdx.mp ha
    simp [Act.touches]
  · simp
  · simp
  · simp
  · split
    · simp [Act.touches]
    · simp [Act.touches]
    · split
      · rename_i h
        exact touchesOnly_of_writesDevice (writeDevice_writes h)
      · simp

/-- The start of a launch is fixed in the work in progress. -/
theorem fixStart_touches : TouchesOnly [.work] (fixStart s c n) := by
  rw [fixStart]
  split
  · simp
  · simp [Act.touches]

/-! The module's registers after a record (R282). -/

/-- What no ring and no message belongs to is as it was after a completion record. -/
theorem complete_chip {β : Type} {f : Chip → β} {v : BitVec 128} (hring : ∀ h rings, f { h with rings := rings } = f h)
    (hraise : ∀ h fn vec, f (Chip.raise h fn vec) = f h) : f (applyActs (complete s fn v) t).chip = f t.chip := by
  have fold : ∀ (es : List (Nat × BitVec 128)) (h : Chip), f (es.foldl (fun h _ => h.raise fn 0) h) = f h := by
    intro es
    induction es with
    | nil => exact fun h => rfl
    | cons e es ih => exact fun h => by rw [List.foldl_cons, ih, hraise]
  refine applyActs_keeps (p := fun t => f t.chip) (fun a ha u => ?_) t
  simp only [complete, drainRecords, List.mem_append, List.mem_map, List.mem_singleton] at ha
  obtain ⟨e, -, rfl⟩ | rfl := ha
  · exact congrArg f setMem_chip
  · simp only [applyAct_chip, apply_ite f, fold, hring, ite_self]

theorem raise_quiesces {h : Chip} {vec : Nat} : (h.raise fn vec).quiesces = h.quiesces := by simp only [Chip.raise, apply_ite Chip.quiesces, ite_self]

theorem complete_log {v : BitVec 128} : (applyActs (complete s fn v) t).chip.log = t.chip.log :=
  complete_chip (f := Chip.log) (fun _ _ => rfl) fun _ _ _ => raise_log _ _ _

theorem complete_quiesces {v : BitVec 128} : (applyActs (complete s fn v) t).chip.quiesces = t.chip.quiesces :=
  complete_chip (f := Chip.quiesces) (fun _ _ => rfl) fun _ _ _ => raise_quiesces

/-! The queues of a core. -/

theorem getD_modifyAt {α : Type} {f : α → α} {xs : List α} {x : α} : (modifyAt n f xs).getD m x = if m = n ∧ n < xs.length then f (xs.getD n x) else xs.getD m x := by
  simp only [modifyAt, List.getD_eq_getElem?_getD, List.getElem?_mapIdx]
  by_cases hlen : m < xs.length
  · rw [List.getElem?_eq_getElem hlen]
    by_cases hm : m = n
    · subst hm
      simp [hlen]
    · simp [hm]
  · rw [List.getElem?_eq_none (Nat.le_of_not_lt hlen)]
    have : ¬ (m = n ∧ n < xs.length) := by omega
    simp [this]

theorem length_modifyAt {α : Type} {f : α → α} {xs : List α} : (modifyAt n f xs).length = xs.length := by simp [modifyAt]

theorem queueOf_core_same {f : Core → Core} (ht : Canonical t) : (applyAct (.core c f) t).queueOf c n = (f (t.coreOf c)).queues.getD n {} := by
  rw [State.queueOf, coreOf_core_same ht.cores]

theorem queueOf_core_other {f : Core → Core} (hd : d ≠ c) : (applyAct (.core c f) t).queueOf d n = t.queueOf d n := by
  rw [State.queueOf, coreOf_core_other hd, State.queueOf]

theorem queueOf_modQueue {f : Queue → Queue} (ht : Canonical t) : (applyAct (modQueue c n f) t).queueOf d m =
    if d = c ∧ m = n ∧ n < (t.coreOf c).queues.length then f (t.queueOf c n) else t.queueOf d m := by
  by_cases hd : d = c
  · subst hd
    rw [modQueue, queueOf_core_same ht, getD_modifyAt]
    simp only [true_and]
    rfl
  · rw [modQueue, queueOf_core_other hd, if_neg fun h => hd h.1]

/-- A queue that is not as after reset is one of its core's. -/
theorem lt_of_queueOf_ne (h : s.queueOf c n ≠ {}) : n < (s.coreOf c).queues.length := by
  by_contra hn
  exact h (List.getD_eq_default _ _ (Nat.le_of_not_lt hn))

theorem performs_next {l : List Act} : performs l s = .next (applyAct bump (applyActs l s)) := by rw [performs, applyActs_bump]

end Sys2Proof.Machine
end

section
/-! PROOFS. What every micro-operation of a list keeps of a sequencer or a core, the arbiter's grants (13 R286), and the end of a launch on a core (R291). -/

namespace Sys2Proof.Machine

variable {s t : State} {l : List Act} {ps : List StatePart} {c d n m q r i : Nat} {a : Act} {P : Seq → Prop} {Q : Core → Prop}

/-! Properties of one sequencer, and of one core. -/

/-- A micro-operation keeps a property of a sequencer, whichever one it is. -/
def Act.keepsSeq (P : Seq → Prop) (a : Act) : Prop := (∃ r f, a = .seq r f ∧ ∀ y, P y → P (f y)) ∨ StatePart.seqs ∉ a.touches

/-- A micro-operation keeps a property of a core, whichever one it is. -/
def Act.keepsCore (Q : Core → Prop) (a : Act) : Prop := (∃ e f, a = .core e f ∧ ∀ y, Q y → Q (f y)) ∨ StatePart.cores ∉ a.touches

theorem keepsSeq_seq {f : Seq → Seq} (h : ∀ y, P y → P (f y)) : (Act.seq r f).keepsSeq P := .inl ⟨r, f, rfl, h⟩

theorem keepsCore_core {f : Core → Core} (h : ∀ y, Q y → Q (f y)) : (Act.core d f).keepsCore Q := .inl ⟨d, f, rfl, h⟩

theorem TouchesOnly.keepsSeq (h : TouchesOnly ps l) (hp : StatePart.seqs ∉ ps := by decide) : ∀ a ∈ l, a.keepsSeq P := fun _ ha => .inr (h.not_mem hp ha)

theorem TouchesOnly.keepsCore (h : TouchesOnly ps l) (hp : StatePart.cores ∉ ps := by decide) : ∀ a ∈ l, a.keepsCore Q := fun _ ha => .inr (h.not_mem hp ha)

theorem Act.keepsSeq.applyAct (h : a.keepsSeq P) (ht : Canonical t) (hP : P (t.seqOf q)) : P ((applyAct a t).seqOf q) := by
  obtain ⟨r, f, rfl, hf⟩ | hr := h
  · by_cases hq : q = r
    · subst hq
      rw [seqOf_seq_same ht.seqs]
      exact hf _ hP
    · rwa [seqOf_seq_other hq]
  · rwa [State.seqOf, (applyAct_untouched a t).seqs hr]

theorem Act.keepsCore.applyAct (h : a.keepsCore Q) (ht : Canonical t) (hQ : Q (t.coreOf c)) : Q ((applyAct a t).coreOf c) := by
  obtain ⟨e, f, rfl, hf⟩ | hr := h
  · by_cases hc : c = e
    · subst hc
      rw [coreOf_core_same ht.cores]
      exact hf _ hQ
    · rwa [coreOf_core_other hc]
  · rwa [State.coreOf, (applyAct_untouched a t).cores hr]

section Lists

variable (hs : Canonical s)

include hs

theorem seqOf_holds (hP : P (s.seqOf q)) (keep : ∀ a ∈ l, a.keepsSeq P) : P ((applyActs l s).seqOf q) :=
  applyActs_holds (P := fun t => P (t.seqOf q)) hs hP fun a ha _ ht => (keep a ha).applyAct ht

theorem seqOf_holds_of_mem {f : Seq → Seq} (hf : .seq q f ∈ l) (own : ∀ y, P (f y)) (keep : ∀ a ∈ l, a.keepsSeq P) : P ((applyActs l s).seqOf q) :=
  applyActs_holds_of_mem (P := fun t => P (t.seqOf q)) hs hf (fun t ht => by rw [seqOf_seq_same ht.seqs]; exact own _) fun a ha _ ht => (keep a ha).applyAct ht

theorem coreOf_holds (hQ : Q (s.coreOf c)) (keep : ∀ a ∈ l, a.keepsCore Q) : Q ((applyActs l s).coreOf c) :=
  applyActs_holds (P := fun t => Q (t.coreOf c)) hs hQ fun a ha _ ht => (keep a ha).applyAct ht

theorem coreOf_holds_of_mem {f : Core → Core} (hf : .core c f ∈ l) (own : ∀ y, Q (f y)) (keep : ∀ a ∈ l, a.keepsCore Q) : Q ((applyActs l s).coreOf c) :=
  applyActs_holds_of_mem (P := fun t => Q (t.coreOf c)) hs hf (fun t ht => by rw [coreOf_core_same ht.cores]; exact own _)
    fun a ha _ ht => (keep a ha).applyAct ht

end Lists

/-- One change of each of a core's four sequencers, the same on all of them. -/
theorem seqOf_four {f : Seq → Seq} (hs : Canonical s) (hi : i < 4) :
    (applyActs ((List.range 4).map fun i => Act.seq (4 * c + i) f) s).seqOf (4 * c + i) = f (s.seqOf (4 * c + i)) := by
  have other : ∀ j, j ≠ i → ∀ u, (applyAct (.seq (4 * c + j) f) u).seqOf (4 * c + i) = u.seqOf (4 * c + i) := fun j hj u => seqOf_seq_other (by omega)
  have same : ∀ u, Canonical u → (applyAct (.seq (4 * c + i) f) u).seqOf (4 * c + i) = f (u.seqOf (4 * c + i)) := fun u hu => seqOf_seq_same hu.seqs
  have hfour : (List.range 4).map (fun i => Act.seq (4 * c + i) f) =
    [.seq (4 * c + 0) f, .seq (4 * c + 1) f, .seq (4 * c + 2) f, .seq (4 * c + 3) f] := rfl
  rw [hfour]
  have c1 := applyAct_canonical hs (.seq (4 * c + 0) f)
  have c2 := applyAct_canonical c1 (.seq (4 * c + 1) f)
  have c3 := applyAct_canonical c2 (.seq (4 * c + 2) f)
  simp only [applyActs_cons, applyActs_nil]
  obtain rfl | rfl | rfl | rfl : i = 0 ∨ i = 1 ∨ i = 2 ∨ i = 3 := by omega
  · rw [other 3 (by decide), other 2 (by decide), other 1 (by decide), same _ hs]
  · rw [other 3 (by decide), other 2 (by decide), same _ c1, other 0 (by decide)]
  · rw [other 3 (by decide), same _ c2, other 1 (by decide), other 0 (by decide)]
  · rw [same _ c3, other 2 (by decide), other 1 (by decide), other 0 (by decide)]

/-! The arbiter's grants (R286). -/

/-- The fixing of a launch's start cycle. -/
def setStart (id at_ : Nat) : Act := .work (fun w => { w with launches := w.launches.map (fun k => if k.id = id then { k with startAt := some at_ } else k) })

theorem fixStart_cases : fixStart s c n = [] ∨ ∃ id at_, fixStart s c n = [setStart id at_] := by
  rw [fixStart]
  split
  · exact .inl rfl
  · dsimp only
    split
    · split
      · exact .inl rfl
      · exact .inr ⟨_, _, rfl⟩
    · split
      · exact .inr ⟨_, _, rfl⟩
      · exact .inl rfl

/-- A queue as it is granted its core. -/
def Queue.granted (q : Queue) : Queue := { q with pass := 0, ownedSlice := true }

/-- What a decision changes of a core: the queue granted, and the fields that say which queue owns it and until when. -/
inductive DecisionAct (c : Nat) : Act → Prop
  | grant (n : Nat) : DecisionAct c (modQueue c n Queue.granted)
  | core (f : Core → Core) (h : ∀ y, ∃ owner switching stretched stretchFor idle, f y = { y with
      owner := owner, switching := switching, stretched := stretched, stretchFor := stretchFor, idleUntil := idle }) : DecisionAct c (.core c f)
  | start (id at_ : Nat) : DecisionAct c (setStart id at_)
  | chip (f : Chip → Chip) : DecisionAct c (.chip f)

theorem fixStart_kinds (ha : a ∈ fixStart s d n) : DecisionAct c a := by
  obtain h | ⟨id, at_, h⟩ := fixStart_cases (s := s) (c := d) (n := n) <;> rw [h] at ha
  · exact absurd ha List.not_mem_nil
  · obtain rfl := List.mem_singleton.mp ha
    exact .start _ _

theorem grantQueue_kinds (ha : a ∈ grantQueue s c n) : DecisionAct c a := by
  rw [grantQueue] at ha
  split at ha
  · obtain rfl := List.mem_singleton.mp ha
    exact .grant n
  · split at ha
    · simp only [List.mem_cons, List.not_mem_nil, or_false] at ha
      obtain rfl | rfl := ha
      · exact .grant n
      · exact .core _ fun _ => ⟨_, _, _, _, _, rfl⟩
    · simp only [List.mem_append, List.mem_cons, List.not_mem_nil, or_false] at ha
      obtain (rfl | rfl) | ha := ha
      · exact .grant n
      · exact .core _ fun _ => ⟨_, _, _, _, _, rfl⟩
      · exact fixStart_kinds ha

theorem decide'_kinds {e : Decision} (ha : a ∈ decide' s c e) : DecisionAct c a := by
  cases e with
  | grant n => exact grantQueue_kinds ha
  | long n =>
    simp only [decide', List.mem_append, List.mem_cons, List.not_mem_nil, or_false] at ha
    obtain ha | rfl | rfl := ha
    · exact grantQueue_kinds ha
    · exact .core _ fun _ => ⟨_, _, _, _, _, rfl⟩
    · exact .chip _
  | idle =>
    obtain rfl := List.mem_singleton.mp ha
    exact .core _ fun _ => ⟨_, _, _, _, _, rfl⟩

/-- A decision keeps what depends neither on the fields that it changes of a core nor on the grant of a queue. -/
theorem DecisionAct.keepsCore (h : DecisionAct c a) (hgrant : ∀ n y, Q y → Q { y with queues := modifyAt n Queue.granted y.queues })
    (hfields : ∀ y owner switching stretched stretchFor idle, Q y → Q { y with
      owner := owner, switching := switching, stretched := stretched, stretchFor := stretchFor, idleUntil := idle }) : a.keepsCore Q := by
  cases h with
  | grant n => exact keepsCore_core (hgrant n)
  | core f hf =>
    refine keepsCore_core fun y hy => ?_
    obtain ⟨o, w, st, sf, u, he⟩ := hf y
    rw [he]
    exact hfields _ _ _ _ _ _ hy
  | start => exact .inr (by simp [setStart, Act.touches])
  | chip => exact .inr (by simp [Act.touches])

/-- The fixing of a start brings back no core of a launch. -/
theorem DecisionAct.keeps_ended {k : Launch} (h : DecisionAct c a) (hP : Ended k d t.work.launches) : Ended k d (applyAct a t).work.launches := by
  cases h with
  | start id at_ =>
    intro x hx hid
    obtain ⟨y, hy, rfl⟩ := List.mem_map.mp hx
    by_cases hyid : y.id = id
    · rw [if_pos hyid] at hid ⊢
      exact hP y hy hid
    · rw [if_neg hyid] at hid ⊢
      exact hP y hy hid
  | _ => exact hP

/-! The end of a launch on a core (R291). -/

/-- A queue whose launch has been ended. -/
def Queue.finished (q : Queue) : Queue := { q with ended := true, grace := none, tasks := [] }

/-- A core on which the launch of queue n has been ended. -/
def Core.finished (y : Core) (n : Nat) : Core :=
  { y with queues := modifyAt n Queue.finished y.queues, owner := if y.owner = some n then none else y.owner }

/-- The launches of the work without core c among those on which one of them is still to end. -/
def endOn (k : Launch) (c : Nat) (ks : List Launch) : List Launch :=
  ks.map (fun y => if y.id = k.id then { y with remaining := y.remaining.filter (fun d => d ≠ c) } else y)

/-- The sequencers of a core that a launch's end stops: those of the launch that owns the core. -/
def endStops (s : State) (c n : Nat) : List Act :=
  if (s.coreOf c).owner = some n then (List.range 4).map (fun i => Act.seq (4 * c + i) (fun q => { q with run := .idle, wait := .none, more := [] })) else []

theorem endStops_touches : TouchesOnly [.seqs] (endStops s c n) := by simp [endStops, Act.touches]

section Ends

variable {k : Launch} {status event info : Nat} (hl : s.launchOf c n = some k)

include hl

/-- The end of a launch on a core: the sequencers stop, the launch's part ends, its queue and its core are freed; then come the record and the event. -/
theorem endLaunch_shape : ∃ w h rest, endLaunch s c n status event info = endStops s c n ++ .work w :: .chip h :: modQueue c n Queue.finished ::
      .core c (fun x => if (s.coreOf c).owner = some n then { x with owner := none } else x) :: rest ∧
    (∀ u, (w u).launches = endOn k c u.launches) ∧ (∀ u, (h u).log = u.log) ∧ TouchesOnly [.chip] rest ∧
    ∀ u, (applyActs rest u).chip.log = (logInsert u.chip.log ⟨s.gtime, event, k.fn, c, 0, info⟩).drop (u.chip.log.length + 1 - 4096) := by
  have hask : ∀ a ∈ (if k.fn = 0 then [] else askHost s 7), ∃ f, a = .chip f ∧ ∀ u, (f u).log = u.log := by
    intro a ha
    split at ha
    · exact absurd ha List.not_mem_nil
    · rw [askHost] at ha
      split at ha
      · exact ⟨_, List.mem_singleton.mp ha, fun _ => raise_log _ _ _⟩
      · exact absurd ha List.not_mem_nil
  have hlog : ∀ u, (applyActs (if k.fn = 0 then [] else askHost s 7) u).chip.log = u.chip.log := fun u => by
    refine applyActs_keeps (p := fun u => u.chip.log) (fun a ha u => ?_) u
    obtain ⟨f, rfl, hf⟩ := hask a ha
    exact hf _
  rw [endLaunch, hl]
  simp only [List.append_assoc, List.cons_append, List.nil_append]
  refine ⟨_, _, _, rfl, fun _ => rfl, fun _ => rfl, ?_, fun u => ?_⟩
  · rw [touchesOnly_append, touchesOnly_cons]
    refine ⟨complete_touches, by simp [post_touches], fun a ha => ?_⟩
    obtain ⟨f, rfl, -⟩ := hask a ha
    simp [Act.touches]
  · rw [applyActs_append, applyActs_cons, hlog, applyAct_post_log, complete_log]

theorem endLaunch_launches : (applyActs (endLaunch s c n status event info) t).work.launches = endOn k c t.work.launches := by
  obtain ⟨w, h, rest, heq, hw, -, hrest, -⟩ := endLaunch_shape (status := status) (event := event) (info := info) hl
  rw [heq, applyActs_append]
  simp only [applyActs_cons]
  rw [hrest.work]
  exact (hw _).trans (by rw [endStops_touches.work])

theorem endLaunch_log : (applyActs (endLaunch s c n status event info) t).chip.log =
    (logInsert t.chip.log ⟨s.gtime, event, k.fn, c, 0, info⟩).drop (t.chip.log.length + 1 - 4096) := by
  obtain ⟨w, h, rest, heq, -, hh, -, hlog⟩ := endLaunch_shape (status := status) (event := event) (info := info) hl
  rw [heq, applyActs_append]
  simp only [applyActs_cons]
  have hbefore : (h (applyActs (endStops s c n) t).chip).log = t.chip.log := by rw [hh, endStops_touches.chip]
  rw [hlog, ← hbefore]
  rfl

theorem endLaunch_coreOf (hs : Canonical s) : (applyActs (endLaunch s c n status event info) s).coreOf c = (s.coreOf c).finished n := by
  obtain ⟨w, h, rest, heq, -, -, hrest, -⟩ := endLaunch_shape (status := status) (event := event) (info := info) hl
  have hu := applyActs_canonical hs (endStops s c n)
  have hcore : (applyActs (endStops s c n) s).coreOf c = s.coreOf c := endStops_touches.coreOf
  rw [heq, applyActs_append]
  simp only [applyActs_cons]
  rw [hrest.coreOf, coreOf_core_same (applyAct_canonical (applyAct_canonical (applyAct_canonical hu _) _) _).cores, modQueue,
    coreOf_core_same (applyAct_canonical (applyAct_canonical hu _) _).cores]
  rw [← hcore]
  rw [Core.finished]
  split <;> rfl

theorem endLaunch_coreOf_other (hd : d ≠ c) : (applyActs (endLaunch s c n status event info) t).coreOf d = t.coreOf d := by
  obtain ⟨w, h, rest, heq, -, -, hrest, -⟩ := endLaunch_shape (status := status) (event := event) (info := info) hl
  rw [heq, applyActs_append]
  simp only [applyActs_cons]
  rw [hrest.coreOf, coreOf_core_other hd, modQueue, coreOf_core_other hd]
  exact endStops_touches.coreOf

/-- The sequencers of the core stand idle, if the launch owned it. -/
theorem endLaunch_seqOf (hs : Canonical s) (ho : (s.coreOf c).owner = some n) (hi : i < 4) :
    ((applyActs (endLaunch s c n status event info) s).seqOf (4 * c + i)).run = .idle := by
  obtain ⟨w, h, rest, heq, -, -, hrest, -⟩ := endLaunch_shape (status := status) (event := event) (info := info) hl
  have hfour := seqOf_four (c := c) (f := fun q => { q with run := .idle, wait := .none, more := [] }) hs hi
  rw [heq, applyActs_append, endStops, if_pos ho]
  simp only [applyActs_cons]
  rw [hrest.seqOf]
  exact congrArg Seq.run hfour

end Ends

end Sys2Proof.Machine
end

section
/-! PROOFS. A launch starts on a core, and a task (13 R283, R289, R290). -/

namespace Sys2Proof.Machine

variable {s t : State} {l : Launch} {c q i k : Nat} {a : Act}

/-! The start of a launch. -/

theorem exec_launchStart (h : s.work.launches.find? (fun k => k.id = l.id) = some l) : exec (.launchStart l.id c) s = performs (launchActs s l c) s := by
  have hexec : exec (.launchStart l.id c) s =
      performs (match s.work.launches.find? (fun k => k.id = l.id) with | some k => launchActs s k c | none => []) s := rfl
  rw [hexec, h]

/-- The state of a sequencer as a launch starts. -/
def launchSeq (l : Launch) (i : Nat) : Seq := { run := if i = 0 && !l.task then .run else .idle }

/-- What a launch clears of a core before it sets its own state and loads its images. -/
def launchClears (l : Launch) (c : Nat) : List Act :=
  [dropTiles c, .clearCore c] ++ (List.range 4).flatMap (fun i => [Act.clearSeq (4 * c + i), .seq (4 * c + i) (fun _ => launchSeq l i)])

theorem launchActs_ready (h : launchReady s l c = true) : launchActs s l c = launchClears l c ++ .core c (fun y => y.launched l (kernelFor s l c)) ::
    modQueue c l.queue (fun q => { q with started := true }) :: loadImages s c l.fn (kernelFor s l c) := by
  rw [launchActs, h]
  simp only [launchClears, launchSeq, List.append_assoc, List.cons_append, List.nil_append]
  rfl

/-- The micro-operations of a launch's start: they clear, set a sequencer of the core to its launch state, or load. -/
inductive LaunchAct (l : Launch) (c : Nat) : Act → Prop
  | work (f : Work → Work) : LaunchAct l c (.work f)
  | clearCore (d : Nat) : LaunchAct l c (.clearCore d)
  | clearSeq (q : Nat) : LaunchAct l c (.clearSeq q)
  | seq (i : Nat) : LaunchAct l c (.seq (4 * c + i) (fun _ => launchSeq l i))
  | core (d : Nat) (f : Core → Core) : LaunchAct l c (.core d f)
  | dict (d n : Nat) (v : BundleWord) : LaunchAct l c (.dict d n v)
  | ucode (d n : Nat) (v : Word) : LaunchAct l c (.ucode d n v)
  | routine (d n : Nat) (v : Word) : LaunchAct l c (.routine d n v)
  | cht (d n : Nat) (v : BitVec 128) : LaunchAct l c (.cht d n v)
  | write (h : Home) (b : Nat) (bs : List Byte) (ps : List Bool) : LaunchAct l c (.write h b bs ps)

theorem loadImages_kinds {y : Kernel} {fn : Nat} (ha : a ∈ loadImages s c fn y) : LaunchAct l c a := by
  simp only [loadImages, List.mem_append, List.mem_map, List.mem_flatMap, List.mem_mapIdx] at ha
  obtain (((⟨i, -, rfl⟩ | ⟨e, -, rfl⟩) | ⟨e, -, rfl⟩) | ⟨e, -, rfl⟩) | ⟨d, -, ha⟩ := ha
  · exact .dict _ _ _
  · exact .ucode _ _ _
  · exact .routine _ _ _
  · exact .cht _ _ _
  · split at ha
    · obtain rfl := List.mem_singleton.mp ha
      exact .write _ _ _ _
    · obtain rfl := List.mem_singleton.mp ha
      exact .write _ _ _ _
    · split at ha
      · rename_i hw
        obtain ⟨pa, bs, marks, rfl⟩ := writeDevice_writes hw a ha
        exact .write _ _ _ _
      · exact absurd ha List.not_mem_nil

theorem launchActs_kinds (h : launchReady s l c = true) (ha : a ∈ launchActs s l c) : LaunchAct l c a := by
  simp only [launchActs_ready h, launchClears, List.mem_append, List.mem_cons, List.mem_flatMap, List.not_mem_nil, or_false] at ha
  obtain ((rfl | rfl) | ⟨i, -, rfl | rfl⟩) | rfl | rfl | ha := ha
  · exact .work _
  · exact .clearCore _
  · exact .clearSeq _
  · exact .seq _
  · exact .core _ _
  · exact .core _ _
  · exact loadImages_kinds ha

theorem LaunchAct.keeps_filesClear (h : LaunchAct l c a) (hP : FilesClear q t) : FilesClear q (applyAct a t) := by
  obtain ⟨h1, h2, h3, h4⟩ := hP
  cases h with
  | clearSeq r =>
    exact ⟨fun k hk => SMap.get_clear_default (h1 k hk), fun k hk => SMap.get_clear_default (h2 k hk),
      fun k hk => SMap.get_clear_default (h3 k hk), fun k hk => SMap.get_clear_default (h4 k hk)⟩
  | write =>
    rw [applyAct_write]
    exact ⟨by simpa using h1, by simpa using h2, by simpa using h3, by simpa using h4⟩
  | _ => exact ⟨h1, h2, h3, h4⟩

/-- The rows and tags of core c read as after reset. -/
def RowsClear (c : Nat) (t : State) : Prop := (∀ n, n < 512 → t.rowOf c n = {}) ∧ ∀ b, b < 1024 → SMap.get 0 t.tags (1024 * c + b) = 0

theorem LaunchAct.keeps_rowsClear {d : Nat} (h : LaunchAct l c a) (hP : RowsClear d t) : RowsClear d (applyAct a t) := by
  obtain ⟨h1, h2⟩ := hP
  cases h with
  | clearCore e => exact ⟨fun n hn => SMap.get_clear_default (h1 n hn), fun b hb => SMap.get_clear_default (h2 b hb)⟩
  | write =>
    rw [applyAct_write]
    exact ⟨fun n hn => by simpa [State.rowOf] using h1 n hn, by simpa using h2⟩
  | _ => exact ⟨h1, h2⟩

/-- A register of one of a core's sequencers, numbered over all four. -/
theorem FilesClear.scalars_of_core (h : ∀ i, i < 4 → FilesClear (4 * c + i) t) (hk : k < 256) : SMap.get {} t.scalars (256 * c + k) = {} := by
  have := (h (k / 64) (by omega)).scalars (k % 64) (by omega)
  rwa [show 64 * (4 * c + k / 64) + k % 64 = 256 * c + k by omega] at this

theorem FilesClear.masks_of_core (h : ∀ i, i < 4 → FilesClear (4 * c + i) t) (hk : k < 64) : SMap.get {} t.masks (64 * c + k) = {} := by
  have := (h (k / 16) (by omega)).masks (k % 16) (by omega)
  rwa [show 16 * (4 * c + k / 16) + k % 16 = 64 * c + k by omega] at this

theorem FilesClear.glints_of_core (h : ∀ i, i < 4 → FilesClear (4 * c + i) t) (hk : k < 16) : SMap.get {} t.glints (16 * c + k) = {} := by
  have := (h (k / 4) (by omega)).glints (k % 4) (by omega)
  rwa [show 4 * (4 * c + k / 4) + k % 4 = 16 * c + k by omega] at this

section Start

variable (hs : Canonical s) (h : launchReady s l c = true)

include hs h

theorem launchStart_filesClear (hi : i < 4) : FilesClear (4 * c + i) (applyActs (launchActs s l c) s) := by
  refine applyActs_holds_of_mem (b := .clearSeq (4 * c + i)) hs ?_ (fun t _ => clearSeq_filesClear _ t) fun a ha t _ => (launchActs_kinds h ha).keeps_filesClear
  simp only [launchActs_ready h, launchClears, List.mem_append, List.mem_flatMap]
  exact .inl (.inr ⟨i, List.mem_range.mpr hi, List.mem_cons_self⟩)

theorem launchStart_rowsClear : RowsClear c (applyActs (launchActs s l c) s) := by
  refine applyActs_holds_of_mem (b := .clearCore c) hs ?_ (fun t _ => ⟨(clearCore_storesClear c t).rows, (clearCore_storesClear c t).tags⟩)
    fun a ha t _ => (launchActs_kinds h ha).keeps_rowsClear
  simp only [launchActs_ready h, launchClears, List.mem_append]
  exact .inl (.inl (.tail _ (.head _)))

theorem launchStart_seqOf (hi : i < 4) : (applyActs (launchActs s l c) s).seqOf (4 * c + i) = launchSeq l i := by
  refine applyActs_holds_of_mem (P := fun t => t.seqOf (4 * c + i) = launchSeq l i) (b := .seq (4 * c + i) fun _ => launchSeq l i) hs ?_
    (fun t ht => seqOf_seq_same ht.seqs) fun a ha t ht hP => ?_
  · simp only [launchActs_ready h, launchClears, List.mem_append, List.mem_flatMap]
    exact .inl (.inr ⟨i, List.mem_range.mpr hi, .tail _ (.head _)⟩)
  · cases launchActs_kinds h ha with
    | seq j =>
      by_cases hj : i = j
      · subst hj
        exact seqOf_seq_same ht.seqs
      · rw [seqOf_seq_other (by omega), hP]
    | write => rwa [applyAct_write, State.seqOf, setMem_seqs]
    | _ => exact hP

/-- The core with the launch's state, its queue started. -/
theorem launchStart_coreOf : (applyActs (launchActs s l c) s).coreOf c = { (s.coreOf c).launched l (kernelFor s l c) with
    queues := modifyAt l.queue (fun q => { q with started := true }) (s.coreOf c).queues } := by
  have hclears : TouchesOnly [.seqs, .scalars, .rows, .work] (launchClears l c) := by simp [launchClears, dropTiles, Act.touches]
  have hu := applyActs_canonical hs (launchClears l c)
  rw [launchActs_ready h, applyActs_append, applyActs_cons, applyActs_cons, loadImages_touches.coreOf, modQueue,
    coreOf_core_same (applyAct_canonical hu _).cores, coreOf_core_same hu.cores, hclears.coreOf]
  rfl

end Start

/-! The start of a task. -/

theorem exec_taskStart : exec (.taskStart c) s = performs (taskActs s c) s := rfl

/-- What a task's start does to the four sequencers of its core: FMT and the flags are as at launch. -/
def taskFlags (c : Nat) : List Act :=
  (List.range 4).flatMap (fun k => .seq (4 * c + k) (fun z => { z with fmt := Config.fmtReset }) :: clearFlags (4 * c + k))

/-- What sets a task going: s1 and s2, sequencer 0 at the entry, and the queue's own counts. -/
def taskRuns (l : Launch) (c i : Nat) (bs : List Byte) : List Act :=
  [.scalar (4 * c) 1 ⟨BitVec.ofNat 64 i, false⟩, .scalar (4 * c) 2 ⟨BitVec.ofNat 64 (leValue (bs.drop 8)), false⟩,
    .seq (4 * c) (fun z => { z with run := .run, wait := .none, pc := leValue (bs.take 4) }),
    modQueue c l.queue (fun q => { q with tasks := q.tasks.drop 1, sinceYield := 0, overrun := false })]

theorem taskFlags_touches : TouchesOnly [.seqs] (taskFlags c) := by
  simp only [taskFlags, touchesOnly_flatMap, touchesOnly_cons]
  exact fun k _ => ⟨by simp [Act.touches], clearFlags_touches⟩

section Task

variable {bs : List Byte} (htask : taskReady s c = some (l, i))
  (hread : readDevice s c l.fn (l.taskList + 16 * i) 16 (s.choice 0) = .ok (bs, List.replicate 16 false))

include htask hread

/-- A task whose entry reads without poison starts at it. -/
theorem taskActs_clean : taskActs s c = deviceChecks s c l.fn (l.taskList + 16 * i) 16 (s.choice 0) ++ taskFlags c ++ taskRuns l c i bs := by
  have hhead : ((List.replicate 16 false).take 8).any (fun p => p) = false := rfl
  have htail : ((List.replicate 16 false).drop 8).any (fun p => p) = false := rfl
  simp only [taskActs, htask, hread, hhead, htail, Bool.false_eq_true, if_false]
  rfl

/-- Sequencer 0 runs at the task's entry. -/
theorem taskStart_seqOf (hs : Canonical s) : ((applyActs (taskActs s c) s).seqOf (4 * c)).run = .run ∧
    ((applyActs (taskActs s c) s).seqOf (4 * c)).pc = leValue (bs.take 4) := by
  have hu := applyActs_canonical hs (deviceChecks s c l.fn (l.taskList + 16 * i) 16 (s.choice 0) ++ taskFlags c)
  have hseq := seqOf_seq_same (q := 4 * c) (f := fun z => { z with run := .run, wait := .none, pc := leValue (bs.take 4) })
    (applyAct_canonical (applyAct_canonical hu (.scalar (4 * c) 1 ⟨BitVec.ofNat 64 i, false⟩)) (.scalar (4 * c) 2 ⟨BitVec.ofNat 64 (leValue (bs.drop 8)), false⟩)).seqs
  rw [taskActs_clean htask hread, applyActs_append]
  exact ⟨congrArg Seq.run hseq, congrArg Seq.pc hseq⟩

theorem taskStart_fmt (hs : Canonical s) (hk : k < 4) : ((applyActs (taskActs s c) s).seqOf (4 * c + k)).fmt = 8 := by
  refine seqOf_holds_of_mem (P := fun z => z.fmt = 8) (f := fun z => { z with fmt := Config.fmtReset }) hs ?_ (fun _ => rfl) ?_ <;>
    rw [taskActs_clean htask hread]
  · simp only [taskFlags, List.mem_append, List.mem_flatMap]
    exact .inl (.inr ⟨k, List.mem_range.mpr hk, List.mem_cons_self⟩)
  · simp only [taskRuns, List.forall_mem_append, List.forall_mem_cons]
    refine ⟨⟨deviceChecks_touches.keepsSeq, fun a ha => ?_⟩, ?_, ?_, keepsSeq_seq fun _ h => h, ?_, List.forall_mem_nil _⟩
    · obtain ⟨j, -, ha⟩ := List.mem_flatMap.mp ha
      obtain rfl | ha := List.mem_cons.mp ha
      · exact keepsSeq_seq fun _ _ => rfl
      · obtain rfl | ha := List.mem_cons.mp ha
        · exact keepsSeq_seq fun _ h => h
        · obtain ⟨n, -, rfl⟩ := List.mem_map.mp ha
          exact .inr (by simp [Act.touches])
    all_goals exact .inr (by simp [modQueue, Act.touches])

/-- Of the scalars only s1 and s2 of sequencer 0 change: the task's number and its argument. -/
theorem taskStart_scalars (hs : Canonical s) (r : Nat) : SMap.get {} (applyActs (taskActs s c) s).scalars r =
    if r = 256 * c + 1 then ⟨BitVec.ofNat 64 i, false⟩ else if r = 256 * c + 2 then ⟨BitVec.ofNat 64 (leValue (bs.drop 8)), false⟩ else SMap.get {} s.scalars r := by
  have hfirst : TouchesOnly [.chip, .seqs] (deviceChecks s c l.fn (l.taskList + 16 * i) 16 (s.choice 0) ++ taskFlags c) :=
    touchesOnly_append.mpr ⟨deviceChecks_touches.mono (by simp), taskFlags_touches.mono (by simp)⟩
  have hu := applyActs_canonical hs (deviceChecks s c l.fn (l.taskList + 16 * i) 16 (s.choice 0) ++ taskFlags c)
  have hlast : TouchesOnly [.seqs, .cores] ((taskRuns l c i bs).drop 2) := by simp [taskRuns, modQueue, Act.touches]
  rw [taskActs_clean htask hread, applyActs_append]
  have hruns : taskRuns l c i bs = .scalar (4 * c) 1 ⟨BitVec.ofNat 64 i, false⟩ :: .scalar (4 * c) 2 ⟨BitVec.ofNat 64 (leValue (bs.drop 8)), false⟩ ::
    (taskRuns l c i bs).drop 2 := rfl
  rw [hruns, applyActs_cons, applyActs_cons, hlast.scalars, scalars_scalar (applyAct_canonical hu _), scalars_scalar hu, hfirst.scalars]
  have hone : (r = 64 * (4 * c) + 1 ∧ 1 ≠ 0) ↔ r = 256 * c + 1 := by omega
  have htwo : (r = 64 * (4 * c) + 2 ∧ 2 ≠ 0) ↔ r = 256 * c + 2 := by omega
  simp only [hone, htwo]
  by_cases h1 : r = 256 * c + 1
  · rw [if_neg (by omega), if_pos h1, if_pos h1]
  · simp only [h1, if_false]

end Task

end Sys2Proof.Machine
end

section
/-! PROOFS. A launch leaves its queues, slices end, a free core takes the arbiter's queue (13 R284, R286, R380, R381). -/

namespace Sys2Proof.Machine

variable {s t : State} {l : Launch} {c d n m q i k : Nat} {a : Act}

/-! A launch done on its cores. -/

theorem exec_launchDone (h : s.work.launches.find? (fun k => k.id = l.id) = some l) : exec (.launchDone l.id) s = performs (launchDoneActs s l) s := by
  have hexec : exec (.launchDone l.id) s =
      performs (match s.work.launches.find? (fun k => k.id = l.id) with | some k => launchDoneActs s k | none => []) s := rfl
  rw [hexec, h]

/-- The queues of a launch that is done become free, its save areas with them. -/
def freeQueues (l : Launch) : List Act :=
  l.cores.flatMap (fun c => [modQueue c l.queue (fun q => if q.launch = some l.id then q.freed else q), .forget (saveKey c l.queue)])

/-- The work without a launch and its copies. -/
def Work.without (w : Work) (l : Launch) : Work :=
  { w with launches := w.launches.filter (fun k => k.id ≠ l.id), copies := w.copies.filter (fun y => y.launch ≠ some l.id) }

theorem launchDoneActs_eq (h : l.remaining = []) : launchDoneActs s l = freeQueues l ++ .work (fun w => w.without l) ::
    complete s l.fn (completionRecord 0x07 0x01 l.launchId l.pix 0) := by
  rw [launchDoneActs, h]
  simp only [freeQueues, List.isEmpty_nil, Bool.not_true, Bool.false_eq_true, if_false, List.append_assoc, List.cons_append, List.nil_append]
  rfl

theorem launchDone_launches (h : l.remaining = []) {k : Launch} (hk : k ∈ (applyActs (launchDoneActs s l) s).work.launches) : k.id ≠ l.id := by
  rw [launchDoneActs_eq h, applyActs_append, applyActs_cons, complete_touches.work] at hk
  exact of_decide_eq_true (List.mem_filter.mp hk).2

/-- A queue that does not hold the launch. -/
def Core.lacks (l : Launch) (y : Core) : Prop := (y.queues.getD l.queue {}).launch ≠ some l.id

theorem lacks_freed (y : Core) : Core.lacks l { y with queues := modifyAt l.queue (fun q => if q.launch = some l.id then q.freed else q) y.queues } := by
  rw [Core.lacks]
  dsimp only
  rw [getD_modifyAt]
  by_cases hn : l.queue < y.queues.length
  · rw [if_pos ⟨rfl, hn⟩]
    split
    · exact nofun
    · assumption
  · rw [if_neg fun h => hn h.2, List.getD_eq_default _ _ (Nat.le_of_not_lt hn)]
    exact nofun

theorem launchDone_queues (hs : Canonical s) (h : l.remaining = []) (hd : d ∈ l.cores) : ((applyActs (launchDoneActs s l) s).coreOf d).lacks l := by
  have hfree : ∀ e : Nat, (modQueue e l.queue fun q => if q.launch = some l.id then q.freed else q).keepsCore (Core.lacks l) :=
    fun e => keepsCore_core fun y _ => lacks_freed y
  rw [launchDoneActs_eq h]
  refine coreOf_holds_of_mem hs (List.mem_append_left _ (List.mem_flatMap.mpr ⟨d, hd, List.mem_cons_self⟩)) lacks_freed ?_
  simp only [freeQueues, List.forall_mem_append, List.forall_mem_cons]
  refine ⟨fun a ha => ?_, .inr (by simp [Act.touches]), complete_touches.keepsCore⟩
  obtain ⟨e, -, ha⟩ := List.mem_flatMap.mp ha
  simp only [List.mem_cons, List.not_mem_nil, or_false] at ha
  obtain rfl | rfl := ha
  · exact hfree e
  · exact .inr (by simp [Act.touches])

/-! Slices. -/

theorem exec_sliceReset : exec (.sliceReset c) s = performs (sliceResetActs s c) s := rfl

/-- At a slice reset the core begins the next slice, and then may get a decision of the arbiter's, or an idle grant; neither where the core does not wait
for its slice reset. -/
def BeginsSlice (s : State) (c : Nat) (l : List Act) : Prop := ∃ rest, l = .core c (fun y => y.nextSliceAt s.cyc) :: rest ∧
  (decidesAtReset (s.coreOf c) = false → rest = []) ∧ ∀ a ∈ rest, DecisionAct c a

theorem sliceResetActs_begins (h : sliceEnd (s.coreOf c) ≤ s.cyc) : BeginsSlice s c (sliceResetActs s c) := by
  rw [sliceResetActs]
  dsimp only
  rw [if_neg (Nat.not_lt.mpr h)]
  refine iteInduction (motive := BeginsSlice s c) (fun hdecides => ⟨_, rfl, fun hno => ?_, fun a ha => ?_⟩) fun _ => ⟨[], rfl, fun _ => rfl, List.forall_mem_nil _⟩
  · simp [hno] at hdecides
  · obtain ha | ha := List.mem_append.mp ha
    · exact decide'_kinds ha
    · split at ha
      · simp only [List.mem_cons, List.not_mem_nil, or_false] at ha
        obtain rfl | rfl := ha
        · exact .core _ fun _ => ⟨_, _, _, _, _, rfl⟩
        · exact .chip _
      · exact absurd ha List.not_mem_nil

theorem sliceReset_slice (hs : Canonical s) (h : sliceEnd (s.coreOf c) ≤ s.cyc) :
    ((applyActs (sliceResetActs s c) s).coreOf c).sliceStart = s.cyc ∧ ((applyActs (sliceResetActs s c) s).coreOf c).slice = (s.coreOf c).nextSlice := by
  obtain ⟨rest, heq, -, hrest⟩ := sliceResetActs_begins h
  rw [heq, applyActs_cons]
  refine coreOf_holds (Q := fun y => y.sliceStart = s.cyc ∧ y.slice = (s.coreOf c).nextSlice) (applyAct_canonical hs _) ?_
    fun a ha => (hrest a ha).keepsCore (fun _ _ h => h) fun _ _ _ _ _ _ h => h
  rw [coreOf_core_same hs.cores]
  exact ⟨rfl, rfl⟩

theorem aged_pass {x : Queue} {own : Bool} : (x.aged own).pass = if x.ready = true ∧ x.ownedSlice = false then min 16 (x.pass + 1) else x.pass := by
  simp only [Queue.aged, Bool.and_eq_true, Bool.not_eq_true']

theorem nextSliceAt_pass {y : Core} {u : Nat} (hn : n < y.queues.length) : ((y.nextSliceAt u).queues.getD n {}).pass =
    if (y.queues.getD n {}).ready = true ∧ (y.queues.getD n {}).ownedSlice = false then min 16 ((y.queues.getD n {}).pass + 1) else (y.queues.getD n {}).pass := by
  simp only [Core.nextSliceAt]
  rw [List.getD_eq_getElem _ _ (by simpa using hn), List.getD_eq_getElem _ _ hn, List.getElem_mapIdx, aged_pass]
  split <;> rfl

/-- Where no decision falls with the reset, a ready queue that did not own the core gains in PASS, and no other changes it. -/
theorem sliceReset_pass (hs : Canonical s) (h : sliceEnd (s.coreOf c) ≤ s.cyc) (hno : decidesAtReset (s.coreOf c) = false) (hn : n < (s.coreOf c).queues.length) :
    ((applyActs (sliceResetActs s c) s).queueOf c n).pass =
      if (s.queueOf c n).ready = true ∧ (s.queueOf c n).ownedSlice = false then min 16 ((s.queueOf c n).pass + 1) else (s.queueOf c n).pass := by
  obtain ⟨rest, heq, hrest, -⟩ := sliceResetActs_begins h
  rw [heq, hrest hno, applyActs_cons, applyActs_nil, queueOf_core_same hs, nextSliceAt_pass hn]
  rfl

/-! Grants of a core that runs no launch. -/

theorem exec_arbiterIdleGrant : exec (.arbiterIdleGrant c) s = performs (idleGrantActs s c) s := rfl

/-- The freeing of a core whose launch is done there. -/
def freeOwner (c n : Nat) (l : Launch) : List Act :=
  [modQueue c n (fun q => { q with done := true }), .core c (fun y => { y with owner := none, idleUntil := none }),
    .work (fun w => { w with launches := endOn l c w.launches })]

section OwnerDone

variable (hdone : ownerDone s c = some n) (hl : s.launchOf c n = some l)

include hdone

theorem doneOn_of_ownerDone : doneOn s c n = true := by
  rw [ownerDone] at hdone
  split at hdone
  · split at hdone
    · rename_i h
      obtain rfl := Option.some.inj hdone
      exact (Bool.and_eq_true_iff.mp h).2
    · exact absurd hdone nofun
  · exact absurd hdone nofun

theorem lt_of_ownerDone : n < (s.coreOf c).queues.length := by
  have hdone := doneOn_of_ownerDone hdone
  refine lt_of_queueOf_ne fun h => ?_
  have hstarted : (s.queueOf c n).started = true := (Bool.and_eq_true_iff.mp (Bool.and_eq_true_iff.mp hdone).1).1
  rw [h] at hstarted
  exact Bool.false_ne_true hstarted

include hl

/-- The core is freed, then the arbiter may decide. -/
theorem idleGrantActs_done : ∃ rest, idleGrantActs s c = freeOwner c n l ++ rest ∧ ∀ a ∈ rest, DecisionAct c a := by
  have hdecision : idleDecision s c = true := by simp [idleDecision, hdone]
  rw [idleGrantActs, hdecision]
  simp only [Bool.not_true, Bool.false_eq_true, if_false, hdone, hl]
  refine ⟨_, rfl, fun a ha => ?_⟩
  split at ha
  · exact decide'_kinds ha
  · exact absurd ha List.not_mem_nil

theorem idleGrant_done (hs : Canonical s) : ((applyActs (idleGrantActs s c) s).queueOf c n).done = true := by
  obtain ⟨rest, heq, hrest⟩ := idleGrantActs_done hdone hl
  rw [heq, applyActs_append]
  refine coreOf_holds (Q := fun y => (y.queues.getD n {}).done = true) (applyActs_canonical hs _) ?_ fun a ha => (hrest a ha).keepsCore (fun m y h => ?_)
    fun _ _ _ _ _ _ h => h
  · have hq := queueOf_modQueue (d := c) (m := n) (f := fun q => { q with done := true }) (n := n) (c := c) hs
    rw [if_pos ⟨rfl, rfl, lt_of_ownerDone hdone⟩] at hq
    have hcore := queueOf_core_same (c := c) (n := n) (f := fun y => { y with owner := none, idleUntil := none })
      (applyAct_canonical hs (modQueue c n fun q => { q with done := true }))
    exact (congrArg Queue.done (hcore.trans hq))
  · rw [getD_modifyAt]
    split
    · rename_i hm
      obtain ⟨rfl, -⟩ := hm
      exact h
    · exact h

theorem idleGrant_ended (hs : Canonical s) : Ended l c (applyActs (idleGrantActs s c) s).work.launches := by
  obtain ⟨rest, heq, hrest⟩ := idleGrantActs_done hdone hl
  rw [heq, applyActs_append]
  exact applyActs_holds (P := fun t => Ended l c t.work.launches) (applyActs_canonical hs _) (ended_map s.work.launches) fun a ha _ _ => (hrest a ha).keeps_ended

end OwnerDone

/-- The arbiter's choice on a free core takes it at once. -/
theorem idleGrantActs_free (hfree : (s.coreOf c).owner = none) (hswitch : (s.coreOf c).switching = none) (hsettled : settledCore s c = true)
    (hquiet : quiescing s c = false) (hidle : coreIdle (s.coreOf c) s.cyc = false) (hgrant : arbitrate (s.coreOf c) s.cyc none false = .grant n)
    (hnew : (s.queueOf c n).started = false) :
    idleGrantActs s c = modQueue c n Queue.granted :: .core c (fun y => { y with owner := some n }) :: fixStart s c n := by
  have hready : (s.coreOf c).queues.any Queue.ready = true := by
    obtain ⟨q, hq, -⟩ := bestQueue_eq_some (arbitrate_eq_grant.mp hgrant)
    obtain ⟨⟨-, hn, hready⟩, -⟩ := mem_readyQueues.mp (mem_fittingQueues.mp hq).1
    rw [List.getD_eq_getElem _ _ hn] at hready
    exact List.any_eq_true.mpr ⟨_, List.getElem_mem hn, hready⟩
  have hdone : ownerDone s c = none := by rw [ownerDone, hfree]
  have hdecision : idleDecision s c = true := by simp [idleDecision, hdone, hfree, hswitch, hquiet, hidle, hready]
  rw [State.queueOf] at hnew
  rw [idleGrantActs, hdecision]
  simp only [hdone, Bool.not_true, Bool.false_eq_true, if_false, applyActs_nil, hquiet, hready, hgrant, Bool.not_false, Bool.and_self, if_true, List.nil_append, decide',
    grantQueue, hfree, reduceCtorEq, Option.isSome_none, hnew, hsettled, Bool.or_self, List.cons_append]
  rfl

theorem idleGrant_grants (hs : Canonical s) (hfree : (s.coreOf c).owner = none) (hswitch : (s.coreOf c).switching = none) (hsettled : settledCore s c = true)
    (hquiet : quiescing s c = false) (hidle : coreIdle (s.coreOf c) s.cyc = false) (hgrant : arbitrate (s.coreOf c) s.cyc none false = .grant n)
    (hnew : (s.queueOf c n).started = false) : ((applyActs (idleGrantActs s c) s).coreOf c).owner = some n ∧ ((applyActs (idleGrantActs s c) s).queueOf c n).pass = 0 := by
  have hcore := coreOf_core_same (c := c) (f := fun y => { y with owner := some n }) (applyAct_canonical hs (modQueue c n Queue.granted)).cores
  rw [idleGrantActs_free hfree hswitch hsettled hquiet hidle hgrant hnew, applyActs_cons, applyActs_cons, fixStart_touches.queueOf, fixStart_touches.coreOf]
  refine ⟨congrArg Core.owner hcore, ?_⟩
  rw [queueOf_core_same (applyAct_canonical hs _), ← State.queueOf, queueOf_modQueue hs]
  split
  · rfl
  · rename_i hlen
    rw [State.queueOf, List.getD_eq_default _ _ (Nat.le_of_not_lt fun hn => hlen ⟨rfl, rfl, hn⟩)]

end Sys2Proof.Machine
end

section
/-! PROOFS. A switch saves the outgoing launch's state and restores the incoming one's (13 R287). -/

namespace Sys2Proof.Machine

/-! What a core's part of a map reads after it is replaced. -/

namespace SMap

variable {α : Type} [DecidableEq α] {d : α} {m p : SMap α} {a k lo r w c : Nat}

/-- A canonical list of entries put in: each of its keys reads as in it, every other one as before. -/
theorem get_putAll (hp : wfFrom d lo p = true) : get d (putAll d m p) a = if get d p a = d then get d m a else get d p a := by
  induction p generalizing lo m with
  | nil => simp [putAll]
  | cons e p ih =>
    obtain ⟨-, hne, hp⟩ := wfFrom_cons.mp hp
    have hput : putAll d m (e :: p) = putAll d (set d m e.1 e.2) p := rfl
    rw [hput, ih hp, get_cons]
    by_cases ha : a = e.1
    · subst ha
      rw [get_below hp (Nat.lt_succ_self _), if_pos rfl, if_pos rfl, if_neg hne, get_set_of_ne hne]
    · rw [if_neg ha, get_set_other ha]

theorem wfFrom_shift (hp : wfFrom d lo p = true) : wfFrom d (lo + k) (p.map fun e => (e.1 + k, e.2)) = true := by
  induction p generalizing lo with
  | nil => rfl
  | cons e p ih =>
    obtain ⟨hlo, hne, hp⟩ := wfFrom_cons.mp hp
    rw [List.map_cons, wfFrom_cons]
    exact ⟨Nat.add_le_add_right hlo k, hne, by simpa only [Nat.add_right_comm] using ih hp⟩

omit [DecidableEq α] in
theorem get_shift : get d (p.map fun e => (e.1 + k, e.2)) (r + k) = get d p r := by
  induction p with
  | nil => rfl
  | cons e p ih => simp only [List.map_cons, get_cons, ih, Nat.add_right_cancel_iff]

/-- A core's own part reads as what was put there. -/
theorem get_putPart (hp : wf d p = true) (hr : r < w) : get d (putPart d m c w p) (c * w + r) = get d p r := by
  have hkeys := get_filter (d := d) (m := p) (a := r) fun n => decide (n < w)
  rw [if_pos (decide_eq_true hr)] at hkeys
  have hclear : get d (clear m (c * w) w) (c * w + r) = d := get_clear_inside ⟨Nat.le_add_right _ _, Nat.add_lt_add_left hr _⟩
  rw [putPart, get_putAll (wfFrom_shift (wfFrom_filter _ hp)), hclear, Nat.add_comm (c * w) r, get_shift, hkeys]
  split
  · rename_i h
    exact h.symm
  · rfl

end SMap

variable {s t : State} {c n m i u r : Nat} {to_ : Option Nat}

/-! The switch. -/

theorem exec_queueSwitchComplete : exec (.queueSwitchComplete c) s = performs (switchActs s c) s := rfl

/-- The saving of the launch that owns a core, unless it has been ended. -/
def switchSaves (s : State) (c : Nat) : List Act :=
  match (s.coreOf c).owner with
  | some m => if (s.queueOf c m).ended then [] else [.save c (saveKey c m)]
  | none => []

/-- The core changes hands. -/
def handsOver (c : Nat) (to_ : Option Nat) : Act := .core c (fun y => { y with owner := to_, switching := none })

/-- The copies of a queue's launch on a core are suspended, or go on. -/
def moveCopies (s : State) (c n : Nat) (b : Bool) : List Act :=
  match s.launchOf c n with
  | some l => [.work (fun w => { w with copies := w.copies.map (fun k => if k.launch = some l.id && k.q / 4 = c then { k with suspended := b } else k) })]
  | none => []

/-- The outgoing launch's copies are suspended. -/
def switchSuspends (s : State) (c : Nat) : List Act :=
  match (s.coreOf c).owner with
  | some m => moveCopies s c m true
  | none => []

/-- The restoring of the launch that takes a core, if it has begun there; its copies go on. -/
def switchRestores (s : State) (c : Nat) (to_ : Option Nat) : List Act :=
  match to_ with
  | some n => if (s.queueOf c n).started then .restore c (saveKey c n) :: moveCopies s c n false else []
  | none => []

/-- What a switch does before the core has its new owner. -/
def switchMoves (s : State) (c : Nat) (to_ : Option Nat) : List Act :=
  switchSaves s c ++ switchSuspends s c ++ stopCore c ++ switchRestores s c to_

/-- The start of a launch that takes a core on which it has not begun may be fixed. -/
def switchStarts (s : State) (c : Nat) (to_ : Option Nat) : List Act :=
  match to_ with
  | some n => if (s.queueOf c n).started then [] else fixStart (applyActs (switchMoves s c to_ ++ [handsOver c to_]) s) c n
  | none => []

theorem moveCopies_touches {b : Bool} : TouchesOnly [.work] (moveCopies s c n b) := by
  rw [moveCopies]
  split <;> simp [Act.touches]

theorem switchSuspends_touches : TouchesOnly [.work] (switchSuspends s c) := by
  rw [switchSuspends]
  split
  · exact moveCopies_touches
  · simp

theorem switchStarts_touches : TouchesOnly [.work] (switchStarts s c to_) := by
  unfold switchStarts
  split
  · split
    · simp
    · exact fixStart_touches
  · simp

theorem switchActs_eq (hswitch : (s.coreOf c).switching = some (to_, u)) (htime : u ≤ s.cyc) (hsettled : settledCore s c = true)
    (hservice : (s.coreOf c).outOfService = false) : switchActs s c = switchMoves s c to_ ++ [handsOver c to_] ++ switchStarts s c to_ := by
  have hgo : (decide (s.cyc < u) || !settledCore s c || (s.coreOf c).outOfService) = false := by simp [htime, hsettled, hservice]
  rw [switchActs, hswitch]
  simp only [hgo, Bool.false_eq_true, if_false]
  rfl

/-- What is saved while another launch's state is restored stays saved. -/
theorem mem_saved_switchRestores {e : Nat × SavedCore} (he : e ∈ t.saved) (hkey : ∀ n, to_ = some n → e.1 ≠ saveKey c n) :
    e ∈ (applyActs (switchRestores s c to_) t).saved := by
  unfold switchRestores
  split
  case h_1 n =>
    split
    · rw [applyActs_cons, moveCopies_touches.saved, applyAct]
      split
      · exact List.mem_filter.mpr ⟨he, decide_eq_true (hkey n rfl)⟩
      · exact he
    · exact he
  case h_2 => exact he

/-- The outgoing launch's state is in its save area. -/
theorem switchMoves_saves (ho : (s.coreOf c).owner = some m) (hend : (s.queueOf c m).ended = false) (hto : to_ ≠ some m) :
    (8 * c + m, s.snapshot c) ∈ (applyActs (switchMoves s c to_) s).saved := by
  have hsaves : switchSaves s c = [.save c (saveKey c m)] := by
    rw [switchSaves, ho]
    simp only [hend, Bool.false_eq_true, if_false]
  rw [switchMoves, applyActs_append, applyActs_append, applyActs_append]
  refine mem_saved_switchRestores ?_ fun n hn => ?_
  · rw [stopCore_touches.saved, switchSuspends_touches.saved, hsaves]
    exact List.mem_cons_self
  · have hne : m ≠ n := fun h => hto (h ▸ hn)
    simp only [saveKey]
    omega

/-- The state saved for the incoming launch is still there when it is restored. -/
theorem find_saved_switchSaves {v : SavedCore} (ho : (s.coreOf c).owner ≠ some n) (hfind : s.saved.find? (fun e => e.1 = 8 * c + n) = some (8 * c + n, v)) :
    (applyActs (switchSaves s c) s).saved.find? (fun e => e.1 = 8 * c + n) = some (8 * c + n, v) := by
  have hfilter : ∀ k, k ≠ 8 * c + n → (s.saved.filter fun e => e.1 ≠ k).find? (fun e => e.1 = 8 * c + n) = some (8 * c + n, v) := fun k hk => by
    rw [List.find?_filter, ← hfind]
    congr 1
    funext e
    by_cases he : e.1 = 8 * c + n
    · simp [he, hk.symm]
    · simp [he]
  rw [switchSaves]
  split
  case h_1 m hm =>
    have hne : 8 * c + m ≠ 8 * c + n := fun h => ho (by rw [hm, Nat.add_left_cancel h])
    split
    · exact hfind
    · simp only [applyActs_cons, applyActs_nil, applyAct, saveKey]
      rw [List.find?_cons_of_neg (by simpa using hne)]
      exact hfilter _ hne
  case h_2 => exact hfind

/-- The incoming launch's registers and rows are those saved. -/
theorem switchMoves_restores {v : SavedCore} (ho : (s.coreOf c).owner ≠ some n) (hstarted : (s.queueOf c n).started = true)
    (hfind : s.saved.find? (fun e => e.1 = 8 * c + n) = some (8 * c + n, v)) : ∃ x : State,
    (applyActs (switchMoves s c (some n)) s).scalars = putPart {} x.scalars c 256 v.scalars ∧
    (applyActs (switchMoves s c (some n)) s).rows = putPart {} x.rows c 512 v.rows := by
  have hrestores : switchRestores s c (some n) = .restore c (8 * c + n) :: moveCopies s c n false := by
    simp only [switchRestores, hstarted, if_true, saveKey]
  refine ⟨applyActs (stopCore c) (applyActs (switchSuspends s c) (applyActs (switchSaves s c) s)), ?_⟩
  have hsaved := find_saved_switchSaves ho hfind
  rw [← switchSuspends_touches.saved (l := switchSuspends s c), ← stopCore_touches.saved (l := stopCore c)] at hsaved
  rw [switchMoves, applyActs_append, applyActs_append, applyActs_append, hrestores, applyActs_cons, moveCopies_touches.scalars, moveCopies_touches.rows, applyAct, hsaved]
  exact ⟨rfl, rfl⟩

section Switch

variable (hswitch : (s.coreOf c).switching = some (to_, u)) (htime : u ≤ s.cyc) (hsettled : settledCore s c = true)
  (hservice : (s.coreOf c).outOfService = false)

include hswitch htime hsettled hservice

theorem switchComplete_owner (hs : Canonical s) : ((applyActs (switchActs s c) s).coreOf c).owner = to_ ∧ ((applyActs (switchActs s c) s).coreOf c).switching = none := by
  rw [switchActs_eq hswitch htime hsettled hservice, applyActs_append, applyActs_append, switchStarts_touches.coreOf, applyActs_cons, applyActs_nil, handsOver,
    coreOf_core_same (applyActs_canonical hs _).cores]
  exact ⟨rfl, rfl⟩

theorem switchComplete_saved (ho : (s.coreOf c).owner = some m) (hend : (s.queueOf c m).ended = false) (hto : to_ ≠ some m) :
    (8 * c + m, s.snapshot c) ∈ (applyActs (switchActs s c) s).saved := by
  rw [switchActs_eq hswitch htime hsettled hservice, applyActs_append, applyActs_append, switchStarts_touches.saved]
  exact switchMoves_saves ho hend hto

theorem switchComplete_restored {v : SavedCore} (hto : to_ = some n) (ho : (s.coreOf c).owner ≠ some n) (hstarted : (s.queueOf c n).started = true)
    (hfind : s.saved.find? (fun e => e.1 = 8 * c + n) = some (8 * c + n, v)) (hscalars : SMap.wf {} v.scalars = true) (hrows : SMap.wf {} v.rows = true) :
    (∀ r, r < 256 → SMap.get {} (applyActs (switchActs s c) s).scalars (256 * c + r) = SMap.get {} v.scalars r) ∧
    ∀ r, r < 512 → (applyActs (switchActs s c) s).rowOf c r = SMap.get {} v.rows r := by
  subst hto
  obtain ⟨x, hx, hy⟩ := switchMoves_restores ho hstarted hfind
  rw [switchActs_eq hswitch htime hsettled hservice, applyActs_append, applyActs_append, switchStarts_touches.scalars]
  refine ⟨fun r hr => ?_, fun r hr => ?_⟩
  · have hkept : (applyActs [handsOver c (some n)] (applyActs (switchMoves s c (some n)) s)).scalars = (applyActs (switchMoves s c (some n)) s).scalars := rfl
    rw [hkept, hx, Nat.mul_comm, SMap.get_putPart hscalars hr]
  · have hkept : (applyActs [handsOver c (some n)] (applyActs (switchMoves s c (some n)) s)).rows = (applyActs (switchMoves s c (some n)) s).rows := rfl
    rw [switchStarts_touches.rowOf, State.rowOf, hkept, hy, Nat.mul_comm, SMap.get_putPart hrows hr]

end Switch

end Sys2Proof.Machine
end

section
/-! PROOFS. Budgets, graces and stated runs (13 R288, R291); the scheduling events together. -/

namespace Sys2Proof.Machine

variable {s t : State} {c n i g : Nat} {l : Launch}

/-! A spent budget. -/

theorem exec_deadlineFault : exec (.deadlineFault c) s = performs (deadlineActs s c) s := rfl

/-- A sequencer that is not IDLE takes the deadline fault at its next boundary. -/
def Seq.due (z : Seq) : Seq := if z.run = .idle then z else { z with deadline := true }

/-- The grace of a queue begins. -/
def Queue.graced (q : Queue) : Queue := { q with grace := some (q.owned + Config.graceCycles) }

theorem queueOf_chip {f : Chip → Chip} : (applyAct (.chip f) t).queueOf c n = t.queueOf c n := rfl

section Budget

variable (ho : (s.coreOf c).owner = some n) (hstarted : (s.queueOf c n).started = true) (hgrace : (s.queueOf c n).grace = none)
  (hended : (s.queueOf c n).ended = false) (hdone : doneOn s c n = false) (hbudget : (s.coreOf c).budget ≤ (s.queueOf c n).owned)

include ho hstarted hgrace hended hdone hbudget

theorem deadlineActs_due : deadlineActs s c =
    (List.range 4).map (fun i => Act.seq (4 * c + i) Seq.due) ++ [modQueue c n Queue.graced, post s 0x15 (s.fnOf c) c 0 0] := by
  have hdue : deadlineDue s c = true := by
    rw [State.queueOf] at hstarted hgrace hended hbudget
    simp only [deadlineDue, ho, hstarted, hgrace, hended, hdone, hbudget, Option.isNone_none, Bool.not_false, Bool.and_self, decide_true]
  rw [deadlineActs, hdue, ho]
  rfl

theorem deadlineFault_grace (hs : Canonical s) (hn : n < (s.coreOf c).queues.length) :
    ((applyActs (deadlineActs s c) s).queueOf c n).grace = some ((s.queueOf c n).owned + 4096) := by
  have hseqs : TouchesOnly [.seqs] ((List.range 4).map fun i => Act.seq (4 * c + i) Seq.due) := by simp [Act.touches]
  have hcore := hseqs.coreOf (s := s) (c := c)
  have hqueue := queueOf_modQueue (d := c) (m := n) (c := c) (n := n) (f := Queue.graced) (applyActs_canonical hs ((List.range 4).map fun i => Act.seq (4 * c + i) Seq.due))
  rw [hcore, if_pos ⟨rfl, rfl, hn⟩, hseqs.queueOf] at hqueue
  rw [deadlineActs_due ho hstarted hgrace hended hdone hbudget, applyActs_append]
  simp only [applyActs_cons, applyActs_nil, post]
  rw [queueOf_chip, hqueue]
  simp only [Queue.graced, Config.graceCycles]

theorem deadlineFault_posts : Posts s (applyActs (deadlineActs s c) s) 0x15 (s.fnOf c) c 0 0 := by
  have hbefore : TouchesOnly [.seqs, .cores] ((List.range 4).map (fun i => Act.seq (4 * c + i) Seq.due) ++ [modQueue c n Queue.graced]) := by
    simp [modQueue, Act.touches]
  rw [deadlineActs_due ho hstarted hgrace hended hdone hbudget, List.append_cons, applyActs_append, applyActs_cons, applyActs_nil, Posts, applyAct_post_log,
    hbefore.chip]

theorem deadlineFault_seqOf (hs : Canonical s) (hi : i < 4) : (applyActs (deadlineActs s c) s).seqOf (4 * c + i) = (s.seqOf (4 * c + i)).due := by
  rw [deadlineActs_due ho hstarted hgrace hended hdone hbudget, applyActs_append]
  exact seqOf_four hs hi

end Budget

/-! A grace that is over. -/

theorem exec_deadlineAbort (hg : (s.queueOf c n).grace = some g) (hover : g ≤ (s.queueOf c n).owned) (hdone : doneOn s c n = false) :
    exec (.deadlineAbort c n) s = performs (endLaunch s c n 0x08 0x15 0) s := by
  have hgrace : graceOver s c n = true := by
    rw [State.queueOf] at hg hover
    simp only [graceOver, hg, hover, hdone, decide_true, Bool.not_false, Bool.and_self]
  have hexec : exec (.deadlineAbort c n) s = performs (if graceOver s c n then endLaunch s c n 0x08 0x15 0 else []) s := rfl
  rw [hexec, hgrace]
  rfl

section Ends

variable {status event info : Nat} (hs : Canonical s) (hl : s.launchOf c n = some l)

include hs hl

/-- The queue of a launch that is ended says so. -/
theorem endLaunch_queueOf (hn : n < (s.coreOf c).queues.length) : (applyActs (endLaunch s c n status event info) s).queueOf c n = (s.queueOf c n).finished := by
  rw [State.queueOf, endLaunch_coreOf hl hs, Core.finished, getD_modifyAt, if_pos ⟨rfl, hn⟩]
  rfl

theorem endLaunch_owner (ho : (s.coreOf c).owner = some n) : ((applyActs (endLaunch s c n status event info) s).coreOf c).owner = none := by
  rw [endLaunch_coreOf hl hs, Core.finished]
  exact if_pos ho

end Ends

/-! A stated run that is over. -/

theorem exec_statedRunOverrun : exec (.statedRunOverrun c) s = performs (overrunPost s c) s := rfl

/-- A queue whose overrun has been reported. -/
def Queue.overran (q : Queue) : Queue := { q with overrun := true }

theorem overrunPost_due (ho : (s.coreOf c).owner = some n) (hstarted : (s.queueOf c n).started = true) (hnew : (s.queueOf c n).overrun = false)
    (hrun : (s.queueOf c n).run < (s.queueOf c n).sinceYield) (hbusy : ∃ i, i < 4 ∧ (s.seqOf (4 * c + i)).run ≠ .idle) :
    overrunPost s c = [modQueue c n Queue.overran, post s 0x30 (s.fnOf c) c 0 0] := by
  have hany : (List.range 4).any (fun i => (s.seqOf (4 * c + i)).run ≠ .idle) = true := by
    obtain ⟨i, hi, hidle⟩ := hbusy
    exact List.any_eq_true.mpr ⟨i, List.mem_range.mpr hi, decide_eq_true hidle⟩
  have hdue : overrunDue s c = true := by
    rw [State.queueOf] at hstarted hnew hrun
    simp only [overrunDue, ho, hstarted, hnew, hrun, hany, Bool.not_false, Bool.and_self, decide_true]
  rw [overrunPost, ho]
  simp only [hdue, if_true]
  rfl

/-- An event of class 0 changes no status for the host (R361). -/
theorem post_aer_of_class_zero {h : Chip} {k : Nat} {p : Posted} (hp : eventClass p.code = 0) : (h.post k p).aer = h.aer := by
  simp [Chip.post, hp]

section Overrun

variable {u : State} (hu : u = applyActs [modQueue c n Queue.overran, post s 0x30 (s.fnOf c) c 0 0, bump] s)

include hu

theorem overrun_posts : Posts s u 0x30 (s.fnOf c) c 0 0 := by
  have hchip : (applyAct (modQueue c n Queue.overran) s).chip = s.chip := rfl
  rw [hu, Posts, applyActs_cons, applyActs_cons, bump_touches.chip, applyAct_post_log, hchip]

theorem overrun_queueOf (hs : Canonical s) (hn : n < (s.coreOf c).queues.length) : u.queueOf c n = (s.queueOf c n).overran := by
  have hqueue := queueOf_modQueue (d := c) (m := n) (c := c) (n := n) (f := Queue.overran) hs
  rw [if_pos ⟨rfl, rfl, hn⟩] at hqueue
  subst hu
  exact hqueue

theorem overrun_aer : u.chip.aer = s.chip.aer := by
  subst hu
  exact post_aer_of_class_zero rfl

theorem overrun_sameStores : SameStores s u ∧ u.seqs = s.seqs := by
  subst hu
  simp [SameStores, modQueue, post, bump, applyAct]

end Overrun

/-- Settles O42, event by event: each one is the model's list of micro-operations, and what a list does is read off the parts that it touches. -/
theorem schedulingEvents : Obligations.SchedulingEvents := by
  unfold Obligations.SchedulingEvents
  refine ⟨fun c s hs => ⟨?launch, ?task, ?done, ?slice, ?free, ?grant, ?switch⟩, fun c n s hs => ⟨?deadline, ?abort, ?overrun⟩⟩
  case launch =>
    intro l hfind hready
    have hfiles : ∀ i, i < 4 → FilesClear (4 * c + i) (applyActs (launchActs s l c) s) := fun i hi => launchStart_filesClear hs hready hi
    have hcore := launchStart_coreOf hs hready
    obtain ⟨hrows, htags⟩ := launchStart_rowsClear hs hready
    have hscalars := fun r (hr : r < 256) => FilesClear.scalars_of_core hfiles hr
    have hmasks := fun r (hr : r < 64) => FilesClear.masks_of_core hfiles hr
    have hglints := fun r (hr : r < 16) => FilesClear.glints_of_core hfiles hr
    exact ⟨_, (exec_launchStart hfind).trans performs_next, fun i hi => launchStart_seqOf hs hready hi, hscalars, hmasks, hglints, hrows, htags,
      congrArg Core.stream hcore, congrArg Core.width hcore, congrArg Core.budget hcore, congrArg Core.seed hcore⟩
  case task =>
    intro l i bs htask hread
    obtain ⟨hrun, hpc⟩ := taskStart_seqOf htask hread hs
    exact ⟨_, exec_taskStart.trans performs_next, hrun, hpc, fun k hk => taskStart_fmt htask hread hs hk, taskStart_scalars htask hread hs⟩
  case done =>
    intro l hfind hremaining
    exact ⟨_, (exec_launchDone hfind).trans performs_next, fun k hk => launchDone_launches hremaining hk, fun d hd => launchDone_queues hs hremaining hd⟩
  case slice =>
    intro hend
    obtain ⟨hstart, hslice⟩ := sliceReset_slice hs hend
    exact ⟨_, exec_sliceReset.trans performs_next, hstart, hslice, fun hno n hn => sliceReset_pass hs hend hno hn⟩
  case free =>
    intro n l hdone hl
    exact ⟨_, exec_arbiterIdleGrant.trans performs_next, idleGrant_done hdone hl hs, idleGrant_ended hdone hl hs⟩
  case grant =>
    intro n hfree hswitch hsettled hquiet hidle hgrant hnew
    obtain ⟨howner, hpass⟩ := idleGrant_grants hs hfree hswitch hsettled hquiet hidle hgrant hnew
    exact ⟨_, exec_arbiterIdleGrant.trans performs_next, howner, hpass⟩
  case switch =>
    intro to_ u hswitch htime hsettled hservice
    obtain ⟨howner, hswitching⟩ := switchComplete_owner hswitch htime hsettled hservice hs
    exact ⟨_, exec_queueSwitchComplete.trans performs_next, howner, hswitching,
      fun m ho hend hto => switchComplete_saved hswitch htime hsettled hservice ho hend hto,
      fun n v hto ho hstarted hfind hscalars hrows => switchComplete_restored hswitch htime hsettled hservice hto ho hstarted hfind hscalars hrows⟩
  case deadline =>
    intro ho hn hstarted hgrace hended hdone hbudget
    exact ⟨_, exec_deadlineFault.trans performs_next, deadlineFault_grace ho hstarted hgrace hended hdone hbudget hs hn,
      deadlineFault_posts ho hstarted hgrace hended hdone hbudget, fun i hi => deadlineFault_seqOf ho hstarted hgrace hended hdone hbudget hs hi⟩
  case abort =>
    intro g l hg hover hdone hl
    have hn : n < (s.coreOf c).queues.length := lt_of_queueOf_ne fun h => by
      rw [h] at hg
      cases hg
    have hends : Ended l c (applyActs (endLaunch s c n 0x08 0x15 0) s).work.launches := by
      rw [endLaunch_launches hl]
      exact ended_map _
    exact ⟨_, (exec_deadlineAbort hg hover hdone).trans performs_next, congrArg Queue.ended (endLaunch_queueOf hs hl hn), hends, endLaunch_log hl,
      fun ho => ⟨endLaunch_owner hs hl ho, fun i hi => endLaunch_seqOf hl hs ho hi⟩⟩
  case overrun =>
    intro ho hn hstarted hnew hrun hbusy
    have hexec : exec (.statedRunOverrun c) s = .next (applyActs [modQueue c n Queue.overran, post s 0x30 (s.fnOf c) c 0 0, bump] s) := by
      rw [exec_statedRunOverrun, overrunPost_due ho hstarted hnew hrun hbusy]
      rfl
    obtain ⟨hstores, hseqs⟩ := overrun_sameStores (s := s) (c := c) (n := n) rfl
    exact ⟨_, hexec, overrun_posts rfl, hstores, hseqs, overrun_queueOf rfl hs hn, overrun_aer rfl⟩

end Sys2Proof.Machine
end

section
/-! PROOFS. Command packets are read at the head of their ring and answered (13 R279 to R282): refusals, levels, ranks and slice lengths; launches. -/

namespace Sys2Proof.Machine

variable {s t : State} {p : Packet} {l : List Act} {c n q code id fn : Nat} {body : State → List Act} {Q R : Core → Prop} {P : Seq → Prop}

/-! A change that needs what held before it. -/

/-- A change of core c gives R, from a Q that all keep, and all keep R. -/
theorem coreOf_holds_after {f : Core → Core} (hs : Canonical s) (hf : .core c f ∈ l) (hQ : Q (s.coreOf c)) (hold : ∀ a ∈ l, a.keepsCore Q)
    (own : ∀ y, Q y → R (f y)) (keep : ∀ a ∈ l, a.keepsCore R) : R ((applyActs l s).coreOf c) := by
  obtain ⟨pre, post, rfl⟩ := List.append_of_mem hf
  have hpre : Q ((applyActs pre s).coreOf c) := coreOf_holds hs hQ fun a ha => hold a (List.mem_append_left _ ha)
  have hu := applyActs_canonical hs pre
  rw [applyActs_append, applyActs_cons]
  refine coreOf_holds (applyAct_canonical hu _) ?_ fun a ha => keep a (List.mem_append_right _ (.tail _ ha))
  rw [coreOf_core_same hu.cores]
  exact own _ hpre

/-- A micro-operation changes sequencers by g alone. -/
def Act.seqsBy (g : Seq → Seq) (a : Act) : Prop := (∃ r, a = .seq r g) ∨ StatePart.seqs ∉ a.touches

theorem TouchesOnly.seqsBy {ps : List StatePart} {g : Seq → Seq} (h : TouchesOnly ps l) (hp : StatePart.seqs ∉ ps := by decide) : ∀ a ∈ l, a.seqsBy g :=
  fun _ ha => .inr (h.not_mem hp ha)

theorem Act.seqsBy.keepsSeq {a : Act} {g : Seq → Seq} (h : a.seqsBy g) (hg : ∀ y, P y → P (g y)) : a.keepsSeq P := by
  obtain ⟨r, rfl⟩ | h := h
  · exact keepsSeq_seq hg
  · exact .inr h

/-- Where a list changes sequencers by one idempotent function alone, one that it changes, however often, is as after a single change. -/
theorem seqOf_of_idempotent {g : Seq → Seq} (hs : Canonical s) (hg : ∀ y, g (g y) = g y) (hq : .seq q g ∈ l) (hl : ∀ a ∈ l, a.seqsBy g) :
    (applyActs l s).seqOf q = g (s.seqOf q) := by
  have keep : ∀ y, g y = g (s.seqOf q) → g (g y) = g (s.seqOf q) := fun y hy => (hg y).trans hy
  obtain ⟨pre, post, rfl⟩ := List.append_of_mem hq
  have hpre : g ((applyActs pre s).seqOf q) = g (s.seqOf q) :=
    seqOf_holds (P := fun y => g y = g (s.seqOf q)) hs rfl fun a ha => (hl a (List.mem_append_left _ ha)).keepsSeq keep
  have hu := applyActs_canonical hs pre
  rw [applyActs_append, applyActs_cons]
  refine seqOf_holds (P := fun y => y = g (s.seqOf q)) (applyAct_canonical hu _) ?_
    fun a ha => (hl a (List.mem_append_right _ (.tail _ ha))).keepsSeq fun y hy => by rw [hy, hg]
  rw [seqOf_seq_same hu.seqs, hpre]

/-! The head of a ring. -/

theorem packetFn_eq (h : packetField p 0 8 ≠ 1) : packetFn p = packetField p 8 5 := if_neg h

section Head

variable (hready : ringReady s p.ring = true) (hhead : ringPacket s p.ring = p)

include hready hhead

theorem takePacket_eq : takePacket s p body = packetRead p :: body (applyAct (packetRead p) s) := by
  have hpending : packetPending s p = true := by simp [packetPending, hready, hhead]
  rw [takePacket, hpending]
  rfl

theorem exec_badPacket (hbad : packetBad s p = true) : exec (.badPacket p) s = takes s p (fun u => answer u p 0x01 (badLaunch p)) := by
  have hexec : exec (.badPacket p) s = performs (if packetBad s p then takePacket s p (fun u => answer u p 0x01 (badLaunch p)) else []) s := rfl
  rw [hexec, hbad, if_pos rfl, takePacket_eq hready hhead, takes]

variable (hgood : packetBad s p = false)

include hgood

theorem performs_codedPacket (hcode : packetField p 0 8 = code) : performs (codedPacket s p code body) s = takes s p body := by
  have hcoded : codedPacket s p code body = takePacket s p body := by simp [codedPacket, hcode, hgood]
  rw [hcoded, takePacket_eq hready hhead, takes]

/-! Levels, ranks and slice lengths (R281, R293). -/

theorem exec_detlevel (hcode : packetField p 0 8 = 2) : exec (.detlevel p) s = takes s p (fun u =>
    .chip (fun h => { h with levels := SMap.set 0 h.levels (packetField p 8 5) (packetField p 16 2) }) :: answer u p 0 0) := by
  rw [← packetFn_eq (by omega)]
  exact performs_codedPacket hready hhead hgood hcode

/-- What a QSET sets on a core, from the core's next slice reset on. -/
def qsetCore (p : Packet) (k : Nat) (y : Core) : Core :=
  let y := y.atSlice k
  { y with pendRanks := y.pendRanks ++ [(packetField p 13 3, packetField p 16 3)]
           nextSlice := if packetField p 19 1 = 1 then packetField p 32 32 else y.nextSlice }

/-- A QSET, after it has been read: refused where its list cannot be read or names another function's core. -/
def qsetActs (p : Packet) (u : State) : List Act :=
  listChecks u p ++ match coreSet u p.ring (packetField p 128 64) (packetField p 64 16) with
    | none => answer u p 0x04 0
    | some cs =>
      if cs.any (fun c => u.fnOf c ≠ packetFn p) then answer u p 0x04 0
      else cs.map (fun c => .core c (qsetCore p u.cyc)) ++ answer u p 0 0

theorem exec_qset (hcode : packetField p 0 8 = 3) : exec (.qset p) s = takes s p (qsetActs p) := performs_codedPacket hready hhead hgood hcode

end Head

theorem qsetActs_accepted {u : State} {cs : List Nat} (hcode : packetField p 0 8 = 3)
    (hcs : coreSet u p.ring (packetField p 128 64) (packetField p 64 16) = some cs) (hown : ∀ c ∈ cs, u.fnOf c = packetField p 8 5) :
    qsetActs p u = listChecks u p ++ cs.map (fun c => .core c (qsetCore p u.cyc)) ++ answer u p 0 0 := by
  have hany : cs.any (fun c => u.fnOf c ≠ packetFn p) = false := by
    rw [packetFn_eq (by omega), List.any_eq_false]
    exact fun c hc => by simp [hown c hc]
  rw [qsetActs, hcs, List.append_assoc]
  simp only [hany, Bool.false_eq_true, if_false]

theorem qsetActs_refused {u : State} (hcode : packetField p 0 8 = 3)
    (hcs : ∀ cs, coreSet u p.ring (packetField p 128 64) (packetField p 64 16) = some cs → ∃ c ∈ cs, u.fnOf c ≠ packetField p 8 5) :
    qsetActs p u = listChecks u p ++ answer u p 0x04 0 := by
  rw [qsetActs]
  split
  · rfl
  · rename_i cs h
    obtain ⟨c, hc, hne⟩ := hcs cs h
    rw [← packetFn_eq (by omega)] at hne
    rw [if_pos (List.any_eq_true.mpr ⟨c, hc, decide_eq_true hne⟩)]

/-! Launches (R280, R289, R292). -/

/-- What a LAUNCH does once it has been read. -/
def launchPacketActs (p : Packet) (u : State) : List Act :=
  let l := packetLaunch u p.ring p
  let st := launchStatus u p l
  listChecks u p ++ answer u p st (packetField p 32 32) ++ (if st = 0 then (match l with | some l => queueLaunch u l | none => []) else [])

theorem exec_launch (hready : ringReady s p.ring = true) (hhead : ringPacket s p.ring = p) (hgood : packetBad s p = false) (hcode : packetField p 0 8 = 1) :
    exec (.launch p) s = takes s p (launchPacketActs p) := performs_codedPacket hready hhead hgood hcode

/-- A launch promised below its own level or the context's is refused for that. -/
theorem launchStatus_of_level {k : Option Launch} (h : packetField p 16 2 < packetField p 14 2 ∨ packetField p 16 2 < SMap.get 0 s.chip.levels p.ring) :
    launchStatus s p k = 0x02 := by
  have hlevel : (decide (packetField p 16 2 < packetField p 14 2) || decide (packetField p 16 2 < SMap.get 0 s.chip.levels p.ring)) = true := by simpa using h
  simp only [launchStatus, hlevel, if_true]

theorem launchPacketActs_refused (h : launchStatus s p (packetLaunch s p.ring p) ≠ 0) :
    launchPacketActs p s = listChecks s p ++ answer s p (launchStatus s p (packetLaunch s p.ring p)) (packetField p 32 32) := by
  rw [launchPacketActs]
  simp only [h, if_false, List.append_nil]

theorem listChecks_touches : TouchesOnly [.chip] (listChecks s p) := by
  simp only [listChecks, touchesOnly_ite, touchesOnly_append, deviceChecks_touches, and_self, implies_true]

theorem answer_touches {status : Nat} : TouchesOnly [.chip] (answer s p status n) := complete_touches

/-- A queue as an accepted launch takes it: free but for its rank and its PASS. -/
def Queue.takenBy (k : Launch) (tasks : List Nat) (q : Queue) : Queue := { q.freed with launch := some k.id, run := k.run0, tasks := tasks }

/-- The tasks that a launch has for a core. -/
def launchTasks (k : Launch) (c : Nat) : List Nat :=
  if k.task then placedTasks k.seed k.ntask k.cores.length ((k.cores.findIdx? (fun d => d = c)).getD 0) else []

/-- The launch joins the launches of the work. -/
def joinLaunch (k : Launch) : Act := .work (fun w => { w with launches := w.launches ++ [k], nextId := w.nextId + 1 })

theorem queueLaunch_eq {k : Launch} : queueLaunch s k =
    joinLaunch k :: k.remaining.flatMap (fun c => [wakeArbiter s c, modQueue c k.queue (Queue.takenBy k (launchTasks k c))]) := rfl

theorem atSlice_queues {y : Core} {k : Nat} : (y.atSlice k).queues = y.queues := by simp only [Core.atSlice, apply_ite Core.queues, ite_self]

/-- Waking the arbiter keeps what depends on a core's queues alone. -/
theorem wakeArbiter_keepsCore {H : List Queue → Prop} : (wakeArbiter s c).keepsCore (fun y => H y.queues) :=
  keepsCore_core fun y hy => by
    dsimp only
    rwa [atSlice_queues]

/-- Queue n is one of a core's, with rank r. -/
def Ranked (n r : Nat) (qs : List Queue) : Prop := n < qs.length ∧ (qs.getD n {}).rank = r

/-- The queue of a launch holds it, not yet started, with rank r. -/
def Holds (k : Launch) (r : Nat) (qs : List Queue) : Prop :=
  let q := qs.getD k.queue {}
  q.launch = some k.id ∧ q.run = k.run0 ∧ q.started = false ∧ q.rank = r

section Queued

variable {k : Launch} {r : Nat} {ts : List Nat} {qs : List Queue}

theorem ranked_takenBy (h : Ranked k.queue r qs) : Ranked k.queue r (modifyAt k.queue (Queue.takenBy k ts) qs) := by
  obtain ⟨hn, hr⟩ := h
  refine ⟨by rwa [length_modifyAt], ?_⟩
  rw [getD_modifyAt, if_pos ⟨rfl, hn⟩]
  exact hr

theorem holds_takenBy_of_ranked (h : Ranked k.queue r qs) : Holds k r (modifyAt k.queue (Queue.takenBy k ts) qs) := by
  obtain ⟨hn, hr⟩ := h
  rw [Holds, getD_modifyAt, if_pos ⟨rfl, hn⟩]
  exact ⟨rfl, rfl, rfl, hr⟩

theorem holds_takenBy (h : Holds k r qs) : Holds k r (modifyAt k.queue (Queue.takenBy k ts) qs) := by
  obtain ⟨hlaunch, hrun, hstarted, hrank⟩ := h
  rw [Holds, getD_modifyAt]
  split
  · exact ⟨rfl, rfl, rfl, hrank⟩
  · exact ⟨hlaunch, hrun, hstarted, hrank⟩

/-- An accepted launch keeps what waking the arbiter and taking a queue keep. -/
theorem queueLaunch_keepsCore {H : List Queue → Prop} (hH : ∀ qs ts, H qs → H (modifyAt k.queue (Queue.takenBy k ts) qs)) :
    ∀ a ∈ queueLaunch s k, a.keepsCore (fun y => H y.queues) := by
  intro a ha
  rw [queueLaunch_eq, List.mem_cons, List.mem_flatMap] at ha
  obtain rfl | ⟨d, -, ha⟩ := ha
  · exact .inr (by simp [joinLaunch, Act.touches])
  · simp only [List.mem_cons, List.not_mem_nil, or_false] at ha
    obtain rfl | rfl := ha
    · exact wakeArbiter_keepsCore
    · exact keepsCore_core fun y hy => hH _ _ hy

/-- The launch stands in its queue of every core of its set, with the rank that the queue had. -/
theorem queueLaunch_holds (ht : Canonical t) (hc : c ∈ k.remaining) (hn : k.queue < (t.coreOf c).queues.length) :
    Holds k (t.queueOf c k.queue).rank ((applyActs (queueLaunch s k) t).coreOf c).queues := by
  have hmem : modQueue c k.queue (Queue.takenBy k (launchTasks k c)) ∈ queueLaunch s k := by
    rw [queueLaunch_eq]
    exact .tail _ (List.mem_flatMap.mpr ⟨c, hc, .tail _ (.head _)⟩)
  have hranked : Ranked k.queue (t.queueOf c k.queue).rank (t.coreOf c).queues := ⟨hn, rfl⟩
  exact coreOf_holds_after (Q := fun y => Ranked k.queue (t.queueOf c k.queue).rank y.queues) (R := fun y => Holds k (t.queueOf c k.queue).rank y.queues)
    ht hmem hranked (queueLaunch_keepsCore fun _ _ h => ranked_takenBy h) (fun y hy => holds_takenBy_of_ranked hy) (queueLaunch_keepsCore fun _ _ h => holds_takenBy h)

theorem queueLaunch_launches : k ∈ (applyActs (queueLaunch s k) t).work.launches := by
  have hrest : TouchesOnly [.cores] (k.remaining.flatMap fun c => [wakeArbiter s c, modQueue c k.queue (Queue.takenBy k (launchTasks k c))]) := by
    simp [wakeArbiter, modQueue, Act.touches]
  rw [queueLaunch_eq, applyActs_cons, hrest.work]
  exact List.mem_append_right _ (List.mem_singleton.mpr rfl)

/-- What a LAUNCH does before the launch stands in its queues. -/
def launchAnswer (s : State) (p : Packet) : List Act := listChecks s p ++ answer s p 0 (packetField p 32 32)

theorem launchAnswer_touches : TouchesOnly [.chip] (launchAnswer s p) := touchesOnly_append.mpr ⟨listChecks_touches, answer_touches⟩

section Accepted

variable (hk : packetLaunch s p.ring p = some k) (h : launchStatus s p (some k) = 0)

include hk h

theorem launchPacketActs_accepted : launchPacketActs p s = launchAnswer s p ++ queueLaunch s k := by
  rw [launchPacketActs, hk]
  simp only [h, if_true, launchAnswer]

theorem launchPacketActs_launches : k ∈ (applyActs (launchPacketActs p s) s).work.launches := by
  rw [launchPacketActs_accepted hk h, applyActs_append]
  exact queueLaunch_launches

theorem launchPacketActs_holds (hs : Canonical s) (hc : c ∈ k.remaining) (hn : k.queue < (s.coreOf c).queues.length) :
    Holds k (s.queueOf c k.queue).rank ((applyActs (launchPacketActs p s) s).coreOf c).queues := by
  have hholds := queueLaunch_holds (s := s) (applyActs_canonical hs (launchAnswer s p)) hc (by rwa [launchAnswer_touches.coreOf])
  rw [launchPacketActs_accepted hk h, applyActs_append]
  rwa [launchAnswer_touches.queueOf] at hholds

end Accepted

end Queued

end Sys2Proof.Machine
end

section
/-! PROOFS. A Quiesce begins, goes on, is cut or gives up (13 R302 to R304). -/

namespace Sys2Proof.Machine

variable {s t u : State} {p : Packet} {z : Quiesce} {l : List Act} {c n i fn : Nat} {g : Seq → Seq}

/-! What stops the sequencers of a context, and what lets them go on. -/

/-- A parked sequencer stops. -/
def Seq.quiesced (y : Seq) : Seq := if y.run = .parked then { y with run := .quiesced } else y

/-- A stopped sequencer goes on where it stands. -/
def Seq.resumed (y : Seq) : Seq := if y.run = .quiesced then y.proceed else y

theorem quiesced_quiesced (y : Seq) : y.quiesced.quiesced = y.quiesced := by
  by_cases h : y.run = .parked <;> simp [Seq.quiesced, h]

theorem proceed_run_ne (y : Seq) : y.proceed.run ≠ .quiesced := by
  rw [Seq.proceed]
  split <;> simp

theorem resumed_resumed (y : Seq) : y.resumed.resumed = y.resumed := by
  by_cases h : y.run = .quiesced <;> simp [Seq.resumed, h, proceed_run_ne]

theorem quiesced_run (y : Seq) : y.quiesced.run = if y.run = .parked then .quiesced else y.run := apply_ite Seq.run _ _ _

theorem resumed_run (y : Seq) : y.resumed.run = if y.run = .quiesced then y.proceed.run else y.run := apply_ite Seq.run _ _ _

/-- One change of every sequencer of a list of cores. -/
def seqsOn (g : Seq → Seq) (c : Nat) : List Act := (List.range 4).map fun i => .seq (4 * c + i) g

theorem mem_seqsOn (hi : i < 4) : Act.seq (4 * c + i) g ∈ seqsOn g c := List.mem_map.mpr ⟨i, List.mem_range.mpr hi, rfl⟩

theorem seqsOn_touches : TouchesOnly [.seqs] (seqsOn g c) := by simp [seqsOn, Act.touches]

theorem seqsOn_by : ∀ a ∈ seqsOn g c, a.seqsBy g := fun a ha => by
  obtain ⟨i, -, rfl⟩ := List.mem_map.mp ha
  exact .inl ⟨_, rfl⟩

/-! A Quiesce begins (R303). -/

theorem beginQuiesce_eq : beginQuiesce s z = .chip (fun h => { h with quiesces := h.quiesces ++ [z] }) :: (coresOf s z.fn).flatMap (seqsOn Seq.quiesced) := rfl

theorem beginQuiesce_mem : z ∈ (applyActs (beginQuiesce s z) t).chip.quiesces := by
  have hseqs : TouchesOnly [.seqs] ((coresOf s z.fn).flatMap (seqsOn Seq.quiesced)) := touchesOnly_flatMap.mpr fun _ _ => seqsOn_touches
  rw [beginQuiesce_eq, applyActs_cons, hseqs.chip]
  exact List.mem_append_right _ (List.mem_singleton.mpr rfl)

theorem beginQuiesce_seqOf (ht : Canonical t) (hc : c ∈ coresOf s z.fn) (hi : i < 4) :
    (applyActs (beginQuiesce s z) t).seqOf (4 * c + i) = (t.seqOf (4 * c + i)).quiesced := by
  rw [beginQuiesce_eq]
  refine seqOf_of_idempotent ht quiesced_quiesced (.tail _ (List.mem_flatMap.mpr ⟨c, hc, mem_seqsOn hi⟩)) fun a ha => ?_
  rw [List.mem_cons, List.mem_flatMap] at ha
  obtain rfl | ⟨d, -, ha⟩ := ha
  · exact .inr (by simp [Act.touches])
  · exact seqsOn_by a ha

/-- The Quiesce that a packet asks for. -/
def packetQuiesce (p : Packet) (u : State) : Quiesce :=
  { fn := packetField p 8 5, ring := p.ring, pix := p.index, deadline := u.cyc + packetField p 32 32, buf := packetField p 64 64, len := packetField p 128 64
    reseed := decide (u.chip.journal.state = 3) }

/-- A QUIESCE, once it has been read: refused with a buffer shorter than the image. -/
def quiescePacketActs (p : Packet) (u : State) : List Act :=
  if packetField p 128 64 < imageLength u (packetField p 8 5) then answer u p 0x0A 0 else beginQuiesce u (packetQuiesce p u)

section Head

variable (hready : ringReady s p.ring = true) (hhead : ringPacket s p.ring = p) (hgood : packetBad s p = false)

include hready hhead hgood

theorem exec_quiesce (hcode : packetField p 0 8 = 4) : exec (.quiesce p) s = takes s p (quiescePacketActs p) := by
  unfold quiescePacketActs packetQuiesce
  rw [← packetFn_eq (by omega)]
  exact performs_codedPacket hready hhead hgood hcode

/-! A context resumes (R303). -/

theorem exec_resume (hcode : packetField p 0 8 = 6) :
    exec (.resume p) s = takes s p (fun u => resumeContext u (packetField p 8 5) ++ answer u p 0 0) := by
  rw [← packetFn_eq (by omega)]
  exact performs_codedPacket hready hhead hgood hcode

end Head

/-- The queues of a core go on. -/
def Core.unquiesced (y : Core) : Core := { y with queues := y.queues.map (fun q => { q with quiesced := false }) }

/-- What a core of a resumed context gets. -/
def resumeCore (s : State) (c : Nat) : List Act := seqsOn Seq.resumed c ++ [.core c Core.unquiesced, wakeArbiter s c]

theorem resumeContext_eq : resumeContext s fn =
    (coresOf s fn).flatMap (resumeCore s) ++ [.chip (fun h => { h with quiesces := h.quiesces.filter (fun z => z.fn ≠ fn) })] := rfl

theorem resumeContext_quiesces (hz : z ∈ (applyActs (resumeContext s fn) t).chip.quiesces) : z.fn ≠ fn := by
  rw [resumeContext_eq, applyActs_append] at hz
  exact of_decide_eq_true (List.mem_filter.mp hz).2

theorem resumeContext_seqOf (ht : Canonical t) (hc : c ∈ coresOf s fn) (hi : i < 4) :
    (applyActs (resumeContext s fn) t).seqOf (4 * c + i) = (t.seqOf (4 * c + i)).resumed := by
  rw [resumeContext_eq]
  refine seqOf_of_idempotent ht resumed_resumed (List.mem_append_left _ (List.mem_flatMap.mpr ⟨c, hc, List.mem_append_left _ (mem_seqsOn hi)⟩)) ?_
  simp only [List.forall_mem_append, List.forall_mem_singleton]
  refine ⟨fun a ha => ?_, .inr (by simp [Act.touches])⟩
  obtain ⟨d, -, ha⟩ := List.mem_flatMap.mp ha
  rw [resumeCore] at ha
  obtain ha | ha := List.mem_append.mp ha
  · exact seqsOn_by a ha
  · have hcores : TouchesOnly [.cores] [Act.core d Core.unquiesced, wakeArbiter s d] := by simp [wakeArbiter, Act.touches]
    exact hcores.seqsBy (by decide) a ha

/-- No queue of a core is quiesced. -/
def NoneQuiesced (qs : List Queue) : Prop := ∀ q ∈ qs, q.quiesced = false

theorem resumeContext_queues (ht : Canonical t) (hc : c ∈ coresOf s fn) : NoneQuiesced ((applyActs (resumeContext s fn) t).coreOf c).queues := by
  have own : ∀ y : Core, NoneQuiesced y.unquiesced.queues := fun y q hq => by
    obtain ⟨x, -, rfl⟩ := List.mem_map.mp hq
    rfl
  rw [resumeContext_eq]
  refine coreOf_holds_of_mem (Q := fun y => NoneQuiesced y.queues) ht
    (List.mem_append_left _ (List.mem_flatMap.mpr ⟨c, hc, List.mem_append_right _ List.mem_cons_self⟩)) own ?_
  simp only [List.forall_mem_append, List.forall_mem_singleton]
  refine ⟨fun a ha => ?_, .inr (by simp [Act.touches])⟩
  obtain ⟨d, -, ha⟩ := List.mem_flatMap.mp ha
  rw [resumeCore] at ha
  obtain ha | ha := List.mem_append.mp ha
  · exact seqsOn_touches.keepsCore (by decide) a ha
  · simp only [List.mem_cons, List.not_mem_nil, or_false] at ha
    obtain rfl | rfl := ha
    · exact keepsCore_core fun y _ => own y
    · exact wakeArbiter_keepsCore

/-! A Quiesce gives up (R303 step 1, R346). -/

theorem quiesceOf_eq_some (h : quiesceOf s fn = some z) : z ∈ s.chip.quiesces ∧ z.fn = fn := by
  have hz := List.find?_some h
  rw [Bool.and_eq_true] at hz
  exact ⟨List.mem_of_find?_eq_some h, of_decide_eq_true hz.1⟩

theorem releaseQuiesced_eq : releaseQuiesced s z = (coresOf s z.fn).flatMap (seqsOn Seq.resumed) ++ [modQuiesce z (fun _ => none)] := rfl

/-- A Quiesce that is changed. -/
theorem mem_modQuiesce {f : Quiesce → Option Quiesce} {y : Quiesce} (hz : z ∈ t.chip.quiesces) (hf : f z = some y) :
    y ∈ (applyAct (modQuiesce z f) t).chip.quiesces := by
  rw [modQuiesce, applyAct_chip]
  exact List.mem_filterMap.mpr ⟨z, hz, (if_pos rfl).trans hf⟩

theorem releaseQuiesced_not_mem : z ∉ (applyActs (releaseQuiesced s z) t).chip.quiesces := by
  intro hz
  rw [releaseQuiesced_eq, applyActs_append] at hz
  obtain ⟨y, -, hy⟩ := List.mem_filterMap.mp hz
  split at hy
  · cases hy
  · rename_i hne
    exact hne (Option.some.inj hy)

theorem releaseQuiesced_seqOf (ht : Canonical t) (hc : c ∈ coresOf s z.fn) (hi : i < 4) :
    (applyActs (releaseQuiesced s z) t).seqOf (4 * c + i) = (t.seqOf (4 * c + i)).resumed := by
  rw [releaseQuiesced_eq]
  refine seqOf_of_idempotent ht resumed_resumed (List.mem_append_left _ (List.mem_flatMap.mpr ⟨c, hc, mem_seqsOn hi⟩)) ?_
  simp only [List.forall_mem_append, List.forall_mem_singleton]
  refine ⟨fun a ha => ?_, .inr (by simp [modQuiesce, Act.touches])⟩
  obtain ⟨d, -, ha⟩ := List.mem_flatMap.mp ha
  exact seqsOn_by a ha

/-- The outcome of a Quiesce that gives up: it is gone, and the sequencers that it stopped go on. -/
def GivesUp (s : State) (z : Quiesce) (o : Host.Outcome State Fault Refusal) : Prop :=
  ∃ t, o = .next t ∧ z ∉ t.chip.quiesces ∧ ∀ c ∈ coresOf s z.fn, ∀ i, i < 4 → t.seqOf (4 * c + i) = (s.seqOf (4 * c + i)).resumed

/-- The report of a Quiesce that gives up: none for Lantern's own. -/
def quiesceReport (s : State) (z : Quiesce) : List Act := if z.own then [] else complete s z.ring (completionRecord 0x05 0x04 0 z.pix 0)

theorem quiesceReport_keeps : TouchesOnly [.chip] (quiesceReport s z) ∧ (applyActs (quiesceReport s z) t).chip.quiesces = t.chip.quiesces := by
  rw [quiesceReport]
  split
  · exact ⟨touchesOnly_nil, rfl⟩
  · exact ⟨complete_touches, complete_quiesces⟩

theorem givesUp_release (hs : Canonical s) : GivesUp s z (performs (releaseQuiesced s z ++ quiesceReport s z) s) := by
  have hreport := fun u => quiesceReport_keeps (s := s) (z := z) (t := u)
  refine ⟨_, performs_next, fun hz => ?_, fun c hc i hi => ?_⟩
  · have hkept : (applyAct bump (applyActs (releaseQuiesced s z ++ quiesceReport s z) s)).chip.quiesces = (applyActs (releaseQuiesced s z) s).chip.quiesces := by
      rw [applyActs_append]
      exact (hreport _).2
    rw [hkept] at hz
    exact releaseQuiesced_not_mem hz
  · have hkept : (applyAct bump (applyActs (releaseQuiesced s z ++ quiesceReport s z) s)).seqOf (4 * c + i) =
        (applyActs (releaseQuiesced s z) s).seqOf (4 * c + i) := by
      rw [applyActs_append]
      exact (hreport s).1.seqOf
    rw [hkept, releaseQuiesced_seqOf hs hc hi]

theorem exec_quiesceTimeout (h : quiesceOf s fn = some z) (htime : z.deadline ≤ s.cyc) (hrunning : stoppedFn s fn = false) :
    exec (.quiesceTimeout fn) s = performs (releaseQuiesced s z ++ quiesceReport s z) s := by
  have hover : (decide (s.cyc < z.deadline) || (stoppedFn s fn && journalSettled s z)) = false := by simp [htime, hrunning]
  have hexec : exec (.quiesceTimeout fn) s = performs (quiesceTimeoutActs s fn) s := rfl
  rw [hexec, quiesceTimeoutActs, h]
  simp only [hover, Bool.false_eq_true, if_false]
  rfl

/-! A Quiesce is cut (R303 step 7, R304). -/

theorem exec_quiesceCutComplete : exec (.quiesceCutComplete fn) s = performs (cutActs s fn) s := rfl

/-- The writing of a context's image to the buffer of its Quiesce. -/
def writeImage (s : State) (z : Quiesce) : Except (Nat × Nat) (List Act) :=
  writeDevice s 0 z.ring z.buf (s.choice 0) (stateImage s z.fn) (List.replicate (imageLength s z.fn) false)

/-- The report of a Quiesce that is cut, with the length of its image. -/
def cutReport (s : State) (z : Quiesce) : List Act := complete s z.ring (completionRecord 0 0x04 0 z.pix ((imageLength s z.fn + 4095) / 4096))

section Cut

variable (h : quiesceOf s fn = some z) (hcut : cutReady s fn = true)

include h hcut

theorem cutActs_own (hown : z.own = true) : cutActs s fn = cutContext s z := by
  simp only [cutActs, h, hcut, hown, Bool.not_true, Bool.false_eq_true, if_false, if_true]

theorem cutActs_error {e : Nat × Nat} (hown : z.own = false) (hw : writeImage s z = .error e) : cutActs s fn = releaseQuiesced s z ++ quiesceReport s z := by
  obtain ⟨-, rfl⟩ := quiesceOf_eq_some h
  rw [writeImage] at hw
  simp only [cutActs, h, hcut, hown, hw, quiesceReport, Bool.not_true, Bool.false_eq_true, if_false]

theorem cutActs_ok (hown : z.own = false) (hw : writeImage s z = .ok l) : cutActs s fn = l ++ cutContext s z ++ cutReport s z := by
  obtain ⟨-, rfl⟩ := quiesceOf_eq_some h
  rw [writeImage] at hw
  simp only [cutActs, h, hcut, hown, hw, cutReport, Bool.not_true, Bool.false_eq_true, if_false]

end Cut

/-- The frames that a cut writes. -/
def cutWrites (s : State) (z : Quiesce) : List Act :=
  (coreSections s z.fn).flatMap (fun e =>
    if e.2.isSome && (s.coreOf e.1).owner = e.2 then (cutFrames (s.snapshot e.1) s.cyc).map (fun b => putBytes e.1 b.1 b.2) else [])

/-- A queue that a cut quiesces, if it holds a launch. -/
def Queue.cut (q : Queue) : Queue := if q.launch.isSome then { q with quiesced := true } else q

/-- The queues of a core that a cut quiesces. -/
def Core.cut (y : Core) : Core := { y with queues := y.queues.map Queue.cut }

theorem cutContext_eq : cutContext s z = cutWrites s z ++ (coresOf s z.fn).map (fun c => .core c Core.cut) ++
    [modQuiesce z (fun y => some { y with cut := true, cutCyc := s.cyc })] := rfl

theorem cutWrites_touches : TouchesOnly [] (cutWrites s z) := by
  simp only [cutWrites, touchesOnly_flatMap]
  intro e _
  split <;> simp [putBytes, Act.touches]

theorem cutContext_mem (hz : z ∈ t.chip.quiesces) : { z with cut := true, cutCyc := s.cyc } ∈ (applyActs (cutContext s z) t).chip.quiesces := by
  have hcores : TouchesOnly [.cores] (cutWrites s z ++ (coresOf s z.fn).map fun c => Act.core c Core.cut) := by
    simp only [touchesOnly_append, touchesOnly_map]
    exact ⟨cutWrites_touches.mono (by simp), fun c _ => by simp [Act.touches]⟩
  rw [cutContext_eq, applyActs_append, applyActs_cons, applyActs_nil]
  exact mem_modQuiesce (by rwa [hcores.chip]) rfl

/-- Every queue of a core that holds a launch is quiesced. -/
def AllQuiesced (qs : List Queue) : Prop := ∀ q ∈ qs, q.launch.isSome = true → q.quiesced = true

theorem cut_allQuiesced (y : Core) : AllQuiesced y.cut.queues := by
  intro q hq hlaunch
  obtain ⟨x, -, rfl⟩ := List.mem_map.mp hq
  rw [Queue.cut] at hlaunch ⊢
  split at hlaunch
  · rename_i h
    rw [if_pos h]
  · contradiction

theorem cutContext_queues (ht : Canonical t) (hc : c ∈ coresOf s z.fn) : AllQuiesced ((applyActs (cutContext s z) t).coreOf c).queues := by
  rw [cutContext_eq]
  refine coreOf_holds_of_mem (Q := fun y => AllQuiesced y.queues) (f := Core.cut) ht ?_ cut_allQuiesced ?_
  · exact List.mem_append_left _ (List.mem_append_right _ (List.mem_map.mpr ⟨c, hc, rfl⟩))
  · simp only [List.forall_mem_append, List.forall_mem_map, List.forall_mem_singleton]
    exact ⟨⟨cutWrites_touches.keepsCore, fun d _ => keepsCore_core fun y _ => cut_allQuiesced y⟩, .inr (by simp [modQuiesce, Act.touches])⟩

/-- A Quiesce whose image is written is complete: its queues are quiesced. -/
theorem cut_complete (hs : Canonical s) (hz : z ∈ s.chip.quiesces) (hl : TouchesOnly [] l) :
    ∃ t, performs (l ++ cutContext s z ++ cutReport s z) s = .next t ∧ { z with cut := true, cutCyc := s.cyc } ∈ t.chip.quiesces ∧
      ∀ c ∈ coresOf s z.fn, AllQuiesced (t.coreOf c).queues := by
  have hu := applyActs_canonical hs l
  have hmem := cutContext_mem (s := s) (t := applyActs l s) (z := z) (by rwa [hl.chip])
  refine ⟨_, performs_next, ?_, fun c hc => ?_⟩
  · rw [applyActs_append, applyActs_append]
    have hkept : (applyAct bump (applyActs (cutReport s z) (applyActs (cutContext s z) (applyActs l s)))).chip.quiesces =
      (applyActs (cutContext s z) (applyActs l s)).chip.quiesces := complete_quiesces
    rwa [hkept]
  · rw [applyActs_append, applyActs_append]
    have hkept : (applyAct bump (applyActs (cutReport s z) (applyActs (cutContext s z) (applyActs l s)))).coreOf c =
      (applyActs (cutContext s z) (applyActs l s)).coreOf c := complete_touches.coreOf
    rw [hkept]
    exact cutContext_queues hu hc

end Sys2Proof.Machine
end

section
/-! PROOFS. A launch is aborted on its cores (13 R279, R291), and an image is restored (13 R305). -/

namespace Sys2Proof.Machine

variable {s t u : State} {p : Packet} {l k : Launch} {c d n i fn : Nat} {a : Act} {cs : List Nat}

/-! The end of a launch on every core (R279). -/

theorem ended_endOn {ks : List Launch} (h : Ended l d ks) : Ended l d (endOn k c ks) := by
  intro y hy hid
  obtain ⟨x, hx, rfl⟩ := List.mem_map.mp hy
  by_cases hk : x.id = k.id
  · rw [if_pos hk] at hid ⊢
    exact fun hd => h x hx hid (List.mem_filter.mp hd).1
  · rw [if_neg hk] at hid ⊢
    exact h x hx hid

/-- A launch with the identity of l is in the list. -/
def Present (l : Launch) (ks : List Launch) : Prop := ∃ y ∈ ks, y.id = l.id

theorem present_endOn {ks : List Launch} (h : Present l ks) : Present l (endOn k c ks) := by
  obtain ⟨y, hy, hid⟩ := h
  refine ⟨_, List.mem_map.mpr ⟨y, hy, rfl⟩, ?_⟩
  split
  · exact hid
  · exact hid

/-- A queue that holds a launch of the work has it. -/
theorem launchOf_of_present (hl : Present l s.work.launches) (hq : (s.queueOf c n).launch = some l.id) : ∃ k, s.launchOf c n = some k ∧ k.id = l.id := by
  obtain ⟨y, hy, hid⟩ := hl
  have hfound : (s.work.launches.find? fun k => k.id = l.id).isSome = true := List.find?_isSome.mpr ⟨y, hy, decide_eq_true hid⟩
  obtain ⟨k, hk⟩ := Option.isSome_iff_exists.mp hfound
  have hid := List.find?_some hk
  refine ⟨k, ?_, of_decide_eq_true hid⟩
  rw [State.queueOf] at hq
  rw [State.launchOf, hq]
  exact hk

theorem endLaunch_queue_launch {status event info m : Nat} (hs : Canonical s) (hl : s.launchOf c n = some k) :
    ((applyActs (endLaunch s c n status event info) s).queueOf d m).launch = (s.queueOf d m).launch := by
  by_cases hd : d = c
  · subst hd
    rw [State.queueOf, endLaunch_coreOf hl hs, Core.finished, getD_modifyAt]
    split
    · rename_i hm
      obtain ⟨rfl, -⟩ := hm
      rfl
    · rfl
  · rw [State.queueOf, endLaunch_coreOf_other hl hd]
    rfl

/-- A launch that is aborted is ended on each of its cores, and on those where it had been ended before. -/
theorem abortLaunch_ended (hs : Canonical s) (hl : Present l s.work.launches) (hq : ∀ c ∈ cs, (s.queueOf c l.queue).launch = some l.id)
    (hd : d ∈ cs ∨ Ended l d s.work.launches) : Ended l d (applyActs (abortLaunch l cs s) s).work.launches := by
  induction cs generalizing s with
  | nil => exact hd.resolve_left List.not_mem_nil
  | cons c cs ih =>
    obtain ⟨k, hk, hid⟩ := launchOf_of_present hl (hq c List.mem_cons_self)
    have hends := endLaunch_launches (status := 0x08) (event := 0x15) (info := 0) (t := s) hk
    rw [abortLaunch, applyActs_append]
    refine ih (applyActs_canonical hs _) (by rw [hends]; exact present_endOn hl)
      (fun e he => by rw [endLaunch_queue_launch hs hk]; exact hq e (.tail _ he)) ?_
    rw [hends]
    obtain hd | hd := hd
    · obtain rfl | hd := List.mem_cons.mp hd
      · refine .inr fun y hy hyid => ?_
        exact ended_map (l := k) s.work.launches y hy (hyid.trans hid.symm)
      · exact .inl hd
    · exact .inr (ended_endOn hd)

/-- An ABORT, once it has been read: it is answered, and the launch that it names is ended. -/
def abortPacketActs (p : Packet) (u : State) : List Act :=
  let a := answer u p 0 (packetField p 32 32)
  a ++ (match namedLaunch u (packetField p 8 5) (packetField p 32 32) with
    | some l => abortLaunch l l.remaining (applyActs a u)
    | none => [])

section Head

variable (hready : ringReady s p.ring = true) (hhead : ringPacket s p.ring = p) (hgood : packetBad s p = false)

include hready hhead hgood

theorem exec_abort (hcode : packetField p 0 8 = 7) : exec (.abort p) s = takes s p (abortPacketActs p) := by
  unfold abortPacketActs
  rw [← packetFn_eq (by omega)]
  exact performs_codedPacket hready hhead hgood hcode

theorem exec_restore (hcode : packetField p 0 8 = 5) : exec (.restore p) s = takes s p (fun u => restoreActs u p) :=
  performs_codedPacket hready hhead hgood hcode

end Head

theorem abortPacketActs_ended (hs : Canonical s) (hl : namedLaunch s (packetField p 8 5) (packetField p 32 32) = some l)
    (hq : ∀ c ∈ l.remaining, (s.queueOf c l.queue).launch = some l.id) (hd : d ∈ l.remaining) :
    Ended l d (applyActs (abortPacketActs p s) s).work.launches := by
  have hanswer : TouchesOnly [.chip] (answer s p 0 (packetField p 32 32)) := answer_touches
  have hpresent : Present l s.work.launches := ⟨l, List.mem_of_find?_eq_some hl, rfl⟩
  rw [abortPacketActs, hl]
  dsimp only
  rw [applyActs_append]
  exact abortLaunch_ended (applyActs_canonical hs _) (by rwa [hanswer.work]) (fun c hc => by rw [hanswer.queueOf]; exact hq c hc) (.inl hd)

/-! An image (R305). -/

/-- The blocks of an image's launches. -/
def imageBlocks (b : List Byte) : List (List Byte) :=
  (List.range ((imageField b 0x20 8 - 0x1040) / 256)).map (fun i => (b.drop (0x1040 + 256 * i)).take 256)

/-- The module section of an image. -/
def imageModule (b : List Byte) : ImageParts := moduleParts ((b.drop (imageField b 0x20 8)).take (imageField b 0x28 8))

/-- The launches of an image, as they are read with the image's translation. -/
def imageLaunches (u : State) (fn : Nat) (b : List Byte) : List (Option Launch) :=
  (imageBlocks b).mapIdx (fun i x => imageLaunch (applyAct (restoreTranslation fn (imageModule b)) u) fn x (u.work.nextId + i))

/-- The reading of an image. -/
def readImage (u : State) (p : Packet) : Except (Nat × Nat) (List Byte × List Bool) :=
  readDevice u 0 p.ring (packetField p 64 64) (packetField p 128 64) (u.choice 0)

/-- The checks of the places that an image is read from. -/
def imageChecks (u : State) (p : Packet) : List Act := deviceChecks u 0 p.ring (packetField p 64 64) (packetField p 128 64) (u.choice 0)

/-- The launches that owned their cores at the cut, by core. -/
def imageOwners (sections : List (List Byte)) (ls : List Launch) : List (Nat × Nat) :=
  sections.filterMap (fun x =>
    let place := sectionPlace x
    if place.2.2 then (ls[imageField x 152 8]?).map (fun l => (place.1, l.id)) else none)

/-- The cores on which a launch had begun at the cut. -/
def imageStarted (sections : List (List Byte)) (ls : List Launch) (l : Launch) : List Nat :=
  (sections.filter (fun x => (ls[imageField x 152 8]?).map (fun k => k.id) = some l.id)).map (fun x => (sectionPlace x).1)

/-- What a restore does to the module and to its cores, beside the launches that it adds. -/
def restoreStores (u : State) (fn level : Nat) (q : ImageParts) (sections : List (List Byte)) (ls : List Launch) (resume : Nat) (delta : Word) : List Act :=
  [.chip (fun h => { h with levels := SMap.set 0 h.levels fn level })] ++ restoreTranslation fn q :: restoreModule u fn q ls resume (imageOwners sections ls) ++
    ls.flatMap (fun l => restoreQueues u l sections (imageStarted sections ls l)) ++ sections.flatMap (restoreSection u q ls (u.work.nextId + ls.length) resume delta)

/-- The launches of an image join those of the work. -/
def joinLaunches (ls : List Launch) : Act := .work (fun w => { w with launches := w.launches ++ ls, nextId := w.nextId + ls.length })

theorem restoreActs_error {e : Nat × Nat} (h : readImage u p = .error e) : restoreActs u p = imageChecks u p ++ answer u p 0x06 0 := by
  rw [readImage] at h
  simp only [restoreActs, h, imageChecks]

theorem restoreActs_refused {b : List Byte} {ps : List Bool} (h : readImage u p = .ok (b, ps))
    (hbad : ps.any id = true ∨ imageFits u (packetFn p) b (imageSections b) (imageLaunches u (packetFn p) b) = false) :
    restoreActs u p = imageChecks u p ++ answer u p 0x06 0 := by
  have hrefuse : (ps.any id || !imageFits u (packetFn p) b (imageSections b) (imageLaunches u (packetFn p) b)) = true := by
    obtain h | h := hbad <;> simp [h]
  rw [readImage] at h
  rw [restoreActs, h]
  exact congrArg (imageChecks u p ++ ·) (if_pos hrefuse)

theorem append_pair {α : Type} (as ts ys zs : List α) (x y : α) : as ++ [x, y] ++ ts ++ ys ++ zs = as ++ x :: ([y] ++ ts ++ ys ++ zs) := by
  simp only [List.append_assoc, List.cons_append, List.nil_append]

/-- An image that fits is restored. -/
theorem restoreActs_fits {b : List Byte} {ps : List Bool} (h : readImage u p = .ok (b, ps)) (hclean : ps.any id = false)
    (hfits : imageFits u (packetFn p) b (imageSections b) (imageLaunches u (packetFn p) b) = true) : ∃ level resume delta,
    restoreActs u p = imageChecks u p ++ (answer u p 0 0 ++ joinLaunches ((imageLaunches u (packetFn p) b).filterMap id) ::
      restoreStores u (packetFn p) level (imageModule b) (imageSections b) ((imageLaunches u (packetFn p) b).filterMap id) resume delta) := by
  have haccept : ¬ (ps.any id || !imageFits u (packetFn p) b (imageSections b) (imageLaunches u (packetFn p) b)) = true := by simp [hclean, hfits]
  rw [readImage] at h
  rw [restoreActs, h]
  refine ⟨imageField b 0xC 4 % 4, resumeCycle u.cyc (imageField b 0x10 8),
    BitVec.ofNat 64 (resumeCycle u.cyc (imageField b 0x10 8)) - BitVec.ofNat 64 (imageField b 0x10 8), ?_⟩
  refine congrArg (imageChecks u p ++ ·) ((if_neg haccept).trans ?_)
  exact append_pair _ _ _ _ _ _

/-- A micro-operation leaves the launches of the work as they are. -/
def Act.keepsLaunches (a : Act) : Prop := (∃ f, a = .work f ∧ ∀ w, (f w).launches = w.launches) ∨ StatePart.work ∉ a.touches

theorem TouchesOnly.keepsLaunches {ps : List StatePart} {l : List Act} (h : TouchesOnly ps l) (hp : StatePart.work ∉ ps := by decide) :
    ∀ a ∈ l, a.keepsLaunches := fun _ ha => .inr (h.not_mem hp ha)

theorem applyActs_keepsLaunches {l : List Act} (h : ∀ a ∈ l, a.keepsLaunches) : (applyActs l t).work.launches = t.work.launches := by
  refine applyActs_keeps (p := fun t => t.work.launches) (fun a ha t => ?_) t
  obtain ⟨f, rfl, hf⟩ | ha := h a ha
  · exact hf _
  · rw [(applyAct_untouched a t).work ha]

theorem restoreModule_keepsLaunches {q : ImageParts} {ls : List Launch} {resume : Nat} {owners : List (Nat × Nat)} :
    ∀ a ∈ restoreModule s fn q ls resume owners, a.keepsLaunches := by
  simp only [restoreModule, List.forall_mem_append, List.forall_mem_cons]
  refine ⟨fun a ha => ?_, .inr (by simp [Act.touches]), .inl ⟨_, rfl, fun _ => rfl⟩, List.forall_mem_nil _⟩
  obtain ⟨m, -, ha⟩ := List.mem_flatMap.mp ha
  obtain ⟨j, hj, rfl⟩ := List.mem_mapIdx.mp ha
  exact .inr (by simp [Act.touches])

theorem restoreQueues_touches {sections : List (List Byte)} {started : List Nat} : TouchesOnly [.cores] (restoreQueues s l sections started) := by
  simp only [restoreQueues, touchesOnly_flatMap]
  intro e _
  simp [wakeArbiter, modQueue, Act.touches]

theorem restoreSection_touches {q : ImageParts} {ls : List Launch} {base resume : Nat} {delta : Word} {b : List Byte} :
    TouchesOnly [.seqs, .scalars, .rows, .cores, .saved] (restoreSection s q ls base resume delta b) := by
  rw [restoreSection]
  dsimp only
  split
  · split <;> simp [Act.touches]
  · rw [touchesOnly_append, touchesOnly_ite]
    exact ⟨by simp [wakeArbiter, modQueue, Act.touches], fun _ => by simp [Act.touches], fun _ => touchesOnly_nil⟩

section Restored

variable {level resume : Nat} {q : ImageParts} {sections : List (List Byte)} {ls ks : List Launch} {delta : Word}

theorem restoreStores_keepsLaunches : ∀ a ∈ restoreStores u fn level q sections ls resume delta, a.keepsLaunches := by
  rw [restoreStores]
  simp only [List.forall_mem_append, List.forall_mem_cons]
  refine ⟨⟨⟨⟨.inr (by simp [Act.touches]), List.forall_mem_nil _⟩, .inr (by simp [restoreTranslation, Act.touches]), restoreModule_keepsLaunches⟩, ?_⟩, ?_⟩
  · exact TouchesOnly.keepsLaunches (ps := [.cores]) (touchesOnly_flatMap.mpr fun _ _ => restoreQueues_touches)
  · exact TouchesOnly.keepsLaunches (ps := [.seqs, .scalars, .rows, .cores, .saved]) (touchesOnly_flatMap.mpr fun _ _ => restoreSection_touches)

/-- The launches of an image that is restored join those of the work. -/
theorem restored_launches :
    (applyActs (imageChecks u p ++ (answer u p 0 0 ++ joinLaunches ks :: restoreStores u fn level q sections ls resume delta)) t).work.launches =
      t.work.launches ++ ks := by
  have hchecks : TouchesOnly [.chip] (imageChecks u p) := deviceChecks_touches
  have hanswer : TouchesOnly [.chip] (answer u p 0 0) := answer_touches
  have hjoin : ∀ t, (applyAct (joinLaunches ks) t).work.launches = t.work.launches ++ ks := fun _ => rfl
  rw [applyActs_append, applyActs_append, applyActs_cons, applyActs_keepsLaunches restoreStores_keepsLaunches, hjoin, hanswer.work, hchecks.work]

end Restored

end Sys2Proof.Machine
end

section
/-! PROOFS. The packets' events together (13 R279 to R282, R289, R292, R293, R303 to R305). -/

namespace Sys2Proof.Machine

variable {s : State} {p : Packet} {z : Quiesce} {k l : Launch} {body : State → List Act} {c i fn : Nat}

/-- The state that follows a packet which has been read and carried out. -/
theorem takes_next : takes s p body = .next (applyAct bump (applyActs (body (applyAct (packetRead p) s)) (applyAct (packetRead p) s))) := performs_next

theorem bump_coreOf : (applyAct bump s).coreOf c = s.coreOf c := rfl
theorem bump_launches : (applyAct bump s).work.launches = s.work.launches := rfl

/-! A context that has resumed is answered for. -/

theorem resumeAnswered_quiesces (hz : z ∈ (applyActs (resumeContext s fn ++ answer s p 0 0) s).chip.quiesces) : z.fn ≠ fn := by
  rw [applyActs_append, answer, complete_quiesces] at hz
  exact resumeContext_quiesces hz

theorem resumeAnswered_queues (hs : Canonical s) (hc : c ∈ coresOf s fn) :
    NoneQuiesced ((applyActs (resumeContext s fn ++ answer s p 0 0) s).coreOf c).queues := by
  rw [applyActs_append, answer_touches.coreOf]
  exact resumeContext_queues hs hc

theorem resumeAnswered_seqOf (hs : Canonical s) (hc : c ∈ coresOf s fn) (hi : i < 4) :
    (applyActs (resumeContext s fn ++ answer s p 0 0) s).seqOf (4 * c + i) = (s.seqOf (4 * c + i)).resumed := by
  rw [applyActs_append, answer_touches.seqOf]
  exact resumeContext_seqOf hs hc hi

section Head

variable (hs : Canonical s) (hready : ringReady s p.ring = true) (hhead : ringPacket s p.ring = p) (hgood : packetBad s p = false)

include hready hhead hgood

theorem launch_refused (hcode : packetField p 0 8 = 1)
    (h : launchStatus (applyAct (packetRead p) s) p (packetLaunch (applyAct (packetRead p) s) p.ring p) ≠ 0) :
    exec (.launch p) s = takes s p (fun u => listChecks u p ++
      answer u p (launchStatus (applyAct (packetRead p) s) p (packetLaunch (applyAct (packetRead p) s) p.ring p)) (packetField p 32 32)) := by
  rw [exec_launch hready hhead hgood hcode, takes, launchPacketActs_refused h, takes]

theorem qset_accepted {cs : List Nat} (hcode : packetField p 0 8 = 3)
    (hcs : coreSet (applyAct (packetRead p) s) p.ring (packetField p 128 64) (packetField p 64 16) = some cs) (hown : ∀ c ∈ cs, s.fnOf c = packetField p 8 5) :
    exec (.qset p) s = takes s p (fun u => listChecks u p ++ cs.map (fun c => .core c (qsetCore p s.cyc)) ++ answer u p 0 0) := by
  rw [exec_qset hready hhead hgood hcode, takes, qsetActs_accepted hcode hcs hown, takes]
  rfl

theorem qset_refused (hcode : packetField p 0 8 = 3)
    (hcs : ∀ cs, coreSet (applyAct (packetRead p) s) p.ring (packetField p 128 64) (packetField p 64 16) = some cs → ∃ c ∈ cs, s.fnOf c ≠ packetField p 8 5) :
    exec (.qset p) s = takes s p (fun u => listChecks u p ++ answer u p 0x04 0) := by
  rw [exec_qset hready hhead hgood hcode, takes, qsetActs_refused hcode hcs, takes]

theorem quiesce_refused (hcode : packetField p 0 8 = 4) (hlen : packetField p 128 64 < imageLength (applyAct (packetRead p) s) (packetField p 8 5)) :
    exec (.quiesce p) s = takes s p (fun u => answer u p 0x0A 0) := by
  rw [exec_quiesce hready hhead hgood hcode, takes, quiescePacketActs, if_pos hlen, takes]

theorem restore_unreadable {e : Nat × Nat} (hcode : packetField p 0 8 = 5) (h : readImage (applyAct (packetRead p) s) p = .error e) :
    exec (.restore p) s = takes s p (fun u => imageChecks u p ++ answer u p 0x06 0) := by
  rw [exec_restore hready hhead hgood hcode, takes, restoreActs_error h, takes]

section Image

variable {b : List Byte} {ps : List Bool} (hcode : packetField p 0 8 = 5) (h : readImage (applyAct (packetRead p) s) p = .ok (b, ps))

include hcode h

theorem restore_refused (hbad : ps.any id = true ∨ imageFits (applyAct (packetRead p) s) (packetField p 8 5) b (imageSections b)
      (imageLaunches (applyAct (packetRead p) s) (packetField p 8 5) b) = false) :
    exec (.restore p) s = takes s p (fun u => imageChecks u p ++ answer u p 0x06 0) := by
  rw [← packetFn_eq (by omega)] at hbad
  rw [exec_restore hready hhead hgood hcode, takes, restoreActs_refused h hbad, takes]

theorem restore_fits (hclean : ps.any id = false) (hfits : imageFits (applyAct (packetRead p) s) (packetField p 8 5) b (imageSections b)
      (imageLaunches (applyAct (packetRead p) s) (packetField p 8 5) b) = true) :
    ∃ t, exec (.restore p) s = .next t ∧
      t.work.launches = s.work.launches ++ (imageLaunches (applyAct (packetRead p) s) (packetField p 8 5) b).filterMap id := by
  rw [← packetFn_eq (by omega)] at hfits ⊢
  obtain ⟨level, resume, delta, heq⟩ := restoreActs_fits h hclean hfits
  refine ⟨_, (exec_restore hready hhead hgood hcode).trans takes_next, ?_⟩
  rw [heq]
  exact restored_launches

end Image

include hs

theorem launch_accepted (hcode : packetField p 0 8 = 1) (hk : packetLaunch (applyAct (packetRead p) s) p.ring p = some k)
    (hstatus : launchStatus (applyAct (packetRead p) s) p (some k) = 0) :
    ∃ t, exec (.launch p) s = .next t ∧ k ∈ t.work.launches ∧
      ∀ c ∈ k.remaining, k.queue < (s.coreOf c).queues.length → Holds k (s.queueOf c k.queue).rank (t.coreOf c).queues := by
  have hr := applyAct_canonical hs (packetRead p)
  refine ⟨_, (exec_launch hready hhead hgood hcode).trans takes_next, ?_, fun c hc hn => ?_⟩
  · rw [bump_launches]
    exact launchPacketActs_launches hk hstatus
  · have hholds := launchPacketActs_holds hk hstatus hr hc hn
    rw [bump_coreOf]
    exact hholds

theorem quiesce_begun (hcode : packetField p 0 8 = 4) (hlen : imageLength (applyAct (packetRead p) s) (packetField p 8 5) ≤ packetField p 128 64) :
    ∃ t, exec (.quiesce p) s = .next t ∧ packetQuiesce p s ∈ t.chip.quiesces ∧
      ∀ c ∈ coresOf s (packetField p 8 5), ∀ i, i < 4 → t.seqOf (4 * c + i) = (s.seqOf (4 * c + i)).quiesced := by
  have hr := applyAct_canonical hs (packetRead p)
  have hacts : quiescePacketActs p (applyAct (packetRead p) s) = beginQuiesce (applyAct (packetRead p) s) (packetQuiesce p s) := if_neg (Nat.not_lt.mpr hlen)
  refine ⟨_, (exec_quiesce hready hhead hgood hcode).trans takes_next, ?_, fun c hc i hi => ?_⟩
  · rw [hacts]
    exact beginQuiesce_mem
  · rw [hacts]
    exact beginQuiesce_seqOf hr hc hi

theorem resume_resumes (hcode : packetField p 0 8 = 6) : ∃ t, exec (.resume p) s = .next t ∧ (∀ z ∈ t.chip.quiesces, z.fn ≠ packetField p 8 5) ∧
    ∀ c ∈ coresOf s (packetField p 8 5), NoneQuiesced (t.coreOf c).queues ∧ ∀ i, i < 4 → t.seqOf (4 * c + i) = (s.seqOf (4 * c + i)).resumed := by
  have hr := applyAct_canonical hs (packetRead p)
  exact ⟨_, (exec_resume hready hhead hgood hcode).trans takes_next, fun _ hz => resumeAnswered_quiesces hz,
    fun _ hc => ⟨resumeAnswered_queues hr hc, fun _ hi => resumeAnswered_seqOf hr hc hi⟩⟩

theorem abort_ended (hcode : packetField p 0 8 = 7) (hl : namedLaunch s (packetField p 8 5) (packetField p 32 32) = some l)
    (hq : ∀ c ∈ l.remaining, (s.queueOf c l.queue).launch = some l.id) :
    ∃ t, exec (.abort p) s = .next t ∧ ∀ c ∈ l.remaining, Ended l c t.work.launches := by
  have hr := applyAct_canonical hs (packetRead p)
  refine ⟨_, (exec_abort hready hhead hgood hcode).trans takes_next, fun c hc => ?_⟩
  rw [bump_launches]
  exact abortPacketActs_ended hr hl hq hc

end Head

/-! The statement's parts. -/

theorem givesUp_run {o : Host.Outcome State Fault Refusal} (hz : z.fn = fn) (h : GivesUp s z o) : ∃ t, o = .next t ∧ z ∉ t.chip.quiesces ∧
    ∀ c ∈ coresOf s fn, ∀ i, i < 4 → (t.seqOf (4 * c + i)).run =
      if (s.seqOf (4 * c + i)).run = .quiesced then (s.seqOf (4 * c + i)).proceed.run else (s.seqOf (4 * c + i)).run := by
  subst hz
  obtain ⟨t, ho, hgone, hseqs⟩ := h
  exact ⟨t, ho, hgone, fun c hc i hi => by rw [hseqs c hc i hi, resumed_run]⟩

/-- Settles O43, packet by packet and then for the Quiesce: a packet at the head of its ring is read, and its list of micro-operations follows. -/
theorem packetEvents : Obligations.PacketEvents := by
  unfold Obligations.PacketEvents
  refine ⟨fun p s hs hready hhead => ⟨exec_badPacket hready hhead, fun hgood => ⟨?launch, ?detlevel, ?qset, ?quiesce, ?restore, ?resume, ?abort⟩⟩,
    fun fn z s hs hz => ⟨?timeout, ?own, ?cut⟩⟩
  case launch =>
    intro hcode
    refine ⟨launchStatus_of_level, launch_refused hready hhead hgood hcode, fun k hk hstatus => ?_⟩
    obtain ⟨t, ht, hmem, hholds⟩ := launch_accepted hs hready hhead hgood hcode hk (by rwa [← hk])
    exact ⟨t, ht, hmem, hholds⟩
  case detlevel => exact exec_detlevel hready hhead hgood
  case qset =>
    intro hcode
    refine ⟨fun cs hcs hown => ?_, qset_refused hready hhead hgood hcode⟩
    exact qset_accepted hready hhead hgood hcode hcs hown
  case quiesce =>
    intro hcode
    refine ⟨quiesce_refused hready hhead hgood hcode, fun hlen => ?_⟩
    obtain ⟨t, ht, hmem, hseqs⟩ := quiesce_begun hs hready hhead hgood hcode hlen
    exact ⟨t, ht, hmem, fun c hc i hi => by rw [hseqs c hc i hi, quiesced_run]⟩
  case restore =>
    intro hcode
    refine ⟨fun e he => restore_unreadable hready hhead hgood hcode he, fun b ps hread => ⟨restore_refused hready hhead hgood hcode hread, ?_⟩⟩
    exact restore_fits hready hhead hgood hcode hread
  case resume =>
    intro hcode
    obtain ⟨t, ht, hgone, hcores⟩ := resume_resumes hs hready hhead hgood hcode
    refine ⟨t, ht, hgone, fun c hc => ?_⟩
    obtain ⟨hqueues, hseqs⟩ := hcores c hc
    exact ⟨hqueues, fun i hi => by rw [hseqs i hi, resumed_run]⟩
  case abort =>
    intro l hcode hl hq
    obtain ⟨t, ht, hended⟩ := abort_ended hs hready hhead hgood hcode hl hq
    exact ⟨t, ht, fun k hk hid c hc => hended c hc k hk hid⟩
  case timeout =>
    intro htime hrunning
    obtain ⟨-, hfn⟩ := quiesceOf_eq_some hz
    refine givesUp_run hfn ?_
    rw [exec_quiesceTimeout hz htime hrunning]
    exact givesUp_release hs
  case own =>
    intro hcut hown
    rw [exec_quiesceCutComplete, cutActs_own hz hcut hown]
  case cut =>
    intro hcut hown
    obtain ⟨hmem, rfl⟩ := quiesceOf_eq_some hz
    refine ⟨fun e hw => givesUp_run rfl ?_, fun l hw => ?_⟩
    · rw [exec_quiesceCutComplete, cutActs_error hz hcut hown hw]
      exact givesUp_release hs
    · rw [exec_quiesceCutComplete, cutActs_ok hz hcut hown hw]
      exact cut_complete hs hmem (touchesOnly_of_writesDevice (writeDevice_writes hw))

end Sys2Proof.Machine
end

section
/-! PROOFS. The links between modules: flits and beats, a link that goes down, flits without a route, time messages (15 R310 to R314, R317, R321,
R326 to R329). -/

namespace Sys2Proof.Machine

variable {s t : State} {p : Port} {f : Flit} {g g' : Port → Port} {k m n i c lane : Nat} {ok : Bool}

/-! A port under a change. -/

/-- A port that is changed to another value than the reset value reads back so, in any state. -/
theorem port_modPort (h : g (s.chip.port k) ≠ {}) : (applyAct (modPort k g) s).chip.port k = g (s.chip.port k) := SMap.get_set_of_ne h

/-- Two changes of a port that agree on what it holds are one. -/
theorem modPort_congr (h : g (s.chip.port k) = g' (s.chip.port k)) : applyAct (modPort k g) s = applyAct (modPort k g') s := by
  rw [modPort, modPort, applyAct_chip, applyAct_chip, h]

theorem performs_modPort_congr (h : g (s.chip.port k) = g' (s.chip.port k)) : performs [modPort k g] s = performs [modPort k g'] s :=
  performs_congr (modPort_congr h)

/-! The port after a flit (R311, R312). -/

/-- The port after a flit in sequence in cycle c: the next one is expected, and every eighth is acknowledged. -/
def Port.took (c : Nat) (p : Port) : Port :=
  let q : Port := { p with expect := (p.expect + 1) % 4096, discarding := false, good := p.good + 1 }
  if (p.good + 1) % 8 = 0 then q.beat c (.ack p.expect) else q

theorem took_good : (p.took c).good = p.good + 1 := by
  simp only [Port.took, apply_ite Port.good, Port.beat, Port.occupy, ite_self]

theorem took_queues : (p.took c).queues = p.queues := by
  simp only [Port.took, apply_ite Port.queues, Port.beat, Port.occupy, ite_self]

theorem took_pausing : (p.took c).pausing = p.pausing := by
  simp only [Port.took, apply_ite Port.pausing, Port.beat, Port.occupy, ite_self]

theorem took_queued : (p.took c).queued lane = p.queued lane := by
  rw [Port.queued, took_queues, Port.queued]

/-- A port that took a flit counts it, so it is not as reset left it. -/
theorem took_ne_reset : p.took c ≠ {} := fun h => by
  have hgood : p.good + 1 = 0 := took_good.symm.trans (congrArg Port.good h)
  exact absurd hgood (Nat.succ_ne_zero _)

/-- The port with a flit in its lane's receive queue since cycle c. -/
def Port.enqueued (c : Nat) (f : Flit) (p : Port) : Port := { p with queues := p.queues ++ [⟨flitLane f, c, f⟩] }

/-- The port after its first pause beat for a lane in cycle c. -/
def Port.pausedLane (c lane : Nat) (p : Port) : Port := ({ p with pausing := p.pausing ++ [(lane, c + 84)] } : Port).beat c (.pause lane)

theorem enqueued_queued : (p.enqueued c f).queued (flitLane f) = p.queued (flitLane f) + 1 := by
  simp [Port.queued, Port.enqueued]

/-- The port with a new flit in its lane's receive queue, where the 48th flit pauses a lane that is not being paused (R312). -/
def Port.entered (c : Nat) (f : Flit) (p : Port) : Port :=
  if 48 ≤ (p.enqueued c f).queued (flitLane f) && !p.pausing.any (fun e => e.1 = flitLane f) then (p.enqueued c f).pausedLane c (flitLane f)
  else p.enqueued c f

theorem queueFlit_eq : queueFlit s k f = [modPort k (Port.entered s.cyc f)] := rfl

theorem entered_goesOn (h : p.queued (flitLane f) < 47) : p.entered c f = p.enqueued c f := by
  have hfew : ¬ 48 ≤ (p.enqueued c f).queued (flitLane f) := by
    rw [enqueued_queued]
    omega
  rw [Port.entered, decide_eq_false hfew]
  rfl

theorem entered_pauses (h : p.queued (flitLane f) = 47) (hnew : ∀ e ∈ p.pausing, e.1 ≠ flitLane f) :
    p.entered c f = (p.enqueued c f).pausedLane c (flitLane f) := by
  have hfull : 48 ≤ (p.enqueued c f).queued (flitLane f) := by rw [enqueued_queued, h]
  have hnone : p.pausing.any (fun e => e.1 = flitLane f) = false := List.any_eq_false.mpr fun e he heq => hnew e he (of_decide_eq_true heq)
  rw [Port.entered, decide_eq_true hfull, hnone]
  rfl

/-! What a flit does by its module and its type (R310, R317, R321). -/

theorem flitArrives_forwarded (h : flitDest f ≠ s.chip.modId) : flitArrives s k f = [.chip (fun h => h.send (flitDest f) [(f, 0)])] := if_pos h

theorem flitArrives_collective (hdest : flitDest f = s.chip.modId) (hkind : flitKind f = 1) :
    flitArrives s k f = queueFlit s k f ++ [later s (.collectiveFlitArrival k f)] := by
  rw [flitArrives, if_neg (not_not.mpr hdest), hkind]
  rfl

theorem flitArrives_time (hdest : flitDest f = s.chip.modId) (hkind : flitKind f = 3) : flitArrives s k f = [] := by
  rw [flitArrives, if_neg (not_not.mpr hdest), hkind]
  rfl

/-! Flits received (R310 to R312). -/

theorem exec_flitReceive : exec (.flitReceive k f ok) s = performs (receiveActs s k f ok) s := rfl

theorem receiveActs_down (h : (s.chip.port k).up = false ∨ 24 ≤ k) : receiveActs s k f ok = [] := by
  refine if_pos ?_
  obtain h | h := h <;> simp [h, portCount]

section Up

variable (hup : (s.chip.port k).up = true) (hk : k < 24)

include hup hk

/-- A port of the module whose link is up looks at the flit. -/
theorem receiveActs_up : receiveActs s k f ok =
    if ok && flitLseq f = (s.chip.port k).expect then modPort k (Port.took s.cyc) :: flitArrives s k f
    else if ok && (s.chip.port k).discarding then []
    else [modPort k (fun p => ({ p with discarding := true, retryAt := s.cyc + 84 } : Port).beat s.cyc (.retry p.expect))] := by
  refine if_neg ?_
  rw [hup, portCount, decide_eq_false (Nat.not_le.mpr hk)]
  exact Bool.false_ne_true

/-- A flit that fails its check, or the first one out of sequence, is discarded with a retry beat (R311). -/
theorem receiveActs_discards (h : ok = false ∨ flitLseq f ≠ (s.chip.port k).expect ∧ (s.chip.port k).discarding = false) : receiveActs s k f ok =
    [modPort k (fun p => ({ p with discarding := true, retryAt := s.cyc + 84 } : Port).beat s.cyc (.retry p.expect))] := by
  rw [receiveActs_up hup hk]
  obtain rfl | ⟨hseq, hfirst⟩ := h
  · rfl
  · rw [hfirst, decide_eq_false hseq, Bool.and_false]
    rfl

/-- Later flits out of sequence are discarded in silence until the replay (R311). -/
theorem receiveActs_silent (hok : ok = true) (hseq : flitLseq f ≠ (s.chip.port k).expect) (hdiscards : (s.chip.port k).discarding = true) :
    receiveActs s k f ok = [] := by
  rw [receiveActs_up hup hk, hok, hdiscards, decide_eq_false hseq]
  rfl

section InSequence

variable (hok : ok = true) (hseq : flitLseq f = (s.chip.port k).expect)

include hok hseq

theorem receiveActs_takes : receiveActs s k f ok = modPort k (Port.took s.cyc) :: flitArrives s k f := by
  rw [receiveActs_up hup hk, hok, decide_eq_true hseq]
  rfl

/-- A collective flit enters its lane's queue in a port that has counted it. -/
theorem performs_collective (hdest : flitDest f = s.chip.modId) (hkind : flitKind f = 1)
    (henters : ((s.chip.port k).took s.cyc).entered s.cyc f = g ((s.chip.port k).took s.cyc)) :
    exec (.flitReceive k f ok) s = performs [modPort k (Port.took s.cyc), modPort k g, later s (.collectiveFlitArrival k f)] s := by
  have htook : (applyAct (modPort k (Port.took s.cyc)) s).chip.port k = (s.chip.port k).took s.cyc := port_modPort took_ne_reset
  rw [exec_flitReceive, receiveActs_takes hup hk hok hseq, flitArrives_collective hdest hkind, queueFlit_eq]
  refine performs_congr ?_
  simp only [applyActs_cons, List.cons_append, List.nil_append]
  rw [modPort_congr (g := Port.entered s.cyc f) (g' := g) (by rw [htook, henters])]

end InSequence

end Up

/-! Beats received (R311, R312). -/

section Retry

variable (hfind : (s.chip.port k).retry.findIdx? (fun e => e.1 = n) = some i)

include hfind

theorem retryActs_some : retryActs s k n =
    if 16 < (if (s.chip.port k).replayed = n then (s.chip.port k).replays + 1 else 1) then [.chip (fun h => h.linkDown s.cyc k)]
    else [.chip (fun h => { h with ports := SMap.set {} h.ports k { (h.port k).purge i h.dead with
      resend := some i, replayed := n, replays := if (s.chip.port k).replayed = n then (s.chip.port k).replays + 1 else 1 } }), post s 0x04 0 0 0 k] := by
  rw [retryActs, hfind]

theorem linkAckActs_some : performs (linkAckActs k n) s = performs [modPort k (fun p => { p with
    retry := p.retry.drop (i + 1), resend := p.resend.map (fun r => r - (i + 1)), replays := 0 })] s := by
  refine performs_modPort_congr ?_
  rw [hfind]

end Retry

theorem retryActs_none (hfind : (s.chip.port k).retry.findIdx? (fun e => e.1 = n) = none) : retryActs s k n = [] := by
  rw [retryActs, hfind]

theorem linkDown_ports {h : Chip} : (h.linkDown c k).ports = SMap.set {} h.ports k { h.port k with up := false, retry := [], waiting := [], resend := none } := rfl

/-! Flits without a route (R314). -/

theorem noRouteActs_due (htime : SMap.get 0 s.chip.noRoute m + 1000000 ≤ s.cyc) (hroute : s.chip.route m = none) (hheld : SMap.get [] s.chip.routeHold m ≠ []) :
    noRouteActs s m = [.chip (fun h => { h with routeHold := SMap.set [] h.routeHold m [] }), post s 0x22 0 0 0 m] := by
  refine if_pos ?_
  rw [noRouteDue, decide_eq_true htime, hroute, List.isEmpty_eq_false_iff.mpr hheld]
  rfl

/-! Time (R327 to R329). -/

theorem raise_tbu {h : Chip} {fn vec : Nat} : (h.raise fn vec).tbu = h.tbu := by
  simp only [Chip.raise, apply_ite Chip.tbu, ite_self]

theorem askHost_tbu {duty : Nat} : (applyActs (askHost s duty) t).chip.tbu = t.chip.tbu := by
  rw [askHost]
  split
  · exact raise_tbu
  · rfl

/-- After a time message the TBU shows it, whoever its servo is and whether GTIME is set. -/
theorem timeSync_tbu {y : TimeMessage} : ∃ t, exec (.timeSyncMessage y) s = .next t ∧ t.chip.tbu = messageTbu y := by
  refine ⟨_, rfl, ?_⟩
  rw [applyActs_append, applyActs_cons, applyActs_bump]
  exact askHost_tbu

theorem messageTbu_lock {y : TimeMessage} : (messageTbu y).lock = true ↔ y.locked = true ∧ (messageTbu y).theta ≤ 9 := by
  rw [messageTbu, Bool.and_eq_true, decide_eq_true_eq]

/-- Settles O46: a flit by its check, its sequence number and its type; then the beats, the missing route and the time message. -/
theorem linkEvents : Obligations.LinkEvents := by
  unfold Obligations.LinkEvents
  intro k s p
  refine ⟨fun f ok h => ?down, fun f ok hup hk => ⟨fun h => ?discards, fun hok hseq hdiscards => ?silent, fun hok hseq => ?taken⟩,
    fun n i hfind => ⟨fun hfew => ?replays, fun hmany => ?linkDown⟩, fun n hfind => ?unknown, fun n i hfind => linkAckActs_some hfind, fun lane => ⟨rfl, rfl⟩,
    fun m htime hroute hheld => congrArg (performs · s) (noRouteActs_due htime hroute hheld), fun y => ?time⟩
  case down => exact congrArg (performs · s) (receiveActs_down h)
  case discards => exact congrArg (performs · s) (receiveActs_discards hup hk h)
  case silent => exact congrArg (performs · s) (receiveActs_silent hup hk hok hseq hdiscards)
  case taken =>
    have htakes := receiveActs_takes hup hk hok hseq
    refine ⟨fun hdest => ?_, fun hdest hkind hroom => ?_, fun hdest hkind hfull hnew => ?_, fun hdest hkind => ?_⟩
    · exact congrArg (performs · s) (htakes.trans (congrArg _ (flitArrives_forwarded hdest)))
    · refine performs_collective hup hk hok hseq hdest hkind (entered_goesOn ?_)
      rwa [took_queued]
    · refine performs_collective hup hk hok hseq hdest hkind (entered_pauses ?_ ?_)
      · rwa [took_queued]
      · rwa [took_pausing]
    · exact congrArg (performs · s) (htakes.trans (congrArg _ (flitArrives_time hdest hkind)))
  case replays => exact congrArg (performs · s) ((retryActs_some hfind).trans (if_neg (Nat.not_lt.mpr hfew)))
  case linkDown =>
    have hdown : exec (.retryBeat k n) s = performs [.chip (fun h => h.linkDown s.cyc k)] s :=
      congrArg (performs · s) ((retryActs_some hfind).trans (if_pos hmany))
    exact ⟨_, hdown, linkDown_ports⟩
  case unknown => exact congrArg (performs · s) (retryActs_none hfind)
  case time =>
    obtain ⟨t, hnext, htbu⟩ := timeSync_tbu (s := s) (y := y)
    exact ⟨t, hnext, by rw [htbu]; rfl, by rw [htbu]; rfl, by rw [htbu]; exact messageTbu_lock⟩

end Sys2Proof.Machine
end

section
/-! PROOFS. The canonical form of every memory and register file is kept by every step: whatever a phase does, it does by micro-operations, or it
changes the phase and the cursor alone (02 R19, R23, 10 R211; log 63). -/

namespace Sys2Proof.Machine

variable {s : State} {o : Host.Outcome State Fault Refusal}

/-- The next state of an outcome, if there is one, is canonical. -/
def LeadsToCanonical (o : Host.Outcome State Fault Refusal) : Prop := ∀ t, o = .next t → Canonical t

theorem leadsToCanonical_next {t : State} (h : Canonical t) : LeadsToCanonical (.next t) := fun _ hu => Host.Outcome.next.inj hu ▸ h

theorem leadsToCanonical_done (hs : Canonical s) (l : List Act) : LeadsToCanonical (done l s) := leadsToCanonical_next (applyActs_canonical hs l)

theorem leadsToCanonical_exec (hs : Canonical s) (i : Instr) : LeadsToCanonical (exec i s) := by
  obtain ⟨l, h⟩ := exec_next i s
  rw [h]
  exact leadsToCanonical_next (applyActs_canonical hs l)

/-- No memory and no register file depends on the phase and the cursor. -/
theorem Canonical.with_phase_cur (hs : Canonical s) {p : Phase} {k : Cursor} : Canonical { s with phase := p, cur := k } := { hs with }

theorem leadsToCanonical_readPhase (hs : Canonical s) : LeadsToCanonical (readPhase s) := by
  rw [readPhase]
  split
  · exact leadsToCanonical_exec hs _
  · exact leadsToCanonical_next hs.with_phase_cur

theorem leadsToCanonical_eventPhase (hs : Canonical s) : LeadsToCanonical (eventPhase s) := by
  rw [eventPhase]
  split
  · split
    · split
      · exact leadsToCanonical_exec (applyActs_canonical hs _) _
      · exact leadsToCanonical_done hs _
    · exact fun _ h => absurd h (by simp)
  · split
    · exact leadsToCanonical_exec (applyActs_canonical hs _) _
    · exact leadsToCanonical_next hs.with_phase_cur

theorem leadsToCanonical_seqTurn (hs : Canonical s) (q : Nat) : LeadsToCanonical (seqTurn s q) := by
  rw [seqTurn]
  split
  · exact leadsToCanonical_exec (applyActs_canonical hs _) _
  · split <;> split
    · exact leadsToCanonical_done hs _
    all_goals exact leadsToCanonical_exec hs _

theorem leadsToCanonical_issuePhase (hs : Canonical s) (c : Nat) : LeadsToCanonical (issuePhase s c) := by
  rw [issuePhase]
  split
  · exact leadsToCanonical_seqTurn hs.with_phase_cur _
  · exact leadsToCanonical_next hs.with_phase_cur

theorem leadsToCanonical_closePhase (hs : Canonical s) : LeadsToCanonical (closePhase s) := by
  rw [closePhase]
  split
  · exact leadsToCanonical_exec hs _
  · exact leadsToCanonical_done hs _

/-- Settles O54, phase by phase. -/
theorem canonicalKept : Obligations.CanonicalKept := by
  intro s t hs
  suffices LeadsToCanonical (step s) from this t
  rw [step]
  split
  · exact leadsToCanonical_readPhase hs
  · exact leadsToCanonical_eventPhase hs
  · exact leadsToCanonical_issuePhase hs _
  · exact leadsToCanonical_closePhase hs

end Sys2Proof.Machine
end

section
/-! PROOFS. A HALT in a handler ends the handler: what it leaves of its sequencer, and the HND of the frame (13 R294, R296, 18 R350; log 61). -/

namespace Sys2Proof.Machine

variable {x : Ctx} {s t : State} {q v : Nat} {l : List Act} {bs : List Byte}

/-! The sequencer. -/

/-- The sequencer is stopped outside every loop and every handler, and nothing that its handler held is left. -/
structure HandlerEnded (y : Seq) : Prop where
  run : y.run = .idle
  loops : y.loops = []
  hnd : y.hnd = false
  events : y.events = []
  orderFaults : y.orderFaults = []
  delivered : y.delivered = []
  deadline : y.deadline = false

theorem keepsSeq_work {P : Seq → Prop} {f : Work → Work} : (Act.work f).keepsSeq P := .inr (by simp [Act.touches])

/-- A HALT in a handler writes the frame's header, stops its sequencer, and then only wakes a sibling and releases what was in flight. -/
theorem haltActs_handler (h : (s.seqOf q).hnd = true) : ∃ f rest,
    haltActs s q = putBytes (q / 4) (frameOff q + 0x10) (leBytes 8 (frameField s q 0x10 0 64 / 2 * 2)) :: .seq q f :: rest ∧
      (∀ y, y.hnd = true → HandlerEnded (f y)) ∧ ∀ a ∈ rest, a.control = true ∧ a.keepsSeq HandlerEnded := by
  rw [haltActs, if_pos h]
  refine ⟨_, _, rfl, fun y hy => ?_, fun a ha => ?_⟩
  · constructor <;> simp [hy]
  · obtain rfl | ha := List.mem_cons.mp ha
    · exact ⟨rfl, keepsSeq_work⟩
    · split at ha
      · split at ha
        · obtain rfl := List.mem_singleton.mp ha
          refine ⟨rfl, keepsSeq_seq fun y hy => ?_⟩
          rwa [if_neg (by rw [hy.run]; decide), if_neg (by rw [hy.hnd]; decide)]
        · exact absurd ha List.not_mem_nil
      · exact absurd ha List.not_mem_nil

theorem haltActs_ended (hs : Canonical s) (h : (s.seqOf q).hnd = true) : HandlerEnded ((applyActs (haltActs s q) s).seqOf q) := by
  obtain ⟨f, rest, heq, hf, hrest⟩ := haltActs_handler h
  rw [heq, applyActs_cons, applyActs_cons]
  have hw := applyAct_canonical hs (putBytes (q / 4) (frameOff q + 0x10) (leBytes 8 (frameField s q 0x10 0 64 / 2 * 2)))
  refine seqOf_holds (applyAct_canonical hw _) ?_ fun a ha => (hrest a ha).2
  rw [seqOf_seq_same hw.seqs]
  refine hf _ ?_
  rwa [State.seqOf, putBytes, applyAct_write, setMem_seqs]

/-- An effect that leaves its sequencer outside every loop is followed by control changes that start no handler again. -/
theorem issued_outside_loops (h : ((applyActs l s).seqOf x.q).loops = []) : ∃ moves,
    issued x .seq l s = applyActs moves (applyActs l s) ∧ ∀ a ∈ moves, a.control = true ∧ a.keepsSeq HandlerEnded := by
  refine ⟨_, by rw [issued, List.append_assoc, applyActs_append], fun a ha => ?_⟩
  rw [advance_plain (by rw [h]; rfl), h] at ha
  obtain rfl | ha := List.mem_cons.mp ha
  · exact ⟨rfl, keepsSeq_seq fun y hy => { hy with loops := rfl }⟩
  · obtain rfl := List.mem_singleton.mp ha
    exact ⟨rfl, keepsSeq_work⟩

/-! The frame. -/

/-- A byte of the frame that is written, whatever control changes follow. -/
theorem frameByte_put {off i : Nat} (hl : ∀ a ∈ l, a.control = true) (hi : i < bs.length) :
    frameByte (applyActs l (applyAct (putBytes (q / 4) (frameOff q + off) bs) t)) q (off + i) = bs.getD i 0 := by
  have hkey : (Home.spd (q / 4)).key (frameOff q + (off + i)) = (Home.spd (q / 4)).key (frameOff q + off) + i := by rw [← Nat.add_assoc, key_add]
  calc _ = (applyAct (putBytes (q / 4) (frameOff q + off) bs) t).readByte (.spd (q / 4)) (frameOff q + (off + i)) := readByte_control hl
    _ = _ := by rw [putBytes, readByte_write rfl, hkey, if_pos (by omega), Nat.add_sub_cancel_left]

/-- The first byte of an even value is even. -/
theorem leBytes_even_lsb {n : Nat} (hn : 0 < n) : ((leBytes n (v / 2 * 2)).getD 0 0).getLsbD 0 = false := by
  rw [leBytes_getD hn, BitVec.getLsbD_ofNat, Nat.testBit_zero]
  simp

/-- The header's HND is clear after a HALT in a handler, whatever control changes follow. -/
theorem haltActs_frameHnd (h : (s.seqOf q).hnd = true) (hl : ∀ a ∈ l, a.control = true) :
    (frameByte (applyActs l (applyActs (haltActs s q) s)) q 0x10).getLsbD 0 = false := by
  obtain ⟨f, rest, heq, -, hrest⟩ := haltActs_handler h
  have hcontrol : ∀ a ∈ .seq q f :: rest ++ l, a.control = true :=
    List.forall_mem_append.mpr ⟨List.forall_mem_cons.mpr ⟨rfl, fun a ha => (hrest a ha).1⟩, hl⟩
  rw [← applyActs_append, heq, List.cons_append, applyActs_cons, frameByte_put (off := 0x10) (i := 0) hcontrol (by rw [leBytes_length]; decide)]
  exact leBytes_even_lsb (by decide)

/-- Settles O59, by what the HALT's effect leaves of the sequencer and of the frame's header; the move past the bundle keeps both. -/
theorem haltInHandler : Obligations.HaltInHandler := by
  intro f s hs hset hpass hhnd
  have hended : HandlerEnded ((applyActs (haltActs s s.cur.q) s).seqOf (atS1 s).q) := haltActs_ended hs hhnd
  obtain ⟨moves, hissued, hmoves⟩ := issued_outside_loops hended.loops
  have hend := seqOf_holds (applyActs_canonical hs _) hended fun a ha => (hmoves a ha).2
  rw [halt_goesOn hset hpass, goesOn, hissued]
  exact ⟨_, rfl, hend.run, hend.hnd, hend.events, hend.orderFaults, hend.delivered, hend.deadline,
    haltActs_frameHnd hhnd fun a ha => (hmoves a ha).1⟩

end Sys2Proof.Machine
end
